-- ==== Sys2Proof/Word.lean ====
section
/-! DEFINITION. The word types of the DN-8 model and their plainest arithmetic. -/
namespace Sys2Proof

/-- A register word: 32 bits, bit 0 the least significant (04 R91). -/
abbrev Word := BitVec 32

/-- One byte of a memory or of a message. -/
abbrev Byte := BitVec 8

/-- A 64-bit word of an accumulator file, a tray entry or a queue context. -/
abbrev DWord := BitVec 64

/-- Bits `[hi:lo]` of a natural number, as the spec writes a bit range (00, Numbers and bits). -/
def bitsOf (n hi lo : Nat) : Nat := (n >>> lo) % 2 ^ (hi + 1 - lo)

/-- `n` with its bits `[hi:lo]` replaced by the low bits of `v`. -/
def putBits (n hi lo v : Nat) : Nat :=
  n - (bitsOf n hi lo) * 2 ^ lo + (v % 2 ^ (hi + 1 - lo)) * 2 ^ lo

/-- The number a Boolean flag reads as. -/
def bit (b : Bool) : Nat := if b then 1 else 0

/-- The ceiling of `a / b`, with 0 for `b = 0`. -/
def ceilDiv (a b : Nat) : Nat := if b = 0 then 0 else (a + b - 1) / b

end Sys2Proof
end

