-- ==== Sys2Proof/Machine/Tbl.lean ====
section
/-! DEFINITION. A finite table keyed by natural numbers: the one representation of every memory and of every
group of numbered registers or units of the DN-8 model. An entry that equals what an unlisted key reads as is
never listed and the keys rise strictly, so equal tables are equal data. -/
namespace Sys2Proof

/-- A table: key and value pairs, keys strictly rising, no value equal to the default of its key. -/
abbrev Tbl (α : Type) := List (Nat × α)

namespace Machine

/-- The value at key `k`; `dflt k` where the table lists none. -/
def Tbl.get {α : Type} (dflt : Nat → α) : Tbl α → Nat → α
  | [], k => dflt k
  | (k', v) :: t, k => if k = k' then v else Tbl.get dflt t k

/-- The table without an entry at key `k`. -/
def Tbl.erase {α : Type} : Tbl α → Nat → Tbl α
  | [], _ => []
  | (k', v) :: t, k => if k = k' then t else (k', v) :: Tbl.erase t k

/-- The table with the entry `(k, v)` in the place its key gives it. -/
def Tbl.insert {α : Type} : Tbl α → Nat → α → Tbl α
  | [], k, v => [(k, v)]
  | (k', v') :: t, k, v =>
    if k < k' then (k, v) :: (k', v') :: t
    else if k = k' then (k, v) :: t
    else (k', v') :: Tbl.insert t k v

/-- The table after `v` is stored at key `k`, in canonical form. -/
def Tbl.set {α : Type} [DecidableEq α] (dflt : Nat → α) (t : Tbl α) (k : Nat) (v : α) : Tbl α :=
  if v = dflt k then Tbl.erase t k else Tbl.insert t k v

/-- Every key of the table is above `lo` (`none`: no bound) and the keys rise strictly. -/
def Tbl.rising {α : Type} : Option Nat → Tbl α → Bool
  | _, [] => true
  | none, (k, _) :: t => Tbl.rising (some k) t
  | some lo, (k, _) :: t => decide (lo < k) && Tbl.rising (some k) t

/-- The canonical form: keys strictly rising, no entry equal to its key's default. -/
def Tbl.wf {α : Type} [DecidableEq α] (dflt : Nat → α) (t : Tbl α) : Bool :=
  Tbl.rising none t && t.all (fun e => decide (e.2 ≠ dflt e.1))

/-- Consecutive entries from key `k` on, one per listed value. -/
def Tbl.setMany {α : Type} [DecidableEq α] (dflt : Nat → α) : Tbl α → Nat → List α → Tbl α
  | t, _, [] => t
  | t, k, v :: vs => Tbl.setMany dflt (Tbl.set dflt t k v) (k + 1) vs

/-- The `n` values from key `k` on. -/
def Tbl.getMany {α : Type} (dflt : Nat → α) (t : Tbl α) (k : Nat) : Nat → List α
  | 0 => []
  | n + 1 => Tbl.get dflt t k :: Tbl.getMany dflt t (k + 1) n

end Machine
end Sys2Proof
end

