-- ==== Sys2Proof/Machine/RegMap.lean ====
section
/-! DEFINITION. The BAR0 register map of the DN-8 (04 R91 to R116 and the register tables of the chapters): the
blocks and their windows, and one constant for every named field of every register with its place, access code
and reset value. Bits that no constant names are reserved-live (04 R100). -/
namespace Sys2Proof
namespace Machine

/-- The access codes of Table 4.2 that named fields carry; `cmd` marks a command field, whose table entry reads
"Reads 0" (04 R99). -/
inductive Acc where
  | ro | rw | w1c | pw | cmd
  deriving DecidableEq, Repr

/-- A named field: the block offset of its register (of instance 0), the stride and number of the register's
instances, its bits, its access code and its reset value. -/
structure Fld where
  off    : Nat
  stride : Nat
  cnt    : Nat
  hi     : Nat
  lo     : Nat
  acc    : Acc
  reset  : Nat
  deriving DecidableEq, Repr

/-- A block of BAR0 (Tables 4.7 and 4.8) with the indices that name one instance: the lodge `l` of a block whose
scope is Lodge (R105), the die `d`, the controller, engine or plot. -/
inductive Blk where
  | lodgeCtl (l : Nat) | warden (l : Nat) | clock (l : Nat) | chime | trellis | power | fault
  | security (l : Nat) | queue | obotil (n : Nat) | trug
  | dieCtl (d : Nat) | lattice (d : Nat) | hbmCtl (d k : Nat) | shed (d : Nat) | mower (d : Nat) | gh (d : Nat)
  | rill (d e : Nat) | sieve (d s : Nat) | plot (d p : Nat)
  deriving DecidableEq, Repr


/-! ### Fields of lodgeCtl -/

/-- Table 4.9 (04), bits [0:0]. -/
def Reg.PARAM_STS.READY : Fld := ⟨0x100, 0, 1, 0, 0, .ro, 0⟩
/-- Table 4.9 (04), bits [31:0]. -/
def Reg.MEMBER_CODE.MEMBER_CODE : Fld := ⟨0x104, 0, 1, 31, 0, .ro, 8⟩
/-- Table 4.9 (04), bits [3:0]. -/
def Reg.PARTERRE_COUNT.COUNT : Fld := ⟨0x108, 0, 1, 3, 0, .ro, 8⟩
/-- Table 4.9 (04), bits [1:0]. -/
def Reg.PARTERRE_ROWS.ROWS : Fld := ⟨0x10c, 0, 1, 1, 0, .ro, 2⟩
/-- Table 4.9 (04), bits [1:0]. -/
def Reg.LODGE_COUNT.COUNT : Fld := ⟨0x110, 0, 1, 1, 0, .ro, 2⟩
/-- Table 4.9 (04), bits [5:0]. -/
def Reg.KEEPER_CORES.COUNT : Fld := ⟨0x114, 0, 1, 5, 0, .ro, 32⟩
/-- Table 4.9 (04), bits [4:0]. -/
def Reg.HBM_STACKS.COUNT : Fld := ⟨0x118, 0, 1, 4, 0, .ro, 16⟩
/-- Table 4.9 (04), bits [31:0]. -/
def Reg.HBM_CAPACITY_GB.GB : Fld := ⟨0x11c, 0, 1, 31, 0, .ro, 576⟩
/-- Table 4.9 (04), bits [9:0]. -/
def Reg.PHYSICAL_PLOTS.COUNT : Fld := ⟨0x120, 0, 1, 9, 0, .ro, 544⟩
/-- Table 4.9 (04), bits [9:0]. -/
def Reg.ACTIVE_PLOTS.COUNT : Fld := ⟨0x124, 0, 1, 9, 0, .ro, 0⟩
/-- Table 4.9 (04), bits [3:0]. -/
def Reg.OBOTIL_PORTS.COUNT : Fld := ⟨0x128, 0, 1, 3, 0, .ro, 8⟩
/-- Table 4.9 (04), bits [1:0]. -/
def Reg.PCIE_PORTS.COUNT : Fld := ⟨0x12c, 0, 1, 1, 0, .ro, 2⟩
/-- Table 4.9 (04), bits [0:0]. -/
def Reg.LODGE_INDEX.INDEX : Fld := ⟨0x130, 0, 1, 0, 0, .ro, 0⟩
/-- Table 16.2 (16), bits [17:17]. -/
def Reg.LODGE_STS.FW_UP : Fld := ⟨0x0, 0, 1, 17, 17, .ro, 0⟩
/-- Table 16.2 (16), bits [16:16]. -/
def Reg.LODGE_STS.GH_READY : Fld := ⟨0x0, 0, 1, 16, 16, .ro, 0⟩
/-- Table 16.2 (16), bits [15:0]. -/
def Reg.LODGE_STS.KEEPER_UP : Fld := ⟨0x0, 0, 1, 15, 0, .ro, 0⟩
/-- Table 16.2 (16), bits [15:0]. -/
def Reg.KEEPER_RUN.RUN : Fld := ⟨0x4, 0, 1, 15, 0, .rw, 1⟩
/-- Table 16.2 (16), bits [15:0]. -/
def Reg.KEEPER_HALT.HALT : Fld := ⟨0x8, 0, 1, 15, 0, .w1c, 0⟩
/-- Table 16.2 (16), bits [15:0]. -/
def Reg.KEEPER_WDOG.TIMEOUT_US : Fld := ⟨0xc, 0, 1, 15, 0, .rw, 0⟩
/-- Table 16.2 (16), bits [31:21]. -/
def Reg.KEEPER_MEM_BASE_LO.BASE_LO : Fld := ⟨0x10, 0, 1, 31, 21, .rw, 0⟩
/-- Table 16.2 (16), bits [7:0]. -/
def Reg.KEEPER_MEM_BASE_HI.BASE_HI : Fld := ⟨0x14, 0, 1, 7, 0, .rw, 0⟩
/-- Table 16.2 (16), bits [15:0]. -/
def Reg.KEEPER_MEM_SIZE.SIZE : Fld := ⟨0x18, 0, 1, 15, 0, .rw, 0⟩
/-- Table 16.2 (16), bits [31:0]. -/
def Reg.GH_MBOX_IN.DATA : Fld := ⟨0x1c, 0, 1, 31, 0, .rw, 0⟩
/-- Table 16.2 (16), bits [31:0]. -/
def Reg.GH_MBOX_OUT.DATA : Fld := ⟨0x20, 0, 1, 31, 0, .ro, 0⟩
/-- Named fields of lodgeCtl, part 0. -/
def fieldsLodgeCtl0 : List Fld := [
  Reg.PARAM_STS.READY, Reg.MEMBER_CODE.MEMBER_CODE, Reg.PARTERRE_COUNT.COUNT, Reg.PARTERRE_ROWS.ROWS,
  Reg.LODGE_COUNT.COUNT, Reg.KEEPER_CORES.COUNT, Reg.HBM_STACKS.COUNT, Reg.HBM_CAPACITY_GB.GB,
  Reg.PHYSICAL_PLOTS.COUNT, Reg.ACTIVE_PLOTS.COUNT, Reg.OBOTIL_PORTS.COUNT, Reg.PCIE_PORTS.COUNT,
  Reg.LODGE_INDEX.INDEX, Reg.LODGE_STS.FW_UP, Reg.LODGE_STS.GH_READY, Reg.LODGE_STS.KEEPER_UP,
  Reg.KEEPER_RUN.RUN, Reg.KEEPER_HALT.HALT, Reg.KEEPER_WDOG.TIMEOUT_US, Reg.KEEPER_MEM_BASE_LO.BASE_LO,
  Reg.KEEPER_MEM_BASE_HI.BASE_HI, Reg.KEEPER_MEM_SIZE.SIZE, Reg.GH_MBOX_IN.DATA, Reg.GH_MBOX_OUT.DATA]
/-- Every named field of lodgeCtl. -/
def fieldsLodgeCtl : List Fld := fieldsLodgeCtl0

/-! ### Fields of warden -/

/-- Table 16.3 (16), bits [31:31]. -/
def Reg.WARDEN_CTL.BUSY : Fld := ⟨0x0, 0, 1, 31, 31, .ro, 0⟩
/-- Table 16.3 (16), bits [8:8]. -/
def Reg.WARDEN_CTL.TAKEOVER_EN : Fld := ⟨0x0, 0, 1, 8, 8, .pw, 1⟩
/-- Table 16.3 (16), bits [3:0]. -/
def Reg.WARDEN_CTL.CMD : Fld := ⟨0x0, 0, 1, 3, 0, .cmd, 0⟩
/-- Table 16.4 (16), bits [15:15]. -/
def Reg.WARDEN_STS.WDROP : Fld := ⟨0x4, 0, 1, 15, 15, .w1c, 0⟩
/-- Table 16.4 (16), bits [14:14]. -/
def Reg.WARDEN_STS.LOST : Fld := ⟨0x4, 0, 1, 14, 14, .w1c, 0⟩
/-- Table 16.4 (16), bits [13:13]. -/
def Reg.WARDEN_STS.ECHO_MIS : Fld := ⟨0x4, 0, 1, 13, 13, .w1c, 0⟩
/-- Table 16.4 (16), bits [12:12]. -/
def Reg.WARDEN_STS.UNSYNC_TAKE : Fld := ⟨0x4, 0, 1, 12, 12, .w1c, 0⟩
/-- Table 16.4 (16), bits [11:11]. -/
def Reg.WARDEN_STS.DIE_LOST : Fld := ⟨0x4, 0, 1, 11, 11, .w1c, 0⟩
/-- Table 16.4 (16), bits [10:10]. -/
def Reg.WARDEN_STS.CMD_IGN : Fld := ⟨0x4, 0, 1, 10, 10, .w1c, 0⟩
/-- Table 16.4 (16), bits [9:9]. -/
def Reg.WARDEN_STS.PREF_MIX : Fld := ⟨0x4, 0, 1, 9, 9, .ro, 0⟩
/-- Table 16.4 (16), bits [8:8]. -/
def Reg.WARDEN_STS.PREF : Fld := ⟨0x4, 0, 1, 8, 8, .ro, 0⟩
/-- Table 16.4 (16), bits [5:4]. -/
def Reg.WARDEN_STS.SYNC : Fld := ⟨0x4, 0, 1, 5, 4, .ro, 0⟩
/-- Table 16.4 (16), bits [2:0]. -/
def Reg.WARDEN_STS.ROLE : Fld := ⟨0x4, 0, 1, 2, 0, .ro, 0⟩
/-- Table 16.5 (16), bits [31:0]. -/
def Reg.WARDEN_EPOCH.EPOCH : Fld := ⟨0x8, 0, 1, 31, 0, .ro, 0⟩
/-- Table 16.5 (16), bits [23:16]. -/
def Reg.WARDEN_CLAIM.LOST : Fld := ⟨0xc, 0, 1, 23, 16, .ro, 0⟩
/-- Table 16.5 (16), bits [15:8]. -/
def Reg.WARDEN_CLAIM.REJ : Fld := ⟨0xc, 0, 1, 15, 8, .ro, 0⟩
/-- Table 16.5 (16), bits [7:0]. -/
def Reg.WARDEN_CLAIM.ACK : Fld := ⟨0xc, 0, 1, 7, 0, .ro, 0⟩
/-- Table 16.5 (16), bits [31:0]. -/
def Reg.WARDEN_HB_MISS.COUNT : Fld := ⟨0x10, 0, 1, 31, 0, .ro, 0⟩
/-- Table 16.5 (16), bits [31:0]. -/
def Reg.WARDEN_CHANGES.COUNT : Fld := ⟨0x14, 0, 1, 31, 0, .ro, 0⟩
/-- Table 16.5 (16), bits [31:0]. -/
def Reg.WARDEN_TAKE_LAT.LAT_NS : Fld := ⟨0x18, 0, 1, 31, 0, .ro, 0⟩
/-- Table 16.5 (16), bits [31:0]. -/
def Reg.WARDEN_ECHO_DIG_LO.DIG_LO : Fld := ⟨0x1c, 0, 1, 31, 0, .ro, 0⟩
/-- Table 16.5 (16), bits [31:0]. -/
def Reg.WARDEN_ECHO_DIG_HI.DIG_HI : Fld := ⟨0x20, 0, 1, 31, 0, .ro, 0⟩
/-- Table 16.5 (16), bits [31:0]. -/
def Reg.WARDEN_ECHO_MIS_CNT.COUNT : Fld := ⟨0x24, 0, 1, 31, 0, .ro, 0⟩
/-- Named fields of warden, part 0. -/
def fieldsWarden0 : List Fld := [
  Reg.WARDEN_CTL.BUSY, Reg.WARDEN_CTL.TAKEOVER_EN, Reg.WARDEN_CTL.CMD, Reg.WARDEN_STS.WDROP,
  Reg.WARDEN_STS.LOST, Reg.WARDEN_STS.ECHO_MIS, Reg.WARDEN_STS.UNSYNC_TAKE, Reg.WARDEN_STS.DIE_LOST,
  Reg.WARDEN_STS.CMD_IGN, Reg.WARDEN_STS.PREF_MIX, Reg.WARDEN_STS.PREF, Reg.WARDEN_STS.SYNC,
  Reg.WARDEN_STS.ROLE, Reg.WARDEN_EPOCH.EPOCH, Reg.WARDEN_CLAIM.LOST, Reg.WARDEN_CLAIM.REJ,
  Reg.WARDEN_CLAIM.ACK, Reg.WARDEN_HB_MISS.COUNT, Reg.WARDEN_CHANGES.COUNT, Reg.WARDEN_TAKE_LAT.LAT_NS,
  Reg.WARDEN_ECHO_DIG_LO.DIG_LO, Reg.WARDEN_ECHO_DIG_HI.DIG_HI, Reg.WARDEN_ECHO_MIS_CNT.COUNT]
/-- Every named field of warden. -/
def fieldsWarden : List Fld := fieldsWarden0

/-! ### Fields of clock -/

/-- Table 17.4 (17), bits [31:31]. -/
def Reg.CLK_CTL.BUSY : Fld := ⟨0x0, 0, 1, 31, 31, .ro, 0⟩
/-- Table 17.4 (17), bits [23:16]. -/
def Reg.CLK_CTL.HOLD_WINDOWS : Fld := ⟨0x0, 0, 1, 23, 16, .pw, 8⟩
/-- Table 17.4 (17), bits [10:8]. -/
def Reg.CLK_CTL.PORT : Fld := ⟨0x0, 0, 1, 10, 8, .pw, 0⟩
/-- Table 17.4 (17), bits [5:4]. -/
def Reg.CLK_CTL.SRC : Fld := ⟨0x0, 0, 1, 5, 4, .pw, 0⟩
/-- Table 17.4 (17), bits [3:0]. -/
def Reg.CLK_CTL.CMD : Fld := ⟨0x0, 0, 1, 3, 0, .cmd, 0⟩
/-- Table 17.5 (17), bits [15:15]. -/
def Reg.CLK_STS.WDROP : Fld := ⟨0x4, 0, 1, 15, 15, .w1c, 0⟩
/-- Table 17.5 (17), bits [14:14]. -/
def Reg.CLK_STS.CMD_IGN : Fld := ⟨0x4, 0, 1, 14, 14, .w1c, 0⟩
/-- Table 17.5 (17), bits [13:13]. -/
def Reg.CLK_STS.CLKEN_IGN : Fld := ⟨0x4, 0, 1, 13, 13, .w1c, 0⟩
/-- Table 17.5 (17), bits [12:12]. -/
def Reg.CLK_STS.CLKEN_PEND : Fld := ⟨0x4, 0, 1, 12, 12, .ro, 0⟩
/-- Table 17.5 (17), bits [11:11]. -/
def Reg.CLK_STS.SEL_FAIL : Fld := ⟨0x4, 0, 1, 11, 11, .w1c, 0⟩
/-- Table 17.5 (17), bits [10:10]. -/
def Reg.CLK_STS.NOREF : Fld := ⟨0x4, 0, 1, 10, 10, .w1c, 0⟩
/-- Table 17.5 (17), bits [9:9]. -/
def Reg.CLK_STS.SWITCHING : Fld := ⟨0x4, 0, 1, 9, 9, .ro, 0⟩
/-- Table 17.5 (17), bits [8:6]. -/
def Reg.CLK_STS.PHASE : Fld := ⟨0x4, 0, 1, 8, 6, .ro, 0⟩
/-- Table 17.5 (17), bits [5:3]. -/
def Reg.CLK_STS.PORT_ACT : Fld := ⟨0x4, 0, 1, 5, 3, .ro, 0⟩
/-- Table 17.5 (17), bits [1:0]. -/
def Reg.CLK_STS.SRC_ACT : Fld := ⟨0x4, 0, 1, 1, 0, .ro, 0⟩
/-- Table 17.6 (17), bits [7:7]. -/
def Reg.SUNDIAL_STS.FROST : Fld := ⟨0x8, 0, 1, 7, 7, .w1c, 0⟩
/-- Table 17.6 (17), bits [6:6]. -/
def Reg.SUNDIAL_STS.WFAIL : Fld := ⟨0x8, 0, 1, 6, 6, .w1c, 0⟩
/-- Table 17.6 (17), bits [5:5]. -/
def Reg.SUNDIAL_STS.HOLD : Fld := ⟨0x8, 0, 1, 5, 5, .ro, 0⟩
/-- Table 17.6 (17), bits [4:4]. -/
def Reg.SUNDIAL_STS.CAL : Fld := ⟨0x8, 0, 1, 4, 4, .ro, 0⟩
/-- Table 17.6 (17), bits [3:0]. -/
def Reg.SUNDIAL_STS.HOLD_CNT : Fld := ⟨0x8, 0, 1, 3, 0, .ro, 0⟩
/-- Table 17.7 (17), bits [14:0]. -/
def Reg.SUNDIAL_CAL.EXPECT : Fld := ⟨0xc, 0, 1, 14, 0, .ro, 0⟩
/-- Table 17.7 (17), bits [11:0]. -/
def Reg.SUNDIAL_LAST.COUNT : Fld := ⟨0x10, 0, 1, 11, 0, .ro, 0⟩
/-- Table 17.7 (17), bits [31:0]. -/
def Reg.SUNDIAL_FAIL_CNT.COUNT : Fld := ⟨0x14, 0, 1, 31, 0, .ro, 0⟩
/-- Table 17.7 (17), bits [31:0]. -/
def Reg.SUNDIAL_FROST_CNT.COUNT : Fld := ⟨0x18, 0, 1, 31, 0, .ro, 0⟩
/-- Table 17.7 (17), bits [23:18]. -/
def Reg.CLK_STEP.TARGET : Fld := ⟨0x1c, 0, 1, 23, 18, .ro, 0⟩
/-- Table 17.7 (17), bits [15:10]. -/
def Reg.CLK_STEP.KEEPER : Fld := ⟨0x1c, 0, 1, 15, 10, .ro, 0⟩
/-- Table 17.7 (17), bits [7:6]. -/
def Reg.CLK_STEP.RAMPING : Fld := ⟨0x1c, 0, 1, 7, 6, .ro, 0⟩
/-- Table 17.7 (17), bits [5:0]. -/
def Reg.CLK_STEP.CORE : Fld := ⟨0x1c, 0, 1, 5, 0, .ro, 0⟩
/-- Table 17.7 (17), bits [11:4]. -/
def Reg.CLK_PLL_STS.DIE_LOCK : Fld := ⟨0x20, 0, 1, 11, 4, .ro, 0⟩
/-- Table 17.7 (17), bits [2:2]. -/
def Reg.CLK_PLL_STS.HBM_LOCK : Fld := ⟨0x20, 0, 1, 2, 2, .ro, 0⟩
/-- Table 17.7 (17), bits [1:1]. -/
def Reg.CLK_PLL_STS.TB_LOCK : Fld := ⟨0x20, 0, 1, 1, 1, .ro, 0⟩
/-- Table 17.7 (17), bits [0:0]. -/
def Reg.CLK_PLL_STS.KEEPER_LOCK : Fld := ⟨0x20, 0, 1, 0, 0, .ro, 0⟩
/-- Table 17.7 (17), bits [31:0]. -/
def Reg.CLK_SWITCH_LAT.LAT_NS : Fld := ⟨0x24, 0, 1, 31, 0, .ro, 0⟩
/-- Table 17.7 (17), bits [15:8]. -/
def Reg.CLKEN_DEV.OBOTIL : Fld := ⟨0x100, 0, 1, 15, 8, .rw, 0⟩
/-- Table 17.7 (17), bits [5:5]. -/
def Reg.CLKEN_DEV.TRUG : Fld := ⟨0x100, 0, 1, 5, 5, .rw, 0⟩
/-- Table 17.7 (17), bits [4:4]. -/
def Reg.CLKEN_DEV.QUEUE : Fld := ⟨0x100, 0, 1, 4, 4, .rw, 0⟩
/-- Table 17.7 (17), bits [2:2]. -/
def Reg.CLKEN_DEV.TRELLIS : Fld := ⟨0x100, 0, 1, 2, 2, .rw, 0⟩
/-- Table 17.7 (17), bits [1:1]. -/
def Reg.CLKEN_DEV.CHIME : Fld := ⟨0x100, 0, 1, 1, 1, .rw, 0⟩
/-- Table 17.7 (17), bits [27:24]. -/
def Reg.CLKEN_DIE.SIEVE : Fld := ⟨0x200, 32, 8, 27, 24, .rw, 0⟩
/-- Table 17.7 (17), bits [23:8]. -/
def Reg.CLKEN_DIE.RILL : Fld := ⟨0x200, 32, 8, 23, 8, .rw, 0⟩
/-- Table 17.7 (17), bits [6:6]. -/
def Reg.CLKEN_DIE.GLASSHOUSE : Fld := ⟨0x200, 32, 8, 6, 6, .rw, 0⟩
/-- Table 17.7 (17), bits [5:5]. -/
def Reg.CLKEN_DIE.MOWER : Fld := ⟨0x200, 32, 8, 5, 5, .rw, 0⟩
/-- Table 17.7 (17), bits [4:4]. -/
def Reg.CLKEN_DIE.SHED : Fld := ⟨0x200, 32, 8, 4, 4, .rw, 0⟩
/-- Table 17.7 (17), bits [3:3]. -/
def Reg.CLKEN_DIE.HBM1 : Fld := ⟨0x200, 32, 8, 3, 3, .rw, 0⟩
/-- Table 17.7 (17), bits [2:2]. -/
def Reg.CLKEN_DIE.HBM0 : Fld := ⟨0x200, 32, 8, 2, 2, .rw, 0⟩
/-- Table 17.7 (17), bits [1:1]. -/
def Reg.CLKEN_DIE.LATTICE : Fld := ⟨0x200, 32, 8, 1, 1, .rw, 0⟩
/-- Table 17.7 (17), bits [0:0]. -/
def Reg.CLKEN_DIE.DIE_CTL : Fld := ⟨0x200, 32, 8, 0, 0, .rw, 0⟩
/-- Table 17.7 (17), bits [31:0]. -/
def Reg.CLKEN_PLOT_LO.PLOT : Fld := ⟨0x204, 32, 8, 31, 0, .rw, 0⟩
/-- Table 17.7 (17), bits [31:0]. -/
def Reg.CLKEN_PLOT_MID.PLOT : Fld := ⟨0x208, 32, 8, 31, 0, .rw, 0⟩
/-- Table 17.7 (17), bits [3:0]. -/
def Reg.CLKEN_PLOT_HI.PLOT : Fld := ⟨0x20c, 32, 8, 3, 0, .rw, 0⟩
/-- Named fields of clock, part 0. -/
def fieldsClock0 : List Fld := [
  Reg.CLK_CTL.BUSY, Reg.CLK_CTL.HOLD_WINDOWS, Reg.CLK_CTL.PORT, Reg.CLK_CTL.SRC,
  Reg.CLK_CTL.CMD, Reg.CLK_STS.WDROP, Reg.CLK_STS.CMD_IGN, Reg.CLK_STS.CLKEN_IGN,
  Reg.CLK_STS.CLKEN_PEND, Reg.CLK_STS.SEL_FAIL, Reg.CLK_STS.NOREF, Reg.CLK_STS.SWITCHING,
  Reg.CLK_STS.PHASE, Reg.CLK_STS.PORT_ACT, Reg.CLK_STS.SRC_ACT, Reg.SUNDIAL_STS.FROST,
  Reg.SUNDIAL_STS.WFAIL, Reg.SUNDIAL_STS.HOLD, Reg.SUNDIAL_STS.CAL, Reg.SUNDIAL_STS.HOLD_CNT,
  Reg.SUNDIAL_CAL.EXPECT, Reg.SUNDIAL_LAST.COUNT, Reg.SUNDIAL_FAIL_CNT.COUNT, Reg.SUNDIAL_FROST_CNT.COUNT]
/-- Named fields of clock, part 1. -/
def fieldsClock1 : List Fld := [
  Reg.CLK_STEP.TARGET, Reg.CLK_STEP.KEEPER, Reg.CLK_STEP.RAMPING, Reg.CLK_STEP.CORE,
  Reg.CLK_PLL_STS.DIE_LOCK, Reg.CLK_PLL_STS.HBM_LOCK, Reg.CLK_PLL_STS.TB_LOCK, Reg.CLK_PLL_STS.KEEPER_LOCK,
  Reg.CLK_SWITCH_LAT.LAT_NS, Reg.CLKEN_DEV.OBOTIL, Reg.CLKEN_DEV.TRUG, Reg.CLKEN_DEV.QUEUE,
  Reg.CLKEN_DEV.TRELLIS, Reg.CLKEN_DEV.CHIME, Reg.CLKEN_DIE.SIEVE, Reg.CLKEN_DIE.RILL,
  Reg.CLKEN_DIE.GLASSHOUSE, Reg.CLKEN_DIE.MOWER, Reg.CLKEN_DIE.SHED, Reg.CLKEN_DIE.HBM1,
  Reg.CLKEN_DIE.HBM0, Reg.CLKEN_DIE.LATTICE, Reg.CLKEN_DIE.DIE_CTL, Reg.CLKEN_PLOT_LO.PLOT]
/-- Named fields of clock, part 2. -/
def fieldsClock2 : List Fld := [
  Reg.CLKEN_PLOT_MID.PLOT, Reg.CLKEN_PLOT_HI.PLOT]
/-- Every named field of clock. -/
def fieldsClock : List Fld := fieldsClock0 ++ fieldsClock1 ++ fieldsClock2

/-! ### Fields of chime -/

/-- Table 2.5 (02), bits [31:31]. -/
def Reg.CHIME_CTL.BUSY : Fld := ⟨0x0, 0, 1, 31, 31, .ro, 0⟩
/-- Table 2.5 (02), bits [16:16]. -/
def Reg.CHIME_CTL.CHOUT_EN : Fld := ⟨0x0, 0, 1, 16, 16, .pw, 1⟩
/-- Table 2.5 (02), bits [15:8]. -/
def Reg.CHIME_CTL.MKR_EMIT : Fld := ⟨0x0, 0, 1, 15, 8, .pw, 0⟩
/-- Table 2.5 (02), bits [6:4]. -/
def Reg.CHIME_CTL.MKR_PORT : Fld := ⟨0x0, 0, 1, 6, 4, .pw, 0⟩
/-- Table 2.5 (02), bits [2:1]. -/
def Reg.CHIME_CTL.SRC : Fld := ⟨0x0, 0, 1, 2, 1, .pw, 0⟩
/-- Table 2.5 (02), bits [0:0]. -/
def Reg.CHIME_CTL.ENABLE : Fld := ⟨0x0, 0, 1, 0, 0, .pw, 0⟩
/-- Table 2.6 (02), bits [23:0]. -/
def Reg.CHIME_PERIOD.PERIOD_NS : Fld := ⟨0x4, 0, 1, 23, 0, .pw, 50000⟩
/-- Table 2.7 (02), bits [10:9]. -/
def Reg.CHIME_STS.SRC_ACT : Fld := ⟨0x8, 0, 1, 10, 9, .ro, 0⟩
/-- Table 2.7 (02), bits [8:8]. -/
def Reg.CHIME_STS.FREERUN : Fld := ⟨0x8, 0, 1, 8, 8, .ro, 0⟩
/-- Table 2.7 (02), bits [5:5]. -/
def Reg.CHIME_STS.WDROP : Fld := ⟨0x8, 0, 1, 5, 5, .w1c, 0⟩
/-- Table 2.7 (02), bits [4:4]. -/
def Reg.CHIME_STS.MEARLY : Fld := ⟨0x8, 0, 1, 4, 4, .w1c, 0⟩
/-- Table 2.7 (02), bits [3:3]. -/
def Reg.CHIME_STS.CNUM_SKEW : Fld := ⟨0x8, 0, 1, 3, 3, .w1c, 0⟩
/-- Table 2.7 (02), bits [2:2]. -/
def Reg.CHIME_STS.MLATE : Fld := ⟨0x8, 0, 1, 2, 2, .w1c, 0⟩
/-- Table 2.7 (02), bits [1:1]. -/
def Reg.CHIME_STS.MMISS : Fld := ⟨0x8, 0, 1, 1, 1, .w1c, 0⟩
/-- Table 2.7 (02), bits [0:0]. -/
def Reg.CHIME_STS.PREJ : Fld := ⟨0x8, 0, 1, 0, 0, .w1c, 0⟩
/-- Table 2.8 (02), bits [31:0]. -/
def Reg.CHIME_COUNT_LO.COUNT_LO : Fld := ⟨0xc, 0, 1, 31, 0, .ro, 0⟩
/-- Table 2.8 (02), bits [31:0]. -/
def Reg.CHIME_COUNT_HI.COUNT_HI : Fld := ⟨0x10, 0, 1, 31, 0, .ro, 0⟩
/-- Table 2.8 (02), bits [15:0]. -/
def Reg.CHIME_LEAD.LEAD_NS : Fld := ⟨0x14, 0, 1, 15, 0, .pw, 512⟩
/-- Table 2.8 (02), bits [15:0]. -/
def Reg.CHIME_TOL.TOL_NS : Fld := ⟨0x18, 0, 1, 15, 0, .pw, 100⟩
/-- Table 2.8 (02), bits [15:0]. -/
def Reg.CHIME_PIN.PIN_DELAY : Fld := ⟨0x1c, 0, 1, 15, 0, .pw, 0⟩
/-- Named fields of chime, part 0. -/
def fieldsChime0 : List Fld := [
  Reg.CHIME_CTL.BUSY, Reg.CHIME_CTL.CHOUT_EN, Reg.CHIME_CTL.MKR_EMIT, Reg.CHIME_CTL.MKR_PORT,
  Reg.CHIME_CTL.SRC, Reg.CHIME_CTL.ENABLE, Reg.CHIME_PERIOD.PERIOD_NS, Reg.CHIME_STS.SRC_ACT,
  Reg.CHIME_STS.FREERUN, Reg.CHIME_STS.WDROP, Reg.CHIME_STS.MEARLY, Reg.CHIME_STS.CNUM_SKEW,
  Reg.CHIME_STS.MLATE, Reg.CHIME_STS.MMISS, Reg.CHIME_STS.PREJ, Reg.CHIME_COUNT_LO.COUNT_LO,
  Reg.CHIME_COUNT_HI.COUNT_HI, Reg.CHIME_LEAD.LEAD_NS, Reg.CHIME_TOL.TOL_NS, Reg.CHIME_PIN.PIN_DELAY]
/-- Every named field of chime. -/
def fieldsChime : List Fld := fieldsChime0

/-! ### Fields of trellis -/

/-- Table 3.9 (03), bits [31:31]. -/
def Reg.TRELLIS_CTL.BUSY : Fld := ⟨0x0, 0, 1, 31, 31, .ro, 0⟩
/-- Table 3.9 (03), bits [21:16]. -/
def Reg.TRELLIS_CTL.BED : Fld := ⟨0x0, 0, 1, 21, 16, .pw, 0⟩
/-- Table 3.9 (03), bits [3:0]. -/
def Reg.TRELLIS_CTL.CMD : Fld := ⟨0x0, 0, 1, 3, 0, .cmd, 0⟩
/-- Table 3.10 (03), bits [16:16]. -/
def Reg.TRELLIS_STS.LOADED : Fld := ⟨0x4, 0, 1, 16, 16, .ro, 0⟩
/-- Table 3.10 (03), bits [15:15]. -/
def Reg.TRELLIS_STS.WDROP : Fld := ⟨0x4, 0, 1, 15, 15, .w1c, 0⟩
/-- Table 3.10 (03), bits [14:14]. -/
def Reg.TRELLIS_STS.ERR : Fld := ⟨0x4, 0, 1, 14, 14, .w1c, 0⟩
/-- Table 3.10 (03), bits [13:13]. -/
def Reg.TRELLIS_STS.DONE : Fld := ⟨0x4, 0, 1, 13, 13, .w1c, 0⟩
/-- Table 3.10 (03), bits [10:8]. -/
def Reg.TRELLIS_STS.LSTATE : Fld := ⟨0x4, 0, 1, 10, 8, .ro, 0⟩
/-- Table 3.10 (03), bits [5:0]. -/
def Reg.TRELLIS_STS.LBED : Fld := ⟨0x4, 0, 1, 5, 0, .ro, 0⟩
/-- Table 3.11 (03), bits [31:0]. -/
def Reg.TRELLIS_SRC_LO.SRC_LO : Fld := ⟨0x8, 0, 1, 31, 0, .pw, 0⟩
/-- Table 3.11 (03), bits [31:0]. -/
def Reg.TRELLIS_SRC_HI.SRC_HI : Fld := ⟨0xc, 0, 1, 31, 0, .pw, 0⟩
/-- Table 3.11 (03), bits [31:0]. -/
def Reg.TRELLIS_LEN.LEN : Fld := ⟨0x10, 0, 1, 31, 0, .pw, 0⟩
/-- Table 3.11 (03), bits [25:16]. -/
def Reg.TRELLIS_ERR.SECTION : Fld := ⟨0x14, 0, 1, 25, 16, .ro, 1023⟩
/-- Table 3.11 (03), bits [7:0]. -/
def Reg.TRELLIS_ERR.CODE : Fld := ⟨0x14, 0, 1, 7, 0, .ro, 0⟩
/-- Table 3.11 (03), bits [31:0]. -/
def Reg.TRELLIS_ERR_OFF.OFFSET : Fld := ⟨0x18, 0, 1, 31, 0, .ro, 0⟩
/-- Table 3.11 (03), bits [31:0]. -/
def Reg.TRELLIS_IMG_ID_LO.ID_LO : Fld := ⟨0x1c, 0, 1, 31, 0, .ro, 0⟩
/-- Table 3.11 (03), bits [31:0]. -/
def Reg.TRELLIS_IMG_ID_HI.ID_HI : Fld := ⟨0x20, 0, 1, 31, 0, .ro, 0⟩
/-- Table 3.11 (03), bits [31:0]. -/
def Reg.TRELLIS_SEC_VER.SEC_VERSION : Fld := ⟨0x24, 0, 1, 31, 0, .ro, 0⟩
/-- Table 3.11 (03), bits [31:0]. -/
def Reg.TRELLIS_BEDS_LO.BEDS_LO : Fld := ⟨0x28, 0, 1, 31, 0, .ro, 0⟩
/-- Table 3.11 (03), bits [31:0]. -/
def Reg.TRELLIS_BEDS_HI.BEDS_HI : Fld := ⟨0x2c, 0, 1, 31, 0, .ro, 0⟩
/-- Table 3.11 (03), bits [8:0]. -/
def Reg.TRELLIS_MAP_IDX.LPLOT : Fld := ⟨0x30, 0, 1, 8, 0, .pw, 0⟩
/-- Table 3.11 (03), bits [31:31]. -/
def Reg.TRELLIS_MAP_DATA.MAPPED : Fld := ⟨0x34, 0, 1, 31, 31, .ro, 0⟩
/-- Table 3.11 (03), bits [10:8]. -/
def Reg.TRELLIS_MAP_DATA.DIE : Fld := ⟨0x34, 0, 1, 10, 8, .ro, 0⟩
/-- Table 3.11 (03), bits [6:0]. -/
def Reg.TRELLIS_MAP_DATA.PPLOT : Fld := ⟨0x34, 0, 1, 6, 0, .ro, 0⟩
/-- Table 3.11 (03), bits [31:0]. -/
def Reg.TRELLIS_REPLANT_LAT.LAT_NS : Fld := ⟨0x38, 0, 1, 31, 0, .ro, 0⟩
/-- Named fields of trellis, part 0. -/
def fieldsTrellis0 : List Fld := [
  Reg.TRELLIS_CTL.BUSY, Reg.TRELLIS_CTL.BED, Reg.TRELLIS_CTL.CMD, Reg.TRELLIS_STS.LOADED,
  Reg.TRELLIS_STS.WDROP, Reg.TRELLIS_STS.ERR, Reg.TRELLIS_STS.DONE, Reg.TRELLIS_STS.LSTATE,
  Reg.TRELLIS_STS.LBED, Reg.TRELLIS_SRC_LO.SRC_LO, Reg.TRELLIS_SRC_HI.SRC_HI, Reg.TRELLIS_LEN.LEN,
  Reg.TRELLIS_ERR.SECTION, Reg.TRELLIS_ERR.CODE, Reg.TRELLIS_ERR_OFF.OFFSET, Reg.TRELLIS_IMG_ID_LO.ID_LO,
  Reg.TRELLIS_IMG_ID_HI.ID_HI, Reg.TRELLIS_SEC_VER.SEC_VERSION, Reg.TRELLIS_BEDS_LO.BEDS_LO, Reg.TRELLIS_BEDS_HI.BEDS_HI,
  Reg.TRELLIS_MAP_IDX.LPLOT, Reg.TRELLIS_MAP_DATA.MAPPED, Reg.TRELLIS_MAP_DATA.DIE, Reg.TRELLIS_MAP_DATA.PPLOT]
/-- Named fields of trellis, part 1. -/
def fieldsTrellis1 : List Fld := [
  Reg.TRELLIS_REPLANT_LAT.LAT_NS]
/-- Every named field of trellis. -/
def fieldsTrellis : List Fld := fieldsTrellis0 ++ fieldsTrellis1

/-! ### Fields of power -/

/-- Table 20.3 (20), bits [31:31]. -/
def Reg.POWER_CTL.BUSY : Fld := ⟨0x0, 0, 1, 31, 31, .ro, 0⟩
/-- Table 20.3 (20), bits [16:16]. -/
def Reg.POWER_CTL.CAP_EN : Fld := ⟨0x0, 0, 1, 16, 16, .pw, 0⟩
/-- Table 20.3 (20), bits [13:8]. -/
def Reg.POWER_CTL.STEP_MAX : Fld := ⟨0x0, 0, 1, 13, 8, .pw, 16⟩
/-- Table 20.3 (20), bits [3:0]. -/
def Reg.POWER_CTL.CMD : Fld := ⟨0x0, 0, 1, 3, 0, .cmd, 0⟩
/-- Table 20.4 (20), bits [19:16]. -/
def Reg.POWER_STS.DUTY : Fld := ⟨0x4, 0, 1, 19, 16, .ro, 0⟩
/-- Table 20.4 (20), bits [15:10]. -/
def Reg.POWER_STS.STEP : Fld := ⟨0x4, 0, 1, 15, 10, .ro, 0⟩
/-- Table 20.4 (20), bits [9:9]. -/
def Reg.POWER_STS.WDROP : Fld := ⟨0x4, 0, 1, 9, 9, .w1c, 0⟩
/-- Table 20.4 (20), bits [8:8]. -/
def Reg.POWER_STS.CMD_IGN : Fld := ⟨0x4, 0, 1, 8, 8, .w1c, 0⟩
/-- Table 20.4 (20), bits [7:7]. -/
def Reg.POWER_STS.CAPPED : Fld := ⟨0x4, 0, 1, 7, 7, .ro, 0⟩
/-- Table 20.4 (20), bits [6:6]. -/
def Reg.POWER_STS.ALERT : Fld := ⟨0x4, 0, 1, 6, 6, .w1c, 0⟩
/-- Table 20.4 (20), bits [5:4]. -/
def Reg.POWER_STS.WAKE_SRC : Fld := ⟨0x4, 0, 1, 5, 4, .ro, 0⟩
/-- Table 20.4 (20), bits [2:0]. -/
def Reg.POWER_STS.STATE : Fld := ⟨0x4, 0, 1, 2, 0, .ro, 0⟩
/-- Table 20.5 (20), bits [31:16]. -/
def Reg.POWER_CAP.HYST_W : Fld := ⟨0x8, 0, 1, 31, 16, .pw, 100⟩
/-- Table 20.5 (20), bits [15:0]. -/
def Reg.POWER_CAP.CAP_W : Fld := ⟨0x8, 0, 1, 15, 0, .pw, 3200⟩
/-- Table 20.5 (20), bits [7:0]. -/
def Reg.POWER_WINDOW.WINDOW : Fld := ⟨0xc, 0, 1, 7, 0, .pw, 10⟩
/-- Table 20.5 (20), bits [31:16]. -/
def Reg.POWER_MEAS.PEAK_W : Fld := ⟨0x10, 0, 1, 31, 16, .ro, 0⟩
/-- Table 20.5 (20), bits [15:0]. -/
def Reg.POWER_MEAS.AVG_W : Fld := ⟨0x10, 0, 1, 15, 0, .ro, 0⟩
/-- Table 20.5 (20), bits [15:8]. -/
def Reg.POWER_THERM.THROTTLE_C : Fld := ⟨0x14, 0, 1, 15, 8, .pw, 100⟩
/-- Table 20.5 (20), bits [7:0]. -/
def Reg.POWER_THERM.WARN_C : Fld := ⟨0x14, 0, 1, 7, 0, .pw, 95⟩
/-- Table 20.5 (20), bits [15:12]. -/
def Reg.POWER_TEMP_MAX.SRC : Fld := ⟨0x18, 0, 1, 15, 12, .ro, 0⟩
/-- Table 20.5 (20), bits [9:0]. -/
def Reg.POWER_TEMP_MAX.TEMP : Fld := ⟨0x18, 0, 1, 9, 0, .ro, 0⟩
/-- Table 20.5 (20), bits [31:31]. -/
def Reg.POWER_WAKE.EN : Fld := ⟨0x1c, 0, 1, 31, 31, .pw, 0⟩
/-- Table 20.5 (20), bits [30:0]. -/
def Reg.POWER_WAKE.TIMER_MS : Fld := ⟨0x1c, 0, 1, 30, 0, .pw, 0⟩
/-- Table 20.5 (20), bits [31:0]. -/
def Reg.POWER_HELD_CNT.COUNT : Fld := ⟨0x20, 0, 1, 31, 0, .ro, 0⟩
/-- Table 20.5 (20), bits [7:0]. -/
def Reg.POWER_ESTOP.CAUSE : Fld := ⟨0x24, 0, 1, 7, 0, .ro, 0⟩
/-- Named fields of power, part 0. -/
def fieldsPower0 : List Fld := [
  Reg.POWER_CTL.BUSY, Reg.POWER_CTL.CAP_EN, Reg.POWER_CTL.STEP_MAX, Reg.POWER_CTL.CMD,
  Reg.POWER_STS.DUTY, Reg.POWER_STS.STEP, Reg.POWER_STS.WDROP, Reg.POWER_STS.CMD_IGN,
  Reg.POWER_STS.CAPPED, Reg.POWER_STS.ALERT, Reg.POWER_STS.WAKE_SRC, Reg.POWER_STS.STATE,
  Reg.POWER_CAP.HYST_W, Reg.POWER_CAP.CAP_W, Reg.POWER_WINDOW.WINDOW, Reg.POWER_MEAS.PEAK_W,
  Reg.POWER_MEAS.AVG_W, Reg.POWER_THERM.THROTTLE_C, Reg.POWER_THERM.WARN_C, Reg.POWER_TEMP_MAX.SRC,
  Reg.POWER_TEMP_MAX.TEMP, Reg.POWER_WAKE.EN, Reg.POWER_WAKE.TIMER_MS, Reg.POWER_HELD_CNT.COUNT]
/-- Named fields of power, part 1. -/
def fieldsPower1 : List Fld := [
  Reg.POWER_ESTOP.CAUSE]
/-- Every named field of power. -/
def fieldsPower : List Fld := fieldsPower0 ++ fieldsPower1

/-! ### Fields of fault -/

/-- Table 18.9 (18), bits [23:20]. -/
def Reg.FAULT_CTL.SCRUB_HBM_H : Fld := ⟨0x0, 0, 1, 23, 20, .rw, 12⟩
/-- Table 18.9 (18), bits [15:8]. -/
def Reg.FAULT_CTL.SCRUB_SRAM_MS : Fld := ⟨0x0, 0, 1, 15, 8, .rw, 100⟩
/-- Table 18.9 (18), bits [7:7]. -/
def Reg.FAULT_CTL.CE_LOG : Fld := ⟨0x0, 0, 1, 7, 7, .rw, 1⟩
/-- Table 18.9 (18), bits [6:6]. -/
def Reg.FAULT_CTL.IRQ_EN : Fld := ⟨0x0, 0, 1, 6, 6, .rw, 1⟩
/-- Table 18.9 (18), bits [5:5]. -/
def Reg.FAULT_CTL.SCRUB_SRAM_EN : Fld := ⟨0x0, 0, 1, 5, 5, .rw, 1⟩
/-- Table 18.9 (18), bits [4:4]. -/
def Reg.FAULT_CTL.SCRUB_HBM_EN : Fld := ⟨0x0, 0, 1, 4, 4, .rw, 1⟩
/-- Table 18.9 (18), bits [3:0]. -/
def Reg.FAULT_CTL.CMD : Fld := ⟨0x0, 0, 1, 3, 0, .cmd, 0⟩
/-- Table 18.10 (18), bits [15:15]. -/
def Reg.FAULT_STS.CMD_IGN : Fld := ⟨0x4, 0, 1, 15, 15, .w1c, 0⟩
/-- Table 18.10 (18), bits [14:14]. -/
def Reg.FAULT_STS.FULL : Fld := ⟨0x4, 0, 1, 14, 14, .w1c, 0⟩
/-- Table 18.10 (18), bits [13:13]. -/
def Reg.FAULT_STS.FATAL : Fld := ⟨0x4, 0, 1, 13, 13, .w1c, 0⟩
/-- Table 18.10 (18), bits [10:0]. -/
def Reg.FAULT_STS.COUNT : Fld := ⟨0x4, 0, 1, 10, 0, .ro, 0⟩
/-- Table 18.11 (18), bits [31:31]. -/
def Reg.FAULT_GUAR.HOLDS : Fld := ⟨0x8, 0, 1, 31, 31, .ro, 0⟩
/-- Table 18.11 (18), bits [5:5]. -/
def Reg.FAULT_GUAR.ROC : Fld := ⟨0x8, 0, 1, 5, 5, .ro, 0⟩
/-- Table 18.11 (18), bits [4:4]. -/
def Reg.FAULT_GUAR.HEDGE : Fld := ⟨0x8, 0, 1, 4, 4, .ro, 1⟩
/-- Table 18.11 (18), bits [3:3]. -/
def Reg.FAULT_GUAR.SCRUB : Fld := ⟨0x8, 0, 1, 3, 3, .ro, 1⟩
/-- Table 18.11 (18), bits [2:2]. -/
def Reg.FAULT_GUAR.LANES : Fld := ⟨0x8, 0, 1, 2, 2, .ro, 1⟩
/-- Table 18.11 (18), bits [1:1]. -/
def Reg.FAULT_GUAR.SUNDIAL : Fld := ⟨0x8, 0, 1, 1, 1, .ro, 1⟩
/-- Table 18.11 (18), bits [0:0]. -/
def Reg.FAULT_GUAR.HEARTBEAT : Fld := ⟨0x8, 0, 1, 0, 0, .ro, 0⟩
/-- Table 18.12 (18), bits [31:0]. -/
def Reg.FAULT_LOST_CNT.COUNT : Fld := ⟨0xc, 0, 1, 31, 0, .ro, 0⟩
/-- Table 18.12 (18), bits [31:0]. -/
def Reg.FAULT_CE_TOTAL.COUNT : Fld := ⟨0x10, 0, 1, 31, 0, .ro, 0⟩
/-- Table 18.12 (18), bits [31:0]. -/
def Reg.FAULT_UE_TOTAL.COUNT : Fld := ⟨0x14, 0, 1, 31, 0, .ro, 0⟩
/-- Table 18.12 (18), bits [31:0]. -/
def Reg.SCRUB_HBM_POS_LO.ADDR_LO : Fld := ⟨0x18, 0, 1, 31, 0, .ro, 0⟩
/-- Table 18.12 (18), bits [7:0]. -/
def Reg.SCRUB_HBM_POS_HI.ADDR_HI : Fld := ⟨0x1c, 0, 1, 7, 0, .ro, 0⟩
/-- Table 18.12 (18), bits [31:0]. -/
def Reg.SCRUB_HBM_PASSES.COUNT : Fld := ⟨0x20, 0, 1, 31, 0, .ro, 0⟩
/-- Table 18.12 (18), bits [31:0]. -/
def Reg.SCRUB_SRAM_PASSES.COUNT : Fld := ⟨0x24, 0, 1, 31, 0, .ro, 0⟩
/-- Table 18.12 (18), bits [31:0]. -/
def Reg.SCRUB_HBM_LAST.SECONDS : Fld := ⟨0x28, 0, 1, 31, 0, .ro, 0⟩
/-- Table 18.12 (18), bits [31:0]. -/
def Reg.FAULT_LOG_DATA.DATA : Fld := ⟨0x40, 4, 8, 31, 0, .ro, 0⟩
/-- Named fields of fault, part 0. -/
def fieldsFault0 : List Fld := [
  Reg.FAULT_CTL.SCRUB_HBM_H, Reg.FAULT_CTL.SCRUB_SRAM_MS, Reg.FAULT_CTL.CE_LOG, Reg.FAULT_CTL.IRQ_EN,
  Reg.FAULT_CTL.SCRUB_SRAM_EN, Reg.FAULT_CTL.SCRUB_HBM_EN, Reg.FAULT_CTL.CMD, Reg.FAULT_STS.CMD_IGN,
  Reg.FAULT_STS.FULL, Reg.FAULT_STS.FATAL, Reg.FAULT_STS.COUNT, Reg.FAULT_GUAR.HOLDS,
  Reg.FAULT_GUAR.ROC, Reg.FAULT_GUAR.HEDGE, Reg.FAULT_GUAR.SCRUB, Reg.FAULT_GUAR.LANES,
  Reg.FAULT_GUAR.SUNDIAL, Reg.FAULT_GUAR.HEARTBEAT, Reg.FAULT_LOST_CNT.COUNT, Reg.FAULT_CE_TOTAL.COUNT,
  Reg.FAULT_UE_TOTAL.COUNT, Reg.SCRUB_HBM_POS_LO.ADDR_LO, Reg.SCRUB_HBM_POS_HI.ADDR_HI, Reg.SCRUB_HBM_PASSES.COUNT]
/-- Named fields of fault, part 1. -/
def fieldsFault1 : List Fld := [
  Reg.SCRUB_SRAM_PASSES.COUNT, Reg.SCRUB_HBM_LAST.SECONDS, Reg.FAULT_LOG_DATA.DATA]
/-- Every named field of fault. -/
def fieldsFault : List Fld := fieldsFault0 ++ fieldsFault1

/-! ### Fields of security -/

/-- Table 19.7 (19), bits [31:31]. -/
def Reg.SEC_CTL.BUSY : Fld := ⟨0x0, 0, 1, 31, 31, .ro, 0⟩
/-- Table 19.7 (19), bits [9:8]. -/
def Reg.SEC_CTL.CTR : Fld := ⟨0x0, 0, 1, 9, 8, .pw, 0⟩
/-- Table 19.7 (19), bits [3:0]. -/
def Reg.SEC_CTL.CMD : Fld := ⟨0x0, 0, 1, 3, 0, .cmd, 0⟩
/-- Table 19.8 (19), bits [19:16]. -/
def Reg.SEC_STS.START_STEP : Fld := ⟨0x4, 0, 1, 19, 16, .ro, 0⟩
/-- Table 19.8 (19), bits [15:8]. -/
def Reg.SEC_STS.START_CAUSE : Fld := ⟨0x4, 0, 1, 15, 8, .ro, 0⟩
/-- Table 19.8 (19), bits [7:7]. -/
def Reg.SEC_STS.WDROP : Fld := ⟨0x4, 0, 1, 7, 7, .w1c, 0⟩
/-- Table 19.8 (19), bits [6:6]. -/
def Reg.SEC_STS.CMD_IGN : Fld := ⟨0x4, 0, 1, 6, 6, .w1c, 0⟩
/-- Table 19.8 (19), bits [5:5]. -/
def Reg.SEC_STS.ADV_ERR : Fld := ⟨0x4, 0, 1, 5, 5, .w1c, 0⟩
/-- Table 19.8 (19), bits [4:4]. -/
def Reg.SEC_STS.ADV_DONE : Fld := ⟨0x4, 0, 1, 4, 4, .w1c, 0⟩
/-- Table 19.8 (19), bits [3:3]. -/
def Reg.SEC_STS.HINT_BAD : Fld := ⟨0x4, 0, 1, 3, 3, .w1c, 0⟩
/-- Table 19.8 (19), bits [2:2]. -/
def Reg.SEC_STS.HINT_USED : Fld := ⟨0x4, 0, 1, 2, 2, .ro, 0⟩
/-- Table 19.8 (19), bits [1:1]. -/
def Reg.SEC_STS.IDENT_OK : Fld := ⟨0x4, 0, 1, 1, 1, .ro, 0⟩
/-- Table 19.8 (19), bits [0:0]. -/
def Reg.SEC_STS.OWNER_OK : Fld := ⟨0x4, 0, 1, 0, 0, .ro, 0⟩
/-- Table 19.9 (19), bits [31:0]. -/
def Reg.SEC_CTR_ARG.VALUE : Fld := ⟨0x8, 0, 1, 31, 0, .pw, 0⟩
/-- Table 19.9 (19), bits [31:0]. -/
def Reg.SEC_CTR.VALUE : Fld := ⟨0x10, 4, 4, 31, 0, .ro, 0⟩
/-- Table 19.9 (19), bits [15:1]. -/
def Reg.SEC_OWNER_SLOTS.SLOTS : Fld := ⟨0x20, 0, 1, 15, 1, .ro, 0⟩
/-- Table 19.9 (19), bits [15:0]. -/
def Reg.SEC_HBM_FAIL.STACKS : Fld := ⟨0x24, 0, 1, 15, 0, .ro, 0⟩
/-- Table 19.9 (19), bits [31:0]. -/
def Reg.SEC_HBM_BIN.BIN : Fld := ⟨0x28, 0, 1, 31, 0, .ro, 0⟩
/-- Table 19.9 (19), bits [31:0]. -/
def Reg.SEC_SERIAL_LO.SERIAL_LO : Fld := ⟨0x2c, 0, 1, 31, 0, .ro, 0⟩
/-- Table 19.9 (19), bits [31:0]. -/
def Reg.SEC_SERIAL_HI.SERIAL_HI : Fld := ⟨0x30, 0, 1, 31, 0, .ro, 0⟩
/-- Table 19.9 (19), bits [31:0]. -/
def Reg.START_T.US : Fld := ⟨0x40, 4, 10, 31, 0, .ro, 0⟩
/-- Table 19.9 (19), bits [31:0]. -/
def Reg.MEAS.DIGEST : Fld := ⟨0x120, 4, 48, 31, 0, .ro, 0⟩
/-- Named fields of security, part 0. -/
def fieldsSecurity0 : List Fld := [
  Reg.SEC_CTL.BUSY, Reg.SEC_CTL.CTR, Reg.SEC_CTL.CMD, Reg.SEC_STS.START_STEP,
  Reg.SEC_STS.START_CAUSE, Reg.SEC_STS.WDROP, Reg.SEC_STS.CMD_IGN, Reg.SEC_STS.ADV_ERR,
  Reg.SEC_STS.ADV_DONE, Reg.SEC_STS.HINT_BAD, Reg.SEC_STS.HINT_USED, Reg.SEC_STS.IDENT_OK,
  Reg.SEC_STS.OWNER_OK, Reg.SEC_CTR_ARG.VALUE, Reg.SEC_CTR.VALUE, Reg.SEC_OWNER_SLOTS.SLOTS,
  Reg.SEC_HBM_FAIL.STACKS, Reg.SEC_HBM_BIN.BIN, Reg.SEC_SERIAL_LO.SERIAL_LO, Reg.SEC_SERIAL_HI.SERIAL_HI,
  Reg.START_T.US, Reg.MEAS.DIGEST]
/-- Every named field of security. -/
def fieldsSecurity : List Fld := fieldsSecurity0

/-! ### Fields of queue -/

/-- Table 15.8 (15), bits [3:0]. -/
def Reg.QCTX_CMD.CMD : Fld := ⟨0x4, 0, 1, 3, 0, .cmd, 0⟩
/-- Table 15.9 (15), bits [23:16]. -/
def Reg.QUEUE_STS.REJ_CAUSE : Fld := ⟨0x8, 0, 1, 23, 16, .ro, 0⟩
/-- Table 15.9 (15), bits [4:4]. -/
def Reg.QUEUE_STS.VEC_OVER : Fld := ⟨0x8, 0, 1, 4, 4, .w1c, 0⟩
/-- Table 15.9 (15), bits [3:3]. -/
def Reg.QUEUE_STS.DB_DROP : Fld := ⟨0x8, 0, 1, 3, 3, .w1c, 0⟩
/-- Table 15.9 (15), bits [2:2]. -/
def Reg.QUEUE_STS.CTX_REJ : Fld := ⟨0x8, 0, 1, 2, 2, .w1c, 0⟩
/-- Table 15.9 (15), bits [1:1]. -/
def Reg.QUEUE_STS.CMD_IGN : Fld := ⟨0x8, 0, 1, 1, 1, .w1c, 0⟩
/-- Table 15.10 (15), bits [15:0]. -/
def Reg.QCTX_SEL.QID : Fld := ⟨0x0, 0, 1, 15, 0, .rw, 0⟩
/-- Table 15.10 (15), bits [31:0]. -/
def Reg.QCTX_DATA.DATA : Fld := ⟨0x40, 4, 16, 31, 0, .rw, 0⟩
/-- Table 15.10 (15), bits [31:31]. -/
def Reg.QUEUE_BED_VEC.EN : Fld := ⟨0x100, 4, 64, 31, 31, .rw, 0⟩
/-- Table 15.10 (15), bits [19:11]. -/
def Reg.QUEUE_BED_VEC.FUNC : Fld := ⟨0x100, 4, 64, 19, 11, .rw, 0⟩
/-- Table 15.10 (15), bits [10:0]. -/
def Reg.QUEUE_BED_VEC.VECTOR : Fld := ⟨0x100, 4, 64, 10, 0, .rw, 0⟩
/-- Table 15.10 (15), bits [11:0]. -/
def Reg.QUEUE_VF_VEC_0.COUNT : Fld := ⟨0x200, 0, 1, 11, 0, .rw, 64⟩
/-- Table 15.10 (15), bits [11:0]. -/
def Reg.QUEUE_VF_VEC_1.COUNT : Fld := ⟨0x204, 0, 1, 11, 0, .rw, 64⟩
/-- Table 15.10 (15), bits [16:0]. -/
def Reg.QUEUE_VEC_USED.COUNT : Fld := ⟨0x208, 0, 1, 16, 0, .ro, 4096⟩
/-- Table 15.10 (15), bits [31:0]. -/
def Reg.QUEUE_DB_DROP_CNT.COUNT : Fld := ⟨0x20c, 0, 1, 31, 0, .ro, 0⟩
/-- Table 15.10 (15), bits [3:0]. -/
def Reg.QUEUE_WIN_BASE_0.BASE : Fld := ⟨0x210, 0, 1, 3, 0, .rw, 0⟩
/-- Table 15.10 (15), bits [3:0]. -/
def Reg.QUEUE_WIN_BASE_1.BASE : Fld := ⟨0x214, 0, 1, 3, 0, .rw, 0⟩
/-- Table 15.10 (15), bits [0:0]. -/
def Reg.QUEUE_FW_CTL.FW_EN : Fld := ⟨0x218, 0, 1, 0, 0, .rw, 0⟩
/-- Table 15.10 (15), bits [31:0]. -/
def Reg.QUEUE_CMD_CNT.COUNT : Fld := ⟨0x21c, 0, 1, 31, 0, .ro, 0⟩
/-- Named fields of queue, part 0. -/
def fieldsQueue0 : List Fld := [
  Reg.QCTX_CMD.CMD, Reg.QUEUE_STS.REJ_CAUSE, Reg.QUEUE_STS.VEC_OVER, Reg.QUEUE_STS.DB_DROP,
  Reg.QUEUE_STS.CTX_REJ, Reg.QUEUE_STS.CMD_IGN, Reg.QCTX_SEL.QID, Reg.QCTX_DATA.DATA,
  Reg.QUEUE_BED_VEC.EN, Reg.QUEUE_BED_VEC.FUNC, Reg.QUEUE_BED_VEC.VECTOR, Reg.QUEUE_VF_VEC_0.COUNT,
  Reg.QUEUE_VF_VEC_1.COUNT, Reg.QUEUE_VEC_USED.COUNT, Reg.QUEUE_DB_DROP_CNT.COUNT, Reg.QUEUE_WIN_BASE_0.BASE,
  Reg.QUEUE_WIN_BASE_1.BASE, Reg.QUEUE_FW_CTL.FW_EN, Reg.QUEUE_CMD_CNT.COUNT]
/-- Every named field of queue. -/
def fieldsQueue : List Fld := fieldsQueue0

/-! ### Fields of obotil -/

/-- Table 14.10 (14), bits [31:31]. -/
def Reg.OB_CTL.BUSY : Fld := ⟨0x0, 0, 1, 31, 31, .ro, 0⟩
/-- Table 14.10 (14), bits [7:4]. -/
def Reg.OB_CTL.CMD : Fld := ⟨0x0, 0, 1, 7, 4, .cmd, 0⟩
/-- Table 14.10 (14), bits [1:1]. -/
def Reg.OB_CTL.X4_ALLOW : Fld := ⟨0x0, 0, 1, 1, 1, .pw, 1⟩
/-- Table 14.10 (14), bits [0:0]. -/
def Reg.OB_CTL.ENABLE : Fld := ⟨0x0, 0, 1, 0, 0, .pw, 0⟩
/-- Table 14.11 (14), bits [12:12]. -/
def Reg.OB_STS.CMD_IGN : Fld := ⟨0x4, 0, 1, 12, 12, .w1c, 0⟩
/-- Table 14.11 (14), bits [11:11]. -/
def Reg.OB_STS.WDROP : Fld := ⟨0x4, 0, 1, 11, 11, .w1c, 0⟩
/-- Table 14.11 (14), bits [10:10]. -/
def Reg.OB_STS.VIOL : Fld := ⟨0x4, 0, 1, 10, 10, .w1c, 0⟩
/-- Table 14.11 (14), bits [9:9]. -/
def Reg.OB_STS.RETRAIN : Fld := ⟨0x4, 0, 1, 9, 9, .w1c, 0⟩
/-- Table 14.11 (14), bits [8:8]. -/
def Reg.OB_STS.LINK_DOWN : Fld := ⟨0x4, 0, 1, 8, 8, .w1c, 0⟩
/-- Table 14.11 (14), bits [5:4]. -/
def Reg.OB_STS.WIDTH : Fld := ⟨0x4, 0, 1, 5, 4, .ro, 0⟩
/-- Table 14.11 (14), bits [2:0]. -/
def Reg.OB_STS.STATE : Fld := ⟨0x4, 0, 1, 2, 0, .ro, 0⟩
/-- Table 14.12 (14), bits [15:0]. -/
def Reg.OB_LINK_DELAY.DELAY : Fld := ⟨0x8, 0, 1, 15, 0, .ro, 0⟩
/-- Table 14.12 (14), bits [31:16]. -/
def Reg.OB_PEER.DEV : Fld := ⟨0xc, 0, 1, 31, 16, .ro, 0⟩
/-- Table 14.12 (14), bits [11:0]. -/
def Reg.OB_PEER.NODE : Fld := ⟨0xc, 0, 1, 11, 0, .ro, 0⟩
/-- Table 14.12 (14), bits [31:0]. -/
def Reg.OB_CE_CNT.COUNT : Fld := ⟨0x10, 0, 1, 31, 0, .ro, 0⟩
/-- Table 14.12 (14), bits [31:0]. -/
def Reg.OB_RETRY_CNT.COUNT : Fld := ⟨0x14, 0, 1, 31, 0, .ro, 0⟩
/-- Table 14.12 (14), bits [31:0]. -/
def Reg.OB_BAD_SHORT_CNT.COUNT : Fld := ⟨0x18, 0, 1, 31, 0, .ro, 0⟩
/-- Table 14.12 (14), bits [31:0]. -/
def Reg.OB_VIOL_MALFORMED.COUNT : Fld := ⟨0x1c, 0, 1, 31, 0, .ro, 0⟩
/-- Table 14.12 (14), bits [31:0]. -/
def Reg.OB_VIOL_CLASS.COUNT : Fld := ⟨0x20, 0, 1, 31, 0, .ro, 0⟩
/-- Table 14.12 (14), bits [31:0]. -/
def Reg.OB_VIOL_CREDIT.COUNT : Fld := ⟨0x24, 0, 1, 31, 0, .ro, 0⟩
/-- Table 14.12 (14), bits [31:0]. -/
def Reg.OB_VIOL_SEQ.COUNT : Fld := ⟨0x28, 0, 1, 31, 0, .ro, 0⟩
/-- Table 14.12 (14), bits [31:0]. -/
def Reg.OB_VIOL_OVERSIZE.COUNT : Fld := ⟨0x2c, 0, 1, 31, 0, .ro, 0⟩
/-- Table 14.12 (14), bits [31:0]. -/
def Reg.OB_VIOL_MISROUTE.COUNT : Fld := ⟨0x30, 0, 1, 31, 0, .ro, 0⟩
/-- Table 14.12 (14), bits [31:24]. -/
def Reg.OB_VIOL_LAST.CODE : Fld := ⟨0x34, 0, 1, 31, 24, .ro, 0⟩
/-- Table 14.12 (14), bits [11:0]. -/
def Reg.OB_VIOL_LAST.SEQ : Fld := ⟨0x34, 0, 1, 11, 0, .ro, 0⟩
/-- Table 14.12 (14), bits [31:0]. -/
def Reg.OB_TX_FLITS.COUNT : Fld := ⟨0x38, 0, 1, 31, 0, .ro, 0⟩
/-- Table 14.12 (14), bits [31:0]. -/
def Reg.OB_RX_FLITS.COUNT : Fld := ⟨0x3c, 0, 1, 31, 0, .ro, 0⟩
/-- Table 14.12 (14), bits [27:16]. -/
def Reg.OB_DEV_ID.NODE : Fld := ⟨0x100, 0, 1, 27, 16, .pw, 0⟩
/-- Table 14.12 (14), bits [15:0]. -/
def Reg.OB_DEV_ID.DEV : Fld := ⟨0x100, 0, 1, 15, 0, .pw, 0⟩
/-- Table 14.12 (14), bits [31:16]. -/
def Reg.OB_ROUTE_BASE_LO.BASE_LO : Fld := ⟨0x104, 0, 1, 31, 16, .pw, 0⟩
/-- Table 14.12 (14), bits [7:0]. -/
def Reg.OB_ROUTE_BASE_HI.BASE_HI : Fld := ⟨0x108, 0, 1, 7, 0, .pw, 0⟩
/-- Table 14.12 (14), bits [31:17]. -/
def Reg.OB_GATE_BASE_LO.BASE_LO : Fld := ⟨0x10c, 0, 1, 31, 17, .pw, 0⟩
/-- Table 14.12 (14), bits [7:0]. -/
def Reg.OB_GATE_BASE_HI.BASE_HI : Fld := ⟨0x110, 0, 1, 7, 0, .pw, 0⟩
/-- Table 14.12 (14), bits [27:16]. -/
def Reg.OB_GATE_CMD.GATE : Fld := ⟨0x114, 0, 1, 27, 16, .pw, 0⟩
/-- Table 14.12 (14), bits [3:0]. -/
def Reg.OB_GATE_CMD.CMD : Fld := ⟨0x114, 0, 1, 3, 0, .cmd, 0⟩
/-- Table 14.12 (14), bits [31:31]. -/
def Reg.OB_GATE_STS.CFG_BAD : Fld := ⟨0x118, 0, 1, 31, 31, .w1c, 0⟩
/-- Table 14.12 (14), bits [30:30]. -/
def Reg.OB_GATE_STS.CMD_IGN : Fld := ⟨0x118, 0, 1, 30, 30, .w1c, 0⟩
/-- Table 14.12 (14), bits [29:28]. -/
def Reg.OB_GATE_STS.STATE : Fld := ⟨0x118, 0, 1, 29, 28, .ro, 0⟩
/-- Table 14.12 (14), bits [27:16]. -/
def Reg.OB_GATE_STS.GATE : Fld := ⟨0x118, 0, 1, 27, 16, .ro, 0⟩
/-- Table 14.12 (14), bits [31:0]. -/
def Reg.OB_GATE_EPOCH.EPOCH : Fld := ⟨0x11c, 0, 1, 31, 0, .ro, 0⟩
/-- Table 14.12 (14), bits [31:0]. -/
def Reg.GATE_LATE_CNT.COUNT : Fld := ⟨0x120, 0, 1, 31, 0, .ro, 0⟩
/-- Table 14.12 (14), bits [31:0]. -/
def Reg.GATE_EARLY_CNT.COUNT : Fld := ⟨0x124, 0, 1, 31, 0, .ro, 0⟩
/-- Table 14.12 (14), bits [31:0]. -/
def Reg.GATE_PERM_CNT.COUNT : Fld := ⟨0x128, 0, 1, 31, 0, .ro, 0⟩
/-- Table 14.12 (14), bits [31:0]. -/
def Reg.GATE_RANGE_CNT.COUNT : Fld := ⟨0x12c, 0, 1, 31, 0, .ro, 0⟩
/-- Table 14.12 (14), bits [31:0]. -/
def Reg.GATE_NOGATE_CNT.COUNT : Fld := ⟨0x130, 0, 1, 31, 0, .ro, 0⟩
/-- Table 14.12 (14), bits [31:28]. -/
def Reg.OB_GATE_LAST.REASON : Fld := ⟨0x134, 0, 1, 31, 28, .ro, 0⟩
/-- Table 14.12 (14), bits [27:16]. -/
def Reg.OB_GATE_LAST.GATE : Fld := ⟨0x134, 0, 1, 27, 16, .ro, 0⟩
/-- Table 14.12 (14), bits [15:0]. -/
def Reg.OB_GATE_LAST.DEV : Fld := ⟨0x134, 0, 1, 15, 0, .ro, 0⟩
/-- Table 14.12 (14), bits [31:0]. -/
def Reg.OB_WEPOCH.EPOCH : Fld := ⟨0x300, 4, 64, 31, 0, .pw, 0⟩
/-- Table 14.12 (14), bits [4:4]. -/
def Reg.BAR_CFG.ENABLE : Fld := ⟨0x200, 16, 16, 4, 4, .pw, 0⟩
/-- Table 14.12 (14), bits [3:3]. -/
def Reg.BAR_CFG.LEADER : Fld := ⟨0x200, 16, 16, 3, 3, .pw, 0⟩
/-- Table 14.12 (14), bits [2:0]. -/
def Reg.BAR_CFG.PORT : Fld := ⟨0x200, 16, 16, 2, 0, .pw, 0⟩
/-- Table 14.12 (14), bits [31:0]. -/
def Reg.BAR_GEN.GEN : Fld := ⟨0x204, 16, 16, 31, 0, .ro, 0⟩
/-- Table 14.12 (14), bits [1:1]. -/
def Reg.BAR_STS.HELD : Fld := ⟨0x208, 16, 16, 1, 1, .ro, 0⟩
/-- Table 14.12 (14), bits [0:0]. -/
def Reg.BAR_STS.ACTIVE : Fld := ⟨0x208, 16, 16, 0, 0, .ro, 0⟩
/-- Table 14.12 (14), bits [31:0]. -/
def Reg.BAR_STALE.COUNT : Fld := ⟨0x20c, 16, 16, 31, 0, .ro, 0⟩
/-- Named fields of obotil, part 0. -/
def fieldsObotil0 : List Fld := [
  Reg.OB_CTL.BUSY, Reg.OB_CTL.CMD, Reg.OB_CTL.X4_ALLOW, Reg.OB_CTL.ENABLE,
  Reg.OB_STS.CMD_IGN, Reg.OB_STS.WDROP, Reg.OB_STS.VIOL, Reg.OB_STS.RETRAIN,
  Reg.OB_STS.LINK_DOWN, Reg.OB_STS.WIDTH, Reg.OB_STS.STATE, Reg.OB_LINK_DELAY.DELAY,
  Reg.OB_PEER.DEV, Reg.OB_PEER.NODE, Reg.OB_CE_CNT.COUNT, Reg.OB_RETRY_CNT.COUNT,
  Reg.OB_BAD_SHORT_CNT.COUNT, Reg.OB_VIOL_MALFORMED.COUNT, Reg.OB_VIOL_CLASS.COUNT, Reg.OB_VIOL_CREDIT.COUNT,
  Reg.OB_VIOL_SEQ.COUNT, Reg.OB_VIOL_OVERSIZE.COUNT, Reg.OB_VIOL_MISROUTE.COUNT, Reg.OB_VIOL_LAST.CODE]
/-- Named fields of obotil, part 1. -/
def fieldsObotil1 : List Fld := [
  Reg.OB_VIOL_LAST.SEQ, Reg.OB_TX_FLITS.COUNT, Reg.OB_RX_FLITS.COUNT, Reg.OB_DEV_ID.NODE,
  Reg.OB_DEV_ID.DEV, Reg.OB_ROUTE_BASE_LO.BASE_LO, Reg.OB_ROUTE_BASE_HI.BASE_HI, Reg.OB_GATE_BASE_LO.BASE_LO,
  Reg.OB_GATE_BASE_HI.BASE_HI, Reg.OB_GATE_CMD.GATE, Reg.OB_GATE_CMD.CMD, Reg.OB_GATE_STS.CFG_BAD,
  Reg.OB_GATE_STS.CMD_IGN, Reg.OB_GATE_STS.STATE, Reg.OB_GATE_STS.GATE, Reg.OB_GATE_EPOCH.EPOCH,
  Reg.GATE_LATE_CNT.COUNT, Reg.GATE_EARLY_CNT.COUNT, Reg.GATE_PERM_CNT.COUNT, Reg.GATE_RANGE_CNT.COUNT,
  Reg.GATE_NOGATE_CNT.COUNT, Reg.OB_GATE_LAST.REASON, Reg.OB_GATE_LAST.GATE, Reg.OB_GATE_LAST.DEV]
/-- Named fields of obotil, part 2. -/
def fieldsObotil2 : List Fld := [
  Reg.OB_WEPOCH.EPOCH, Reg.BAR_CFG.ENABLE, Reg.BAR_CFG.LEADER, Reg.BAR_CFG.PORT,
  Reg.BAR_GEN.GEN, Reg.BAR_STS.HELD, Reg.BAR_STS.ACTIVE, Reg.BAR_STALE.COUNT]
/-- Every named field of obotil. -/
def fieldsObotil : List Fld := fieldsObotil0 ++ fieldsObotil1 ++ fieldsObotil2

/-! ### Fields of trug -/

/-- Table 13.5 (13), bits [15:12]. -/
def Reg.TRUG_CTL.GROUP : Fld := ⟨0x0, 0, 1, 15, 12, .rw, 0⟩
/-- Table 13.5 (13), bits [3:0]. -/
def Reg.TRUG_CTL.CMD : Fld := ⟨0x0, 0, 1, 3, 0, .cmd, 0⟩
/-- Table 13.6 (13), bits [23:16]. -/
def Reg.TRUG_STS.CAUSE : Fld := ⟨0x4, 0, 1, 23, 16, .ro, 0⟩
/-- Table 13.6 (13), bits [15:15]. -/
def Reg.TRUG_STS.CMD_IGN : Fld := ⟨0x4, 0, 1, 15, 15, .w1c, 0⟩
/-- Table 13.6 (13), bits [14:14]. -/
def Reg.TRUG_STS.GRP_BAD : Fld := ⟨0x4, 0, 1, 14, 14, .w1c, 0⟩
/-- Table 13.6 (13), bits [13:13]. -/
def Reg.TRUG_STS.FOREIGN : Fld := ⟨0x4, 0, 1, 13, 13, .w1c, 0⟩
/-- Table 13.6 (13), bits [12:12]. -/
def Reg.TRUG_STS.STAGE_FULL : Fld := ⟨0x4, 0, 1, 12, 12, .w1c, 0⟩
/-- Table 13.6 (13), bits [11:11]. -/
def Reg.TRUG_STS.STEP_MIX : Fld := ⟨0x4, 0, 1, 11, 11, .w1c, 0⟩
/-- Table 13.6 (13), bits [10:10]. -/
def Reg.TRUG_STS.SIZE_MIX : Fld := ⟨0x4, 0, 1, 10, 10, .w1c, 0⟩
/-- Table 13.6 (13), bits [9:9]. -/
def Reg.TRUG_STS.REFUSED : Fld := ⟨0x4, 0, 1, 9, 9, .w1c, 0⟩
/-- Table 13.6 (13), bits [8:8]. -/
def Reg.TRUG_STS.FAULT : Fld := ⟨0x4, 0, 1, 8, 8, .w1c, 0⟩
/-- Table 13.7 (13), bits [31:21]. -/
def Reg.TRUG_STAGE_BASE_LO.BASE_LO : Fld := ⟨0x8, 0, 1, 31, 21, .rw, 0⟩
/-- Table 13.7 (13), bits [7:0]. -/
def Reg.TRUG_STAGE_BASE_HI.BASE_HI : Fld := ⟨0xc, 0, 1, 7, 0, .rw, 0⟩
/-- Table 13.7 (13), bits [15:0]. -/
def Reg.TRUG_STAGE_SIZE.SIZE : Fld := ⟨0x10, 0, 1, 15, 0, .rw, 0⟩
/-- Table 13.7 (13), bits [25:13]. -/
def Reg.TRUG_OPEN.OPEN1 : Fld := ⟨0x14, 0, 1, 25, 13, .ro, 0⟩
/-- Table 13.7 (13), bits [12:0]. -/
def Reg.TRUG_OPEN.OPEN0 : Fld := ⟨0x14, 0, 1, 12, 0, .ro, 0⟩
/-- Table 13.7 (13), bits [31:0]. -/
def Reg.TRUG_BUCKETS.COUNT : Fld := ⟨0x18, 0, 1, 31, 0, .ro, 0⟩
/-- Table 13.7 (13), bits [31:0]. -/
def Reg.TRUG_DROP_CNT.COUNT : Fld := ⟨0x1c, 0, 1, 31, 0, .ro, 0⟩
/-- Table 13.7 (13), bits [31:0]. -/
def Reg.TRUG_FOREIGN_CNT.COUNT : Fld := ⟨0x20, 0, 1, 31, 0, .ro, 0⟩
/-- Table 13.7 (13), bits [31:31]. -/
def Reg.TRUG_MIX_MEMBER.VALID : Fld := ⟨0x24, 0, 1, 31, 31, .ro, 0⟩
/-- Table 13.7 (13), bits [14:0]. -/
def Reg.TRUG_MIX_MEMBER.MEMBER : Fld := ⟨0x24, 0, 1, 14, 0, .ro, 0⟩
/-- Table 13.7 (13), bits [31:0]. -/
def Reg.TRUG_MIX_STEP.STEP : Fld := ⟨0x28, 0, 1, 31, 0, .ro, 0⟩
/-- Table 13.7 (13), bits [0:0]. -/
def Reg.TRUG_GRP_CTL.VALID : Fld := ⟨0x100, 32, 16, 0, 0, .rw, 0⟩
/-- Table 13.7 (13), bits [31:0]. -/
def Reg.TRUG_GRP_BASE_LO.BASE_LO : Fld := ⟨0x104, 32, 16, 31, 0, .rw, 0⟩
/-- Table 13.7 (13), bits [7:0]. -/
def Reg.TRUG_GRP_BASE_HI.BASE_HI : Fld := ⟨0x108, 32, 16, 7, 0, .rw, 0⟩
/-- Table 13.7 (13), bits [15:0]. -/
def Reg.TRUG_GRP_COUNT.COUNT : Fld := ⟨0x10c, 32, 16, 15, 0, .rw, 0⟩
/-- Table 13.7 (13), bits [31:0]. -/
def Reg.TRUG_GRP_EPOCH.EPOCH : Fld := ⟨0x110, 32, 16, 31, 0, .rw, 0⟩
/-- Table 13.7 (13), bits [15:15]. -/
def Reg.TRUG_GRP_SELF.VALID : Fld := ⟨0x114, 32, 16, 15, 15, .ro, 0⟩
/-- Table 13.7 (13), bits [14:0]. -/
def Reg.TRUG_GRP_SELF.MEMBER : Fld := ⟨0x114, 32, 16, 14, 0, .ro, 0⟩
/-- Named fields of trug, part 0. -/
def fieldsTrug0 : List Fld := [
  Reg.TRUG_CTL.GROUP, Reg.TRUG_CTL.CMD, Reg.TRUG_STS.CAUSE, Reg.TRUG_STS.CMD_IGN,
  Reg.TRUG_STS.GRP_BAD, Reg.TRUG_STS.FOREIGN, Reg.TRUG_STS.STAGE_FULL, Reg.TRUG_STS.STEP_MIX,
  Reg.TRUG_STS.SIZE_MIX, Reg.TRUG_STS.REFUSED, Reg.TRUG_STS.FAULT, Reg.TRUG_STAGE_BASE_LO.BASE_LO,
  Reg.TRUG_STAGE_BASE_HI.BASE_HI, Reg.TRUG_STAGE_SIZE.SIZE, Reg.TRUG_OPEN.OPEN1, Reg.TRUG_OPEN.OPEN0,
  Reg.TRUG_BUCKETS.COUNT, Reg.TRUG_DROP_CNT.COUNT, Reg.TRUG_FOREIGN_CNT.COUNT, Reg.TRUG_MIX_MEMBER.VALID,
  Reg.TRUG_MIX_MEMBER.MEMBER, Reg.TRUG_MIX_STEP.STEP, Reg.TRUG_GRP_CTL.VALID, Reg.TRUG_GRP_BASE_LO.BASE_LO]
/-- Named fields of trug, part 1. -/
def fieldsTrug1 : List Fld := [
  Reg.TRUG_GRP_BASE_HI.BASE_HI, Reg.TRUG_GRP_COUNT.COUNT, Reg.TRUG_GRP_EPOCH.EPOCH, Reg.TRUG_GRP_SELF.VALID,
  Reg.TRUG_GRP_SELF.MEMBER]
/-- Every named field of trug. -/
def fieldsTrug : List Fld := fieldsTrug0 ++ fieldsTrug1

/-! ### Fields of dieCtl -/

/-- Table 1.9 (01), bits [31:31]. -/
def Reg.DIE_CTL.BUSY : Fld := ⟨0x0, 0, 1, 31, 31, .ro, 0⟩
/-- Table 1.10 (01), bits [4:4]. -/
def Reg.DIE_ID.ROW : Fld := ⟨0x4, 0, 1, 4, 4, .ro, 0⟩
/-- Table 1.10 (01), bits [2:0]. -/
def Reg.DIE_ID.DIE : Fld := ⟨0x4, 0, 1, 2, 0, .ro, 0⟩
/-- Table 1.10 (01), bits [9:0]. -/
def Reg.DIE_TEMP.TEMP : Fld := ⟨0x8, 4, 4, 9, 0, .ro, 0⟩
/-- Table 1.10 (01), bits [15:0]. -/
def Reg.DIE_POWER.WATTS : Fld := ⟨0x18, 0, 1, 15, 0, .ro, 0⟩
/-- Table 16.6 (16), bits [31:0]. -/
def Reg.DIE_WEPOCH.EPOCH : Fld := ⟨0x100, 0, 1, 31, 0, .ro, 0⟩
/-- Table 16.6 (16), bits [3:3]. -/
def Reg.DIE_WARDEN_STS.WDROP : Fld := ⟨0x104, 0, 1, 3, 3, .w1c, 0⟩
/-- Table 16.6 (16), bits [2:2]. -/
def Reg.DIE_WARDEN_STS.STALE : Fld := ⟨0x104, 0, 1, 2, 2, .w1c, 0⟩
/-- Table 16.6 (16), bits [1:1]. -/
def Reg.DIE_WARDEN_STS.COAST : Fld := ⟨0x104, 0, 1, 1, 1, .w1c, 0⟩
/-- Table 16.6 (16), bits [0:0]. -/
def Reg.DIE_WARDEN_STS.LODGE : Fld := ⟨0x104, 0, 1, 0, 0, .ro, 0⟩
/-- Table 16.6 (16), bits [31:0]. -/
def Reg.DIE_STALE_CNT.COUNT : Fld := ⟨0x108, 0, 1, 31, 0, .ro, 0⟩
/-- Named fields of dieCtl, part 0. -/
def fieldsDieCtl0 : List Fld := [
  Reg.DIE_CTL.BUSY, Reg.DIE_ID.ROW, Reg.DIE_ID.DIE, Reg.DIE_TEMP.TEMP,
  Reg.DIE_POWER.WATTS, Reg.DIE_WEPOCH.EPOCH, Reg.DIE_WARDEN_STS.WDROP, Reg.DIE_WARDEN_STS.STALE,
  Reg.DIE_WARDEN_STS.COAST, Reg.DIE_WARDEN_STS.LODGE, Reg.DIE_STALE_CNT.COUNT]
/-- Every named field of dieCtl. -/
def fieldsDieCtl : List Fld := fieldsDieCtl0

/-! ### Fields of lattice -/

/-- Table 1.11 (01), bits [2:2]. -/
def Reg.LAT_STS.HDR_DROP : Fld := ⟨0x0, 0, 1, 2, 2, .w1c, 0⟩
/-- Table 1.11 (01), bits [1:1]. -/
def Reg.LAT_STS.UE : Fld := ⟨0x0, 0, 1, 1, 1, .w1c, 0⟩
/-- Table 1.11 (01), bits [0:0]. -/
def Reg.LAT_STS.CE : Fld := ⟨0x0, 0, 1, 0, 0, .w1c, 0⟩
/-- Table 1.11 (01), bits [31:0]. -/
def Reg.LAT_CE_CNT.COUNT : Fld := ⟨0x4, 0, 1, 31, 0, .ro, 0⟩
/-- Table 1.11 (01), bits [31:0]. -/
def Reg.LAT_UE_CNT.COUNT : Fld := ⟨0x8, 0, 1, 31, 0, .ro, 0⟩
/-- Table 1.11 (01), bits [31:0]. -/
def Reg.LAT_HDR_DROP_CNT.COUNT : Fld := ⟨0xc, 0, 1, 31, 0, .ro, 0⟩
/-- Table 1.11 (01), bits [31:0]. -/
def Reg.LAT_XING_WAIT.CYCLES : Fld := ⟨0x10, 0, 1, 31, 0, .ro, 0⟩
/-- Named fields of lattice, part 0. -/
def fieldsLattice0 : List Fld := [
  Reg.LAT_STS.HDR_DROP, Reg.LAT_STS.UE, Reg.LAT_STS.CE, Reg.LAT_CE_CNT.COUNT,
  Reg.LAT_UE_CNT.COUNT, Reg.LAT_HDR_DROP_CNT.COUNT, Reg.LAT_XING_WAIT.CYCLES]
/-- Every named field of lattice. -/
def fieldsLattice : List Fld := fieldsLattice0

/-! ### Fields of hbmCtl -/

/-- Table 19.10 (19), bits [31:31]. -/
def Reg.HBM_CTL.BUSY : Fld := ⟨0x0, 0, 1, 31, 31, .ro, 0⟩
/-- Table 19.10 (19), bits [5:4]. -/
def Reg.HBM_CTL.BIN : Fld := ⟨0x0, 0, 1, 5, 4, .pw, 0⟩
/-- Table 19.11 (19), bits [15:15]. -/
def Reg.HBM_STS.WDROP : Fld := ⟨0x4, 0, 1, 15, 15, .w1c, 0⟩
/-- Table 19.11 (19), bits [14:14]. -/
def Reg.HBM_STS.CMD_IGN : Fld := ⟨0x4, 0, 1, 14, 14, .w1c, 0⟩
/-- Table 19.11 (19), bits [13:13]. -/
def Reg.HBM_STS.UE : Fld := ⟨0x4, 0, 1, 13, 13, .w1c, 0⟩
/-- Table 19.11 (19), bits [12:12]. -/
def Reg.HBM_STS.CE : Fld := ⟨0x4, 0, 1, 12, 12, .w1c, 0⟩
/-- Table 19.11 (19), bits [11:8]. -/
def Reg.HBM_STS.TRAIN_STEP : Fld := ⟨0x4, 0, 1, 11, 8, .ro, 0⟩
/-- Table 19.11 (19), bits [7:6]. -/
def Reg.HBM_STS.BIN_ACT : Fld := ⟨0x4, 0, 1, 7, 6, .ro, 0⟩
/-- Table 19.11 (19), bits [2:0]. -/
def Reg.HBM_STS.STATE : Fld := ⟨0x4, 0, 1, 2, 0, .ro, 0⟩
/-- Table 19.12 (19), bits [23:16]. -/
def Reg.HBM_TRAIN.ATTEMPTS : Fld := ⟨0x8, 0, 1, 23, 16, .ro, 0⟩
/-- Table 19.12 (19), bits [11:8]. -/
def Reg.HBM_TRAIN.FAIL_STEP : Fld := ⟨0x8, 0, 1, 11, 8, .ro, 0⟩
/-- Table 19.12 (19), bits [7:0]. -/
def Reg.HBM_TRAIN.FAIL_CAUSE : Fld := ⟨0x8, 0, 1, 7, 0, .ro, 0⟩
/-- Table 19.12 (19), bits [31:0]. -/
def Reg.HBM_TRAIN_US.US : Fld := ⟨0xc, 0, 1, 31, 0, .ro, 0⟩
/-- Table 19.12 (19), bits [31:0]. -/
def Reg.HBM_ROW_REPAIR.COUNT : Fld := ⟨0x10, 0, 1, 31, 0, .ro, 0⟩
/-- Table 19.12 (19), bits [31:0]. -/
def Reg.HBM_CE_CNT.COUNT : Fld := ⟨0x14, 0, 1, 31, 0, .ro, 0⟩
/-- Table 19.12 (19), bits [31:0]. -/
def Reg.HBM_UE_CNT.COUNT : Fld := ⟨0x18, 0, 1, 31, 0, .ro, 0⟩
/-- Table 19.12 (19), bits [9:0]. -/
def Reg.HBM_TEMP.TEMP : Fld := ⟨0x1c, 0, 1, 9, 0, .ro, 0⟩
/-- Named fields of hbmCtl, part 0. -/
def fieldsHbmCtl0 : List Fld := [
  Reg.HBM_CTL.BUSY, Reg.HBM_CTL.BIN, Reg.HBM_STS.WDROP, Reg.HBM_STS.CMD_IGN,
  Reg.HBM_STS.UE, Reg.HBM_STS.CE, Reg.HBM_STS.TRAIN_STEP, Reg.HBM_STS.BIN_ACT,
  Reg.HBM_STS.STATE, Reg.HBM_TRAIN.ATTEMPTS, Reg.HBM_TRAIN.FAIL_STEP, Reg.HBM_TRAIN.FAIL_CAUSE,
  Reg.HBM_TRAIN_US.US, Reg.HBM_ROW_REPAIR.COUNT, Reg.HBM_CE_CNT.COUNT, Reg.HBM_UE_CNT.COUNT,
  Reg.HBM_TEMP.TEMP]
/-- Every named field of hbmCtl. -/
def fieldsHbmCtl : List Fld := fieldsHbmCtl0

/-! ### Fields of shed -/

/-- Table 2.9 (02), bits [0:0]. -/
def Reg.SHED_STS.MIRROR_WR : Fld := ⟨0x0, 0, 1, 0, 0, .w1c, 0⟩
/-- Table 2.9 (02), bits [15:0]. -/
def Reg.BED_PC.PC : Fld := ⟨0x108, 32, 32, 15, 0, .ro, 0⟩
/-- Table 2.9 (02), bits [31:0]. -/
def Reg.BED_OVR_CNT.COUNT : Fld := ⟨0x10c, 32, 32, 31, 0, .ro, 0⟩
/-- Table 2.9 (02), bits [31:0]. -/
def Reg.BED_WIN_CNT.COUNT : Fld := ⟨0x110, 32, 32, 31, 0, .ro, 0⟩
/-- Table 2.9 (02), bits [23:0]. -/
def Reg.BED_SLACK.SLACK : Fld := ⟨0x114, 32, 32, 23, 0, .ro, 0⟩
/-- Table 2.10 (02), bits [21:16]. -/
def Reg.BED_CTL.BED_ID : Fld := ⟨0x100, 32, 32, 21, 16, .ro, 0⟩
/-- Table 2.10 (02), bits [15:12]. -/
def Reg.BED_CTL.SLIP_LIMIT : Fld := ⟨0x100, 32, 32, 15, 12, .rw, 4⟩
/-- Table 2.10 (02), bits [8:8]. -/
def Reg.BED_CTL.POLICY : Fld := ⟨0x100, 32, 32, 8, 8, .rw, 0⟩
/-- Table 2.10 (02), bits [0:0]. -/
def Reg.BED_CTL.RUN : Fld := ⟨0x100, 32, 32, 0, 0, .rw, 0⟩
/-- Table 2.11 (02), bits [15:12]. -/
def Reg.BED_STS.HALT_CAUSE : Fld := ⟨0x104, 32, 32, 15, 12, .ro, 0⟩
/-- Table 2.11 (02), bits [9:9]. -/
def Reg.BED_STS.HAZARD_TIMEOUT : Fld := ⟨0x104, 32, 32, 9, 9, .w1c, 0⟩
/-- Table 2.11 (02), bits [8:8]. -/
def Reg.BED_STS.OVERRUN : Fld := ⟨0x104, 32, 32, 8, 8, .w1c, 0⟩
/-- Table 2.11 (02), bits [2:0]. -/
def Reg.BED_STS.STATE : Fld := ⟨0x104, 32, 32, 2, 0, .ro, 0⟩
/-- Named fields of shed, part 0. -/
def fieldsShed0 : List Fld := [
  Reg.SHED_STS.MIRROR_WR, Reg.BED_PC.PC, Reg.BED_OVR_CNT.COUNT, Reg.BED_WIN_CNT.COUNT,
  Reg.BED_SLACK.SLACK, Reg.BED_CTL.BED_ID, Reg.BED_CTL.SLIP_LIMIT, Reg.BED_CTL.POLICY,
  Reg.BED_CTL.RUN, Reg.BED_STS.HALT_CAUSE, Reg.BED_STS.HAZARD_TIMEOUT, Reg.BED_STS.OVERRUN,
  Reg.BED_STS.STATE]
/-- Every named field of shed. -/
def fieldsShed : List Fld := fieldsShed0

/-! ### Fields of mower -/

/-- Table 12.5 (12), bits [3:0]. -/
def Reg.MOW_CTL.CMD : Fld := ⟨0x0, 0, 1, 3, 0, .cmd, 0⟩
/-- Table 12.6 (12), bits [23:16]. -/
def Reg.MOW_STS.CAUSE : Fld := ⟨0x4, 0, 1, 23, 16, .ro, 0⟩
/-- Table 12.6 (12), bits [15:15]. -/
def Reg.MOW_STS.CMD_IGN : Fld := ⟨0x4, 0, 1, 15, 15, .w1c, 0⟩
/-- Table 12.6 (12), bits [14:14]. -/
def Reg.MOW_STS.MIRROR_WR : Fld := ⟨0x4, 0, 1, 14, 14, .w1c, 0⟩
/-- Table 12.6 (12), bits [13:13]. -/
def Reg.MOW_STS.STEP_SKEW : Fld := ⟨0x4, 0, 1, 13, 13, .w1c, 0⟩
/-- Table 12.6 (12), bits [12:12]. -/
def Reg.MOW_STS.NONFINITE : Fld := ⟨0x4, 0, 1, 12, 12, .w1c, 0⟩
/-- Table 12.6 (12), bits [11:11]. -/
def Reg.MOW_STS.REFUSED : Fld := ⟨0x4, 0, 1, 11, 11, .w1c, 0⟩
/-- Table 12.6 (12), bits [10:10]. -/
def Reg.MOW_STS.FAULT : Fld := ⟨0x4, 0, 1, 10, 10, .w1c, 0⟩
/-- Table 12.6 (12), bits [9:8]. -/
def Reg.MOW_STS.OUTCOME : Fld := ⟨0x4, 0, 1, 9, 8, .ro, 0⟩
/-- Table 12.6 (12), bits [7:3]. -/
def Reg.MOW_STS.PENDING : Fld := ⟨0x4, 0, 1, 7, 3, .ro, 0⟩
/-- Table 12.6 (12), bits [2:0]. -/
def Reg.MOW_STS.STATE : Fld := ⟨0x4, 0, 1, 2, 0, .ro, 0⟩
/-- Table 12.7 (12), bits [31:0]. -/
def Reg.MOW_STEP.STEP : Fld := ⟨0x8, 0, 1, 31, 0, .rw, 0⟩
/-- Table 12.7 (12), bits [31:31]. -/
def Reg.MOW_SKEW.VALID : Fld := ⟨0xc, 0, 1, 31, 31, .ro, 0⟩
/-- Table 12.7 (12), bits [30:29]. -/
def Reg.MOW_SKEW.REASON : Fld := ⟨0xc, 0, 1, 30, 29, .ro, 0⟩
/-- Table 12.7 (12), bits [9:0]. -/
def Reg.MOW_SKEW.TAG : Fld := ⟨0xc, 0, 1, 9, 0, .ro, 0⟩
/-- Table 12.7 (12), bits [31:0]. -/
def Reg.MOW_SKEW_STEP.STEP : Fld := ⟨0x10, 0, 1, 31, 0, .ro, 0⟩
/-- Table 12.7 (12), bits [31:0]. -/
def Reg.MOW_CLIP_LO.T : Fld := ⟨0x14, 0, 1, 31, 0, .rw, 0⟩
/-- Table 12.7 (12), bits [31:0]. -/
def Reg.MOW_CLIP_HI.T : Fld := ⟨0x18, 0, 1, 31, 0, .rw, 0⟩
/-- Table 12.7 (12), bits [31:0]. -/
def Reg.MOW_NORM_LO.NORM : Fld := ⟨0x1c, 0, 1, 31, 0, .ro, 0⟩
/-- Table 12.7 (12), bits [31:0]. -/
def Reg.MOW_NORM_HI.NORM : Fld := ⟨0x20, 0, 1, 31, 0, .ro, 0⟩
/-- Table 12.7 (12), bits [31:0]. -/
def Reg.MOW_C_LO.C : Fld := ⟨0x24, 0, 1, 31, 0, .ro, 0⟩
/-- Table 12.7 (12), bits [31:0]. -/
def Reg.MOW_C_HI.C : Fld := ⟨0x28, 0, 1, 31, 0, .ro, 0⟩
/-- Table 12.7 (12), bits [31:0]. -/
def Reg.MOW_K_LO.K : Fld := ⟨0x2c, 0, 1, 31, 0, .ro, 0⟩
/-- Table 12.7 (12), bits [31:0]. -/
def Reg.MOW_K_HI.K : Fld := ⟨0x30, 0, 1, 31, 0, .ro, 0⟩
/-- Table 12.7 (12), bits [31:0]. -/
def Reg.MOW_BLOCKS.COUNT : Fld := ⟨0x34, 0, 1, 31, 0, .ro, 0⟩
/-- Table 12.7 (12), bits [31:0]. -/
def Reg.MOW_UPD_CNT.COUNT : Fld := ⟨0x38, 0, 1, 31, 0, .ro, 0⟩
/-- Table 12.7 (12), bits [31:0]. -/
def Reg.MOW_SUPP_CNT.COUNT : Fld := ⟨0x3c, 0, 1, 31, 0, .ro, 0⟩
/-- Table 12.7 (12), bits [11:8]. -/
def Reg.ALM_CFG.MULT : Fld := ⟨0x100, 0, 1, 11, 8, .rw, 1⟩
/-- Table 12.7 (12), bits [4:4]. -/
def Reg.ALM_CFG.CLIP_EN : Fld := ⟨0x100, 0, 1, 4, 4, .rw, 0⟩
/-- Table 12.7 (12), bits [2:0]. -/
def Reg.ALM_CFG.DECAY : Fld := ⟨0x100, 0, 1, 2, 0, .rw, 0⟩
/-- Table 12.7 (12), bits [31:0]. -/
def Reg.ALM_WARMUP.STEPS : Fld := ⟨0x104, 0, 1, 31, 0, .rw, 0⟩
/-- Table 12.7 (12), bits [31:0]. -/
def Reg.ALM_DECAY_STEPS.STEPS : Fld := ⟨0x108, 0, 1, 31, 0, .rw, 0⟩
/-- Table 12.7 (12), bits [31:0]. -/
def Reg.ALM_PERIOD.STEPS : Fld := ⟨0x10c, 0, 1, 31, 0, .rw, 0⟩
/-- Table 12.7 (12), bits [31:0]. -/
def Reg.ALM_STEP_INT.STEPS : Fld := ⟨0x110, 0, 1, 31, 0, .rw, 1⟩
/-- Table 12.7 (12), bits [31:0]. -/
def Reg.ALM_ETA_INIT_LO.ETA_INIT : Fld := ⟨0x114, 0, 1, 31, 0, .rw, 0⟩
/-- Table 12.7 (12), bits [31:0]. -/
def Reg.ALM_ETA_INIT_HI.ETA_INIT : Fld := ⟨0x118, 0, 1, 31, 0, .rw, 0⟩
/-- Table 12.7 (12), bits [31:0]. -/
def Reg.ALM_ETA_PEAK_LO.ETA_PEAK : Fld := ⟨0x11c, 0, 1, 31, 0, .rw, 0⟩
/-- Table 12.7 (12), bits [31:0]. -/
def Reg.ALM_ETA_PEAK_HI.ETA_PEAK : Fld := ⟨0x120, 0, 1, 31, 0, .rw, 0⟩
/-- Table 12.7 (12), bits [31:0]. -/
def Reg.ALM_ETA_MIN_LO.ETA_MIN : Fld := ⟨0x124, 0, 1, 31, 0, .rw, 0⟩
/-- Table 12.7 (12), bits [31:0]. -/
def Reg.ALM_ETA_MIN_HI.ETA_MIN : Fld := ⟨0x128, 0, 1, 31, 0, .rw, 0⟩
/-- Table 12.7 (12), bits [31:0]. -/
def Reg.ALM_GAMMA_LO.GAMMA : Fld := ⟨0x12c, 0, 1, 31, 0, .rw, 0⟩
/-- Table 12.7 (12), bits [31:0]. -/
def Reg.ALM_GAMMA_HI.GAMMA : Fld := ⟨0x130, 0, 1, 31, 0, .rw, 1072693248⟩
/-- Table 12.7 (12), bits [31:0]. -/
def Reg.ALM_ETA_LO.ETA : Fld := ⟨0x134, 0, 1, 31, 0, .ro, 0⟩
/-- Table 12.7 (12), bits [31:0]. -/
def Reg.ALM_ETA_HI.ETA : Fld := ⟨0x138, 0, 1, 31, 0, .ro, 0⟩
/-- Named fields of mower, part 0. -/
def fieldsMower0 : List Fld := [
  Reg.MOW_CTL.CMD, Reg.MOW_STS.CAUSE, Reg.MOW_STS.CMD_IGN, Reg.MOW_STS.MIRROR_WR,
  Reg.MOW_STS.STEP_SKEW, Reg.MOW_STS.NONFINITE, Reg.MOW_STS.REFUSED, Reg.MOW_STS.FAULT,
  Reg.MOW_STS.OUTCOME, Reg.MOW_STS.PENDING, Reg.MOW_STS.STATE, Reg.MOW_STEP.STEP,
  Reg.MOW_SKEW.VALID, Reg.MOW_SKEW.REASON, Reg.MOW_SKEW.TAG, Reg.MOW_SKEW_STEP.STEP,
  Reg.MOW_CLIP_LO.T, Reg.MOW_CLIP_HI.T, Reg.MOW_NORM_LO.NORM, Reg.MOW_NORM_HI.NORM,
  Reg.MOW_C_LO.C, Reg.MOW_C_HI.C, Reg.MOW_K_LO.K, Reg.MOW_K_HI.K]
/-- Named fields of mower, part 1. -/
def fieldsMower1 : List Fld := [
  Reg.MOW_BLOCKS.COUNT, Reg.MOW_UPD_CNT.COUNT, Reg.MOW_SUPP_CNT.COUNT, Reg.ALM_CFG.MULT,
  Reg.ALM_CFG.CLIP_EN, Reg.ALM_CFG.DECAY, Reg.ALM_WARMUP.STEPS, Reg.ALM_DECAY_STEPS.STEPS,
  Reg.ALM_PERIOD.STEPS, Reg.ALM_STEP_INT.STEPS, Reg.ALM_ETA_INIT_LO.ETA_INIT, Reg.ALM_ETA_INIT_HI.ETA_INIT,
  Reg.ALM_ETA_PEAK_LO.ETA_PEAK, Reg.ALM_ETA_PEAK_HI.ETA_PEAK, Reg.ALM_ETA_MIN_LO.ETA_MIN, Reg.ALM_ETA_MIN_HI.ETA_MIN,
  Reg.ALM_GAMMA_LO.GAMMA, Reg.ALM_GAMMA_HI.GAMMA, Reg.ALM_ETA_LO.ETA, Reg.ALM_ETA_HI.ETA]
/-- Every named field of mower. -/
def fieldsMower : List Fld := fieldsMower0 ++ fieldsMower1

/-! ### Fields of gh -/

/-- Table 9.11 (09), bits [15:8]. -/
def Reg.GH_STS.UE_BANK : Fld := ⟨0x0, 0, 1, 15, 8, .w1c, 0⟩
/-- Table 9.11 (09), bits [7:0]. -/
def Reg.GH_STS.CE_BANK : Fld := ⟨0x0, 0, 1, 7, 0, .w1c, 0⟩
/-- Table 9.11 (09), bits [31:0]. -/
def Reg.GH_CE_CNT.COUNT : Fld := ⟨0x4, 0, 1, 31, 0, .ro, 0⟩
/-- Table 9.11 (09), bits [31:0]. -/
def Reg.GH_UE_CNT.COUNT : Fld := ⟨0x8, 0, 1, 31, 0, .ro, 0⟩
/-- Table 9.11 (09), bits [31:31]. -/
def Reg.GH_ERR_ADDR.VALID : Fld := ⟨0xc, 0, 1, 31, 31, .ro, 0⟩
/-- Table 9.11 (09), bits [25:3]. -/
def Reg.GH_ERR_ADDR.WORD : Fld := ⟨0xc, 0, 1, 25, 3, .ro, 0⟩
/-- Table 9.11 (09), bits [31:0]. -/
def Reg.GH_REFUSED_CNT.COUNT : Fld := ⟨0x10, 0, 1, 31, 0, .ro, 0⟩
/-- Named fields of gh, part 0. -/
def fieldsGh0 : List Fld := [
  Reg.GH_STS.UE_BANK, Reg.GH_STS.CE_BANK, Reg.GH_CE_CNT.COUNT, Reg.GH_UE_CNT.COUNT,
  Reg.GH_ERR_ADDR.VALID, Reg.GH_ERR_ADDR.WORD, Reg.GH_REFUSED_CNT.COUNT]
/-- Every named field of gh. -/
def fieldsGh : List Fld := fieldsGh0

/-! ### Fields of rill -/

/-- Table 10.11 (10), bits [3:0]. -/
def Reg.RILL_CTL.CMD : Fld := ⟨0x0, 0, 1, 3, 0, .cmd, 0⟩
/-- Table 10.12 (10), bits [23:16]. -/
def Reg.RILL_STS.CAUSE : Fld := ⟨0x4, 0, 1, 23, 16, .ro, 0⟩
/-- Table 10.12 (10), bits [15:15]. -/
def Reg.RILL_STS.CMD_IGN : Fld := ⟨0x4, 0, 1, 15, 15, .w1c, 0⟩
/-- Table 10.12 (10), bits [14:14]. -/
def Reg.RILL_STS.QWAIT_HAZ : Fld := ⟨0x4, 0, 1, 14, 14, .w1c, 0⟩
/-- Table 10.12 (10), bits [13:13]. -/
def Reg.RILL_STS.DRY_MISS : Fld := ⟨0x4, 0, 1, 13, 13, .w1c, 0⟩
/-- Table 10.12 (10), bits [12:12]. -/
def Reg.RILL_STS.CANCEL_DONE : Fld := ⟨0x4, 0, 1, 12, 12, .w1c, 0⟩
/-- Table 10.12 (10), bits [11:11]. -/
def Reg.RILL_STS.UNRECOV : Fld := ⟨0x4, 0, 1, 11, 11, .w1c, 0⟩
/-- Table 10.12 (10), bits [10:10]. -/
def Reg.RILL_STS.FAULT : Fld := ⟨0x4, 0, 1, 10, 10, .w1c, 0⟩
/-- Table 10.12 (10), bits [9:9]. -/
def Reg.RILL_STS.REFUSED : Fld := ⟨0x4, 0, 1, 9, 9, .w1c, 0⟩
/-- Table 10.12 (10), bits [8:4]. -/
def Reg.RILL_STS.PENDING : Fld := ⟨0x4, 0, 1, 8, 4, .ro, 0⟩
/-- Table 10.12 (10), bits [2:0]. -/
def Reg.RILL_STS.STATE : Fld := ⟨0x4, 0, 1, 2, 0, .ro, 0⟩
/-- Table 10.13 (10), bits [31:0]. -/
def Reg.RILL_CURSOR.INDEX : Fld := ⟨0x8, 4, 5, 31, 0, .ro, 0⟩
/-- Table 10.13 (10), bits [31:0]. -/
def Reg.RILL_FAULT_LO.ADDR_LO : Fld := ⟨0x1c, 0, 1, 31, 0, .ro, 0⟩
/-- Table 10.13 (10), bits [31:0]. -/
def Reg.RILL_FAULT_HI.ADDR_HI : Fld := ⟨0x20, 0, 1, 31, 0, .ro, 0⟩
/-- Table 10.13 (10), bits [31:31]. -/
def Reg.RILL_FAULT_INFO.VALID : Fld := ⟨0x24, 0, 1, 31, 31, .ro, 0⟩
/-- Table 10.13 (10), bits [23:22]. -/
def Reg.RILL_FAULT_INFO.SPACE : Fld := ⟨0x24, 0, 1, 23, 22, .ro, 0⟩
/-- Table 10.13 (10), bits [21:21]. -/
def Reg.RILL_FAULT_INFO.WRITE : Fld := ⟨0x24, 0, 1, 21, 21, .ro, 0⟩
/-- Table 10.13 (10), bits [20:20]. -/
def Reg.RILL_FAULT_INFO.PASID_EN : Fld := ⟨0x24, 0, 1, 20, 20, .ro, 0⟩
/-- Table 10.13 (10), bits [19:0]. -/
def Reg.RILL_FAULT_INFO.PASID : Fld := ⟨0x24, 0, 1, 19, 0, .ro, 0⟩
/-- Table 10.13 (10), bits [31:12]. -/
def Reg.RILL_VT_BASE_LO.BASE_LO : Fld := ⟨0x28, 0, 1, 31, 12, .rw, 0⟩
/-- Table 10.13 (10), bits [0:0]. -/
def Reg.RILL_VT_BASE_LO.EN : Fld := ⟨0x28, 0, 1, 0, 0, .rw, 0⟩
/-- Table 10.13 (10), bits [7:0]. -/
def Reg.RILL_VT_BASE_HI.BASE_HI : Fld := ⟨0x2c, 0, 1, 7, 0, .rw, 0⟩
/-- Table 10.13 (10), bits [31:0]. -/
def Reg.RILL_BYTES_LO.BYTES_LO : Fld := ⟨0x30, 0, 1, 31, 0, .ro, 0⟩
/-- Table 10.13 (10), bits [31:0]. -/
def Reg.RILL_BYTES_HI.BYTES_HI : Fld := ⟨0x34, 0, 1, 31, 0, .ro, 0⟩
/-- Table 10.13 (10), bits [31:0]. -/
def Reg.RILL_BARROWS.COUNT : Fld := ⟨0x38, 0, 1, 31, 0, .ro, 0⟩
/-- Table 10.13 (10), bits [31:0]. -/
def Reg.RILL_DRY_MISS.COUNT : Fld := ⟨0x3c, 0, 1, 31, 0, .ro, 0⟩
/-- Table 10.13 (10), bits [31:0]. -/
def Reg.RILL_CANCEL_LAT.LAT_NS : Fld := ⟨0x40, 0, 1, 31, 0, .ro, 0⟩
/-- Named fields of rill, part 0. -/
def fieldsRill0 : List Fld := [
  Reg.RILL_CTL.CMD, Reg.RILL_STS.CAUSE, Reg.RILL_STS.CMD_IGN, Reg.RILL_STS.QWAIT_HAZ,
  Reg.RILL_STS.DRY_MISS, Reg.RILL_STS.CANCEL_DONE, Reg.RILL_STS.UNRECOV, Reg.RILL_STS.FAULT,
  Reg.RILL_STS.REFUSED, Reg.RILL_STS.PENDING, Reg.RILL_STS.STATE, Reg.RILL_CURSOR.INDEX,
  Reg.RILL_FAULT_LO.ADDR_LO, Reg.RILL_FAULT_HI.ADDR_HI, Reg.RILL_FAULT_INFO.VALID, Reg.RILL_FAULT_INFO.SPACE,
  Reg.RILL_FAULT_INFO.WRITE, Reg.RILL_FAULT_INFO.PASID_EN, Reg.RILL_FAULT_INFO.PASID, Reg.RILL_VT_BASE_LO.BASE_LO,
  Reg.RILL_VT_BASE_LO.EN, Reg.RILL_VT_BASE_HI.BASE_HI, Reg.RILL_BYTES_LO.BYTES_LO, Reg.RILL_BYTES_HI.BYTES_HI]
/-- Named fields of rill, part 1. -/
def fieldsRill1 : List Fld := [
  Reg.RILL_BARROWS.COUNT, Reg.RILL_DRY_MISS.COUNT, Reg.RILL_CANCEL_LAT.LAT_NS]
/-- Every named field of rill. -/
def fieldsRill : List Fld := fieldsRill0 ++ fieldsRill1

/-! ### Fields of sieve -/

/-- Table 11.7 (11), bits [4:4]. -/
def Reg.SIEVE_CTL.ZGUARD : Fld := ⟨0x0, 0, 1, 4, 4, .rw, 1⟩
/-- Table 11.7 (11), bits [3:0]. -/
def Reg.SIEVE_CTL.CMD : Fld := ⟨0x0, 0, 1, 3, 0, .cmd, 0⟩
/-- Table 11.8 (11), bits [23:16]. -/
def Reg.SIEVE_STS.CAUSE : Fld := ⟨0x4, 0, 1, 23, 16, .ro, 0⟩
/-- Table 11.8 (11), bits [15:15]. -/
def Reg.SIEVE_STS.CMD_IGN : Fld := ⟨0x4, 0, 1, 15, 15, .w1c, 0⟩
/-- Table 11.8 (11), bits [14:14]. -/
def Reg.SIEVE_STS.TRAY_UE : Fld := ⟨0x4, 0, 1, 14, 14, .w1c, 0⟩
/-- Table 11.8 (11), bits [13:13]. -/
def Reg.SIEVE_STS.TRAY_CE : Fld := ⟨0x4, 0, 1, 13, 13, .w1c, 0⟩
/-- Table 11.8 (11), bits [12:12]. -/
def Reg.SIEVE_STS.GUARD : Fld := ⟨0x4, 0, 1, 12, 12, .w1c, 0⟩
/-- Table 11.8 (11), bits [11:11]. -/
def Reg.SIEVE_STS.REFUSED : Fld := ⟨0x4, 0, 1, 11, 11, .w1c, 0⟩
/-- Table 11.8 (11), bits [10:10]. -/
def Reg.SIEVE_STS.FAULT : Fld := ⟨0x4, 0, 1, 10, 10, .w1c, 0⟩
/-- Table 11.8 (11), bits [9:5]. -/
def Reg.SIEVE_STS.PENDING : Fld := ⟨0x4, 0, 1, 9, 5, .ro, 0⟩
/-- Table 11.8 (11), bits [2:0]. -/
def Reg.SIEVE_STS.STATE : Fld := ⟨0x4, 0, 1, 2, 0, .ro, 0⟩
/-- Table 11.9 (11), bits [31:0]. -/
def Reg.SIEVE_ROWS.COUNT : Fld := ⟨0x8, 0, 1, 31, 0, .ro, 0⟩
/-- Table 11.9 (11), bits [31:0]. -/
def Reg.SIEVE_BUSY.CYCLES : Fld := ⟨0xc, 0, 1, 31, 0, .ro, 0⟩
/-- Table 11.9 (11), bits [31:0]. -/
def Reg.SIEVE_GUARD_CNT.COUNT : Fld := ⟨0x10, 0, 1, 31, 0, .ro, 0⟩
/-- Table 11.9 (11), bits [31:0]. -/
def Reg.SIEVE_TRAY_CE_CNT.COUNT : Fld := ⟨0x14, 0, 1, 31, 0, .ro, 0⟩
/-- Table 11.9 (11), bits [31:0]. -/
def Reg.SIEVE_TRAY_UE_CNT.COUNT : Fld := ⟨0x18, 0, 1, 31, 0, .ro, 0⟩
/-- Table 11.9 (11), bits [31:31]. -/
def Reg.SIEVE_TRAY_ERR.VALID : Fld := ⟨0x1c, 0, 1, 31, 31, .ro, 0⟩
/-- Table 11.9 (11), bits [17:0]. -/
def Reg.SIEVE_TRAY_ERR.ENTRY : Fld := ⟨0x1c, 0, 1, 17, 0, .ro, 0⟩
/-- Table 11.9 (11), bits [17:0]. -/
def Reg.SIEVE_TRAY_IDX.ENTRY : Fld := ⟨0x20, 0, 1, 17, 0, .rw, 0⟩
/-- Table 11.9 (11), bits [31:0]. -/
def Reg.SIEVE_TRAY_A.A : Fld := ⟨0x24, 0, 1, 31, 0, .rw, 0⟩
/-- Table 11.9 (11), bits [31:0]. -/
def Reg.SIEVE_TRAY_B.B : Fld := ⟨0x28, 0, 1, 31, 0, .rw, 0⟩
/-- Named fields of sieve, part 0. -/
def fieldsSieve0 : List Fld := [
  Reg.SIEVE_CTL.ZGUARD, Reg.SIEVE_CTL.CMD, Reg.SIEVE_STS.CAUSE, Reg.SIEVE_STS.CMD_IGN,
  Reg.SIEVE_STS.TRAY_UE, Reg.SIEVE_STS.TRAY_CE, Reg.SIEVE_STS.GUARD, Reg.SIEVE_STS.REFUSED,
  Reg.SIEVE_STS.FAULT, Reg.SIEVE_STS.PENDING, Reg.SIEVE_STS.STATE, Reg.SIEVE_ROWS.COUNT,
  Reg.SIEVE_BUSY.CYCLES, Reg.SIEVE_GUARD_CNT.COUNT, Reg.SIEVE_TRAY_CE_CNT.COUNT, Reg.SIEVE_TRAY_UE_CNT.COUNT,
  Reg.SIEVE_TRAY_ERR.VALID, Reg.SIEVE_TRAY_ERR.ENTRY, Reg.SIEVE_TRAY_IDX.ENTRY, Reg.SIEVE_TRAY_A.A,
  Reg.SIEVE_TRAY_B.B]
/-- Every named field of sieve. -/
def fieldsSieve : List Fld := fieldsSieve0

/-! ### Fields of plot -/

/-- Table 7.9 (07), bits [15:12]. -/
def Reg.PLOT_CTL.REPLAY_LIMIT : Fld := ⟨0x0, 0, 1, 15, 12, .rw, 2⟩
/-- Table 7.9 (07), bits [11:8]. -/
def Reg.PLOT_CTL.CMD : Fld := ⟨0x0, 0, 1, 11, 8, .cmd, 0⟩
/-- Table 7.9 (07), bits [4:0]. -/
def Reg.PLOT_CTL.SPILL_FUR : Fld := ⟨0x0, 0, 1, 4, 0, .rw, 0⟩
/-- Table 7.10 (07), bits [23:16]. -/
def Reg.PLOT_STS.CAUSE : Fld := ⟨0x4, 0, 1, 23, 16, .ro, 0⟩
/-- Table 7.10 (07), bits [15:15]. -/
def Reg.PLOT_STS.CMD_IGN : Fld := ⟨0x4, 0, 1, 15, 15, .w1c, 0⟩
/-- Table 7.10 (07), bits [14:14]. -/
def Reg.PLOT_STS.SPILL_SHORT : Fld := ⟨0x4, 0, 1, 14, 14, .w1c, 0⟩
/-- Table 7.10 (07), bits [13:13]. -/
def Reg.PLOT_STS.LANE_DET : Fld := ⟨0x4, 0, 1, 13, 13, .w1c, 0⟩
/-- Table 7.10 (07), bits [12:12]. -/
def Reg.PLOT_STS.ABANDON : Fld := ⟨0x4, 0, 1, 12, 12, .w1c, 0⟩
/-- Table 7.10 (07), bits [11:11]. -/
def Reg.PLOT_STS.REFUSED : Fld := ⟨0x4, 0, 1, 11, 11, .w1c, 0⟩
/-- Table 7.10 (07), bits [8:8]. -/
def Reg.PLOT_STS.ACC_VALID : Fld := ⟨0x4, 0, 1, 8, 8, .ro, 0⟩
/-- Table 7.10 (07), bits [7:7]. -/
def Reg.PLOT_STS.SHADOW_VALID : Fld := ⟨0x4, 0, 1, 7, 7, .ro, 0⟩
/-- Table 7.10 (07), bits [6:6]. -/
def Reg.PLOT_STS.LIVE_VALID : Fld := ⟨0x4, 0, 1, 6, 6, .ro, 0⟩
/-- Table 7.10 (07), bits [5:5]. -/
def Reg.PLOT_STS.DEGRADED : Fld := ⟨0x4, 0, 1, 5, 5, .ro, 0⟩
/-- Table 7.10 (07), bits [4:4]. -/
def Reg.PLOT_STS.FAILED : Fld := ⟨0x4, 0, 1, 4, 4, .ro, 0⟩
/-- Table 7.10 (07), bits [3:3]. -/
def Reg.PLOT_STS.LANE_OFF : Fld := ⟨0x4, 0, 1, 3, 3, .ro, 0⟩
/-- Table 7.10 (07), bits [2:0]. -/
def Reg.PLOT_STS.STATE : Fld := ⟨0x4, 0, 1, 2, 0, .ro, 0⟩
/-- Table 7.11 (07), bits [31:31]. -/
def Reg.PLOT_MAP.MAPPED : Fld := ⟨0x8, 0, 1, 31, 31, .ro, 0⟩
/-- Table 7.11 (07), bits [21:16]. -/
def Reg.PLOT_MAP.BED : Fld := ⟨0x8, 0, 1, 21, 16, .ro, 0⟩
/-- Table 7.11 (07), bits [8:0]. -/
def Reg.PLOT_MAP.LPLOT : Fld := ⟨0x8, 0, 1, 8, 0, .ro, 0⟩
/-- Table 7.11 (07), bits [1:1]. -/
def Reg.PLOT_REPAIR.BYP_WEST : Fld := ⟨0xc, 0, 1, 1, 1, .ro, 0⟩
/-- Table 7.11 (07), bits [0:0]. -/
def Reg.PLOT_REPAIR.BYP_EAST : Fld := ⟨0xc, 0, 1, 0, 0, .ro, 0⟩
/-- Table 7.11 (07), bits [31:0]. -/
def Reg.PLOT_PASS_CNT.COUNT : Fld := ⟨0x10, 0, 1, 31, 0, .ro, 0⟩
/-- Table 7.11 (07), bits [31:0]. -/
def Reg.PLOT_ABANDON_CNT.COUNT : Fld := ⟨0x14, 0, 1, 31, 0, .ro, 0⟩
/-- Table 7.11 (07), bits [31:0]. -/
def Reg.PLOT_LANE_CNT.COUNT : Fld := ⟨0x18, 0, 1, 31, 0, .ro, 0⟩
/-- Table 7.11 (07), bits [31:0]. -/
def Reg.PLOT_LOAD_STALL.CYCLES : Fld := ⟨0x1c, 0, 1, 31, 0, .ro, 0⟩
/-- Table 7.11 (07), bits [31:20]. -/
def Reg.PLOT_LANE_LOC.VECTOR : Fld := ⟨0x20, 0, 1, 31, 20, .ro, 0⟩
/-- Table 7.11 (07), bits [19:16]. -/
def Reg.PLOT_LANE_LOC.ROW : Fld := ⟨0x20, 0, 1, 19, 16, .ro, 0⟩
/-- Table 7.11 (07), bits [13:8]. -/
def Reg.PLOT_LANE_LOC.COL : Fld := ⟨0x20, 0, 1, 13, 8, .ro, 0⟩
/-- Table 7.11 (07), bits [2:0]. -/
def Reg.PLOT_LANE_LOC.GROUP : Fld := ⟨0x20, 0, 1, 2, 0, .ro, 0⟩
/-- Table 7.11 (07), bits [4:0]. -/
def Reg.PLOT_PENDING.COUNT : Fld := ⟨0x24, 0, 1, 4, 0, .ro, 0⟩
/-- Table 8.5 (08), bits [31:31]. -/
def Reg.PLOT_RING.ENTRY0 : Fld := ⟨0x40, 0, 1, 31, 31, .ro, 0⟩
/-- Table 8.5 (08), bits [30:30]. -/
def Reg.PLOT_RING.ENTRY1 : Fld := ⟨0x40, 0, 1, 30, 30, .ro, 0⟩
/-- Table 8.5 (08), bits [29:29]. -/
def Reg.PLOT_RING.END0 : Fld := ⟨0x40, 0, 1, 29, 29, .ro, 0⟩
/-- Table 8.5 (08), bits [28:28]. -/
def Reg.PLOT_RING.END1 : Fld := ⟨0x40, 0, 1, 28, 28, .ro, 0⟩
/-- Table 8.5 (08), bits [17:9]. -/
def Reg.PLOT_RING.PRED : Fld := ⟨0x40, 0, 1, 17, 9, .ro, 0⟩
/-- Table 8.5 (08), bits [8:0]. -/
def Reg.PLOT_RING.SUCC : Fld := ⟨0x40, 0, 1, 8, 0, .ro, 0⟩
/-- Table 8.5 (08), bits [31:0]. -/
def Reg.PLOT_FWD_CNT.COUNT : Fld := ⟨0x44, 0, 1, 31, 0, .ro, 0⟩
/-- Table 8.5 (08), bits [31:0]. -/
def Reg.PLOT_FWD_HOLD.CYCLES : Fld := ⟨0x48, 0, 1, 31, 0, .ro, 0⟩
/-- Table 8.5 (08), bits [31:0]. -/
def Reg.PLOT_NBR_WAIT.CYCLES : Fld := ⟨0x4c, 0, 1, 31, 0, .ro, 0⟩
/-- Table 8.5 (08), bits [31:31]. -/
def Reg.PLOT_TSTILE.ACTIVE0 : Fld := ⟨0x50, 0, 1, 31, 31, .ro, 0⟩
/-- Table 8.5 (08), bits [30:30]. -/
def Reg.PLOT_TSTILE.ACTIVE1 : Fld := ⟨0x50, 0, 1, 30, 30, .ro, 0⟩
/-- Table 8.5 (08), bits [7:4]. -/
def Reg.PLOT_TSTILE.RILL1 : Fld := ⟨0x50, 0, 1, 7, 4, .ro, 0⟩
/-- Table 8.5 (08), bits [3:0]. -/
def Reg.PLOT_TSTILE.RILL0 : Fld := ⟨0x50, 0, 1, 3, 0, .ro, 0⟩
/-- Table 8.5 (08), bits [31:0]. -/
def Reg.PLOT_TSTILE_BLK.COUNT : Fld := ⟨0x54, 0, 1, 31, 0, .ro, 0⟩
/-- Table 9.7 (09), bits [15:15]. -/
def Reg.BENCH_STS.CTL_ERR : Fld := ⟨0x100, 0, 1, 15, 15, .w1c, 0⟩
/-- Table 9.7 (09), bits [14:14]. -/
def Reg.BENCH_STS.UE : Fld := ⟨0x100, 0, 1, 14, 14, .w1c, 0⟩
/-- Table 9.7 (09), bits [13:13]. -/
def Reg.BENCH_STS.CE : Fld := ⟨0x100, 0, 1, 13, 13, .w1c, 0⟩
/-- Table 9.7 (09), bits [12:12]. -/
def Reg.BENCH_STS.FUR_CFG_BAD : Fld := ⟨0x100, 0, 1, 12, 12, .w1c, 0⟩
/-- Table 9.7 (09), bits [11:11]. -/
def Reg.BENCH_STS.FUR_WR_IGN : Fld := ⟨0x100, 0, 1, 11, 11, .w1c, 0⟩
/-- Table 9.7 (09), bits [10:10]. -/
def Reg.BENCH_STS.HAZ : Fld := ⟨0x100, 0, 1, 10, 10, .w1c, 0⟩
/-- Table 9.7 (09), bits [9:8]. -/
def Reg.BENCH_STS.HAZ_KIND : Fld := ⟨0x100, 0, 1, 9, 8, .ro, 0⟩
/-- Table 9.7 (09), bits [7:5]. -/
def Reg.BENCH_STS.HAZ_PORT : Fld := ⟨0x100, 0, 1, 7, 5, .ro, 0⟩
/-- Table 9.7 (09), bits [4:0]. -/
def Reg.BENCH_STS.HAZ_FUR : Fld := ⟨0x100, 0, 1, 4, 0, .ro, 0⟩
/-- Table 9.8 (09), bits [31:0]. -/
def Reg.BENCH_RD_STALL.CYCLES : Fld := ⟨0x104, 0, 1, 31, 0, .ro, 0⟩
/-- Table 9.8 (09), bits [31:0]. -/
def Reg.BENCH_WR_STALL.CYCLES : Fld := ⟨0x108, 0, 1, 31, 0, .ro, 0⟩
/-- Table 9.8 (09), bits [31:0]. -/
def Reg.BENCH_BANK_WAIT.CYCLES : Fld := ⟨0x10c, 0, 1, 31, 0, .ro, 0⟩
/-- Table 9.8 (09), bits [31:0]. -/
def Reg.BENCH_CE_CNT.COUNT : Fld := ⟨0x110, 0, 1, 31, 0, .ro, 0⟩
/-- Table 9.8 (09), bits [31:0]. -/
def Reg.BENCH_UE_CNT.COUNT : Fld := ⟨0x114, 0, 1, 31, 0, .ro, 0⟩
/-- Table 9.8 (09), bits [31:31]. -/
def Reg.BENCH_ERR_ADDR.VALID : Fld := ⟨0x118, 0, 1, 31, 31, .ro, 0⟩
/-- Table 9.8 (09), bits [18:3]. -/
def Reg.BENCH_ERR_ADDR.WORD : Fld := ⟨0x118, 0, 1, 18, 3, .ro, 0⟩
/-- Table 9.8 (09), bits [31:0]. -/
def Reg.BENCH_RETRY_CNT.COUNT : Fld := ⟨0x11c, 0, 1, 31, 0, .ro, 0⟩
/-- Table 9.9 (09), bits [28:16]. -/
def Reg.FUR_CFG.SIZE : Fld := ⟨0x200, 32, 32, 28, 16, .rw, 0⟩
/-- Table 9.9 (09), bits [12:0]. -/
def Reg.FUR_CFG.BASE : Fld := ⟨0x200, 32, 32, 12, 0, .rw, 0⟩
/-- Table 9.10 (09), bits [19:19]. -/
def Reg.FUR_HEAD.WRAP : Fld := ⟨0x204, 32, 32, 19, 19, .ro, 0⟩
/-- Table 9.10 (09), bits [18:0]. -/
def Reg.FUR_HEAD.OFFSET : Fld := ⟨0x204, 32, 32, 18, 0, .ro, 0⟩
/-- Table 9.10 (09), bits [19:19]. -/
def Reg.FUR_READ.WRAP : Fld := ⟨0x208, 32, 32, 19, 19, .ro, 0⟩
/-- Table 9.10 (09), bits [18:0]. -/
def Reg.FUR_READ.OFFSET : Fld := ⟨0x208, 32, 32, 18, 0, .ro, 0⟩
/-- Table 9.10 (09), bits [19:19]. -/
def Reg.FUR_TAIL.WRAP : Fld := ⟨0x20c, 32, 32, 19, 19, .ro, 0⟩
/-- Table 9.10 (09), bits [18:0]. -/
def Reg.FUR_TAIL.OFFSET : Fld := ⟨0x20c, 32, 32, 18, 0, .ro, 0⟩
/-- Table 9.10 (09), bits [19:19]. -/
def Reg.FUR_FILL.WRAP : Fld := ⟨0x210, 32, 32, 19, 19, .ro, 0⟩
/-- Table 9.10 (09), bits [18:0]. -/
def Reg.FUR_FILL.OFFSET : Fld := ⟨0x210, 32, 32, 18, 0, .ro, 0⟩
/-- Table 9.10 (09), bits [3:0]. -/
def Reg.FUR_CTL.CMD : Fld := ⟨0x214, 32, 32, 3, 0, .cmd, 0⟩
/-- Table 9.10 (09), bits [3:3]. -/
def Reg.FUR_STS.HAZ_W : Fld := ⟨0x218, 32, 32, 3, 3, .w1c, 0⟩
/-- Table 9.10 (09), bits [2:2]. -/
def Reg.FUR_STS.HAZ_R : Fld := ⟨0x218, 32, 32, 2, 2, .w1c, 0⟩
/-- Table 9.10 (09), bits [1:1]. -/
def Reg.FUR_STS.FULL : Fld := ⟨0x218, 32, 32, 1, 1, .ro, 0⟩
/-- Table 9.10 (09), bits [0:0]. -/
def Reg.FUR_STS.EMPTY : Fld := ⟨0x218, 32, 32, 0, 0, .ro, 1⟩
/-- Named fields of plot, part 0. -/
def fieldsPlot0 : List Fld := [
  Reg.PLOT_CTL.REPLAY_LIMIT, Reg.PLOT_CTL.CMD, Reg.PLOT_CTL.SPILL_FUR, Reg.PLOT_STS.CAUSE,
  Reg.PLOT_STS.CMD_IGN, Reg.PLOT_STS.SPILL_SHORT, Reg.PLOT_STS.LANE_DET, Reg.PLOT_STS.ABANDON,
  Reg.PLOT_STS.REFUSED, Reg.PLOT_STS.ACC_VALID, Reg.PLOT_STS.SHADOW_VALID, Reg.PLOT_STS.LIVE_VALID,
  Reg.PLOT_STS.DEGRADED, Reg.PLOT_STS.FAILED, Reg.PLOT_STS.LANE_OFF, Reg.PLOT_STS.STATE,
  Reg.PLOT_MAP.MAPPED, Reg.PLOT_MAP.BED, Reg.PLOT_MAP.LPLOT, Reg.PLOT_REPAIR.BYP_WEST,
  Reg.PLOT_REPAIR.BYP_EAST, Reg.PLOT_PASS_CNT.COUNT, Reg.PLOT_ABANDON_CNT.COUNT, Reg.PLOT_LANE_CNT.COUNT]
/-- Named fields of plot, part 1. -/
def fieldsPlot1 : List Fld := [
  Reg.PLOT_LOAD_STALL.CYCLES, Reg.PLOT_LANE_LOC.VECTOR, Reg.PLOT_LANE_LOC.ROW, Reg.PLOT_LANE_LOC.COL,
  Reg.PLOT_LANE_LOC.GROUP, Reg.PLOT_PENDING.COUNT, Reg.PLOT_RING.ENTRY0, Reg.PLOT_RING.ENTRY1,
  Reg.PLOT_RING.END0, Reg.PLOT_RING.END1, Reg.PLOT_RING.PRED, Reg.PLOT_RING.SUCC,
  Reg.PLOT_FWD_CNT.COUNT, Reg.PLOT_FWD_HOLD.CYCLES, Reg.PLOT_NBR_WAIT.CYCLES, Reg.PLOT_TSTILE.ACTIVE0,
  Reg.PLOT_TSTILE.ACTIVE1, Reg.PLOT_TSTILE.RILL1, Reg.PLOT_TSTILE.RILL0, Reg.PLOT_TSTILE_BLK.COUNT,
  Reg.BENCH_STS.CTL_ERR, Reg.BENCH_STS.UE, Reg.BENCH_STS.CE, Reg.BENCH_STS.FUR_CFG_BAD]
/-- Named fields of plot, part 2. -/
def fieldsPlot2 : List Fld := [
  Reg.BENCH_STS.FUR_WR_IGN, Reg.BENCH_STS.HAZ, Reg.BENCH_STS.HAZ_KIND, Reg.BENCH_STS.HAZ_PORT,
  Reg.BENCH_STS.HAZ_FUR, Reg.BENCH_RD_STALL.CYCLES, Reg.BENCH_WR_STALL.CYCLES, Reg.BENCH_BANK_WAIT.CYCLES,
  Reg.BENCH_CE_CNT.COUNT, Reg.BENCH_UE_CNT.COUNT, Reg.BENCH_ERR_ADDR.VALID, Reg.BENCH_ERR_ADDR.WORD,
  Reg.BENCH_RETRY_CNT.COUNT, Reg.FUR_CFG.SIZE, Reg.FUR_CFG.BASE, Reg.FUR_HEAD.WRAP,
  Reg.FUR_HEAD.OFFSET, Reg.FUR_READ.WRAP, Reg.FUR_READ.OFFSET, Reg.FUR_TAIL.WRAP,
  Reg.FUR_TAIL.OFFSET, Reg.FUR_FILL.WRAP, Reg.FUR_FILL.OFFSET, Reg.FUR_CTL.CMD]
/-- Named fields of plot, part 3. -/
def fieldsPlot3 : List Fld := [
  Reg.FUR_STS.HAZ_W, Reg.FUR_STS.HAZ_R, Reg.FUR_STS.FULL, Reg.FUR_STS.EMPTY]
/-- Every named field of plot. -/
def fieldsPlot : List Fld := fieldsPlot0 ++ fieldsPlot1 ++ fieldsPlot2 ++ fieldsPlot3

/-- The named fields of a block. -/
def Blk.fields : Blk → List Fld
  | .lodgeCtl _ => fieldsLodgeCtl
  | .warden _ => fieldsWarden
  | .clock _ => fieldsClock
  | .chime => fieldsChime
  | .trellis => fieldsTrellis
  | .power => fieldsPower
  | .fault => fieldsFault
  | .security _ => fieldsSecurity
  | .queue => fieldsQueue
  | .obotil n => if n = 0 then fieldsObotil else fieldsObotil.filter (fun f => decide (f.off < 0x100))
  | .trug => fieldsTrug
  | .dieCtl _ => fieldsDieCtl
  | .lattice _ => fieldsLattice
  | .hbmCtl _ _ => fieldsHbmCtl
  | .shed _ => fieldsShed
  | .mower _ => fieldsMower
  | .gh _ => fieldsGh
  | .rill _ _ => fieldsRill
  | .sieve _ _ => fieldsSieve
  | .plot _ _ => fieldsPlot

/-- The start of a block's base alias in BAR0 (Tables 4.7 and 4.8); an instance that belongs to lodge 1 stands at
its peer-window address, which no block of lodge 0 uses. -/
def Blk.base : Blk → Nat
  | .lodgeCtl l => l * 0x400000
  | .warden l => l * 0x400000 + 0x10000
  | .clock l => l * 0x400000 + 0x20000
  | .chime => 0x30000
  | .trellis => 0x40000
  | .power => 0x50000
  | .fault => 0x60000
  | .security l => l * 0x400000 + 0x70000
  | .queue => 0x80000
  | .obotil n => 0x100000 + n * 0x10000
  | .trug => 0x180000
  | .dieCtl d => 0x1000000 + d * 0x800000
  | .lattice d => 0x1000000 + d * 0x800000 + 0x10000
  | .hbmCtl d k => 0x1000000 + d * 0x800000 + 0x20000 + k * 0x10000
  | .shed d => 0x1000000 + d * 0x800000 + 0x40000
  | .mower d => 0x1000000 + d * 0x800000 + 0x50000
  | .gh d => 0x1000000 + d * 0x800000 + 0x60000
  | .rill d e => 0x1000000 + d * 0x800000 + 0x100000 + e * 0x10000
  | .sieve d s => 0x1000000 + d * 0x800000 + 0x200000 + s * 0x10000
  | .plot d p => 0x1000000 + d * 0x800000 + 0x300000 + p * 0x10000

/-- The block of the parterre die `d` whose window holds the die-window offset `o` (Table 4.8). -/
def Blk.ofDieWindow (d o : Nat) : Option Blk :=
  let w := o / 0x10000
  if w = 0 then some (.dieCtl d)
  else if w = 1 then some (.lattice d)
  else if w = 2 then some (.hbmCtl d 0)
  else if w = 3 then some (.hbmCtl d 1)
  else if w = 4 then some (.shed d)
  else if w = 5 then some (.mower d)
  else if w = 6 then some (.gh d)
  else if 0x10 ≤ w ∧ w < 0x20 then some (.rill d (w - 0x10))
  else if 0x20 ≤ w ∧ w < 0x24 then some (.sieve d (w - 0x20))
  else if 0x30 ≤ w ∧ w < 0x74 then some (.plot d (w - 0x30))
  else none

/-- The block that the BAR0 offset `a` reaches when accessed through lodge `l` (R105, R111, R112, R113), and
whether it is reached through the peer window. -/
def Blk.ofBar0 (l a : Nat) : Option (Blk × Bool) :=
  let w := a / 0x10000
  if w = 0 then some (.lodgeCtl l, false)
  else if w = 1 then some (.warden l, false)
  else if w = 2 then some (.clock l, false)
  else if w = 3 then some (.chime, false)
  else if w = 4 then some (.trellis, false)
  else if w = 5 then some (.power, false)
  else if w = 6 then some (.fault, false)
  else if w = 7 then some (.security l, false)
  else if w = 8 then some (.queue, false)
  else if 0x10 ≤ w ∧ w < 0x18 then some (.obotil (w - 0x10), false)
  else if w = 0x18 then some (.trug, false)
  else if w = 0x40 then some (.lodgeCtl (1 - l), true)
  else if w = 0x41 then some (.warden (1 - l), true)
  else if w = 0x42 then some (.clock (1 - l), true)
  else if w = 0x47 then some (.security (1 - l), true)
  else if 0x100 ≤ w ∧ w < 0x500 then
    (Blk.ofDieWindow ((w - 0x100) / 0x80) (a % 0x800000)).map (fun b => (b, false))
  else none

/-- The block whose base alias holds the canonical register address `a`. -/
def Blk.ofAddr (a : Nat) : Option Blk :=
  let w := a / 0x10000
  if w = 0x40 then some (.lodgeCtl 1)
  else if w = 0x41 then some (.warden 1)
  else if w = 0x42 then some (.clock 1)
  else if w = 0x47 then some (.security 1)
  else (Blk.ofBar0 0 a).map (fun p => p.1)

/-- The TYPE code of a block (Tables 4.7 and 4.8). -/
def Blk.typeCode : Blk → Nat
  | .lodgeCtl _ => 0x01 | .warden _ => 0x02 | .clock _ => 0x03 | .chime => 0x04 | .trellis => 0x05
  | .power => 0x06 | .fault => 0x07 | .security _ => 0x08 | .queue => 0x09 | .obotil _ => 0x0A
  | .trug => 0x0B | .dieCtl _ => 0x10 | .lattice _ => 0x11 | .hbmCtl _ _ => 0x12 | .shed _ => 0x13
  | .mower _ => 0x14 | .gh _ => 0x15 | .rill _ _ => 0x16 | .sieve _ _ => 0x17 | .plot _ _ => 0x18

/-- The engine, port, plot or controller number of a block within its die or the package (R110). -/
def Blk.instanceNo : Blk → Nat
  | .obotil n => n | .hbmCtl _ k => k | .rill _ e => e | .sieve _ s => s | .plot _ p => p
  | _ => 0

/-- The DIE field of a block's BLOCK_ID: the die index, or 0xF0 plus the lodge index (R110). A Device block of the
lodges reads the lodge its logic lies in: the OBOTIL ports lie four to a lodge (Table 1.3); for the others the spec
names no lodge and the model takes lodge 0 (DESIGN CHOICE, entry 6). -/
def Blk.dieCode : Blk → Nat
  | .lodgeCtl l => 0xF0 + l | .warden l => 0xF0 + l | .clock l => 0xF0 + l | .security l => 0xF0 + l
  | .obotil n => 0xF0 + n / 4
  | .dieCtl d => d | .lattice d => d | .hbmCtl d _ => d | .shed d => d | .mower d => d | .gh d => d
  | .rill d _ => d | .sieve d _ => d | .plot d _ => d
  | _ => 0xF0

/-- The BLOCK_ID word of a block (R110). -/
def Blk.idWord (b : Blk) : Word :=
  BitVec.ofNat 32 (b.typeCode * 0x1000000 + b.instanceNo * 0x10000 + b.dieCode * 0x100 + 0x01)

/-- The blocks whose writes are posted (Table 4.3). -/
def Blk.posted : Blk → Bool
  | .warden _ | .clock _ | .chime | .trellis | .power | .security _ | .obotil _ | .dieCtl _ | .hbmCtl _ _ => true
  | _ => false

/-- The blocks whose scope in Table 4.3 is Device. -/
def Blk.deviceScope : Blk → Bool
  | .lodgeCtl _ | .warden _ | .clock _ | .security _ => false
  | _ => true

/-- The field lies in the register at block offset `o`. -/
def Fld.at (f : Fld) (o : Nat) : Bool :=
  if f.cnt ≤ 1 then f.off == o
  else decide (f.off ≤ o) && (o - f.off) % f.stride == 0 && decide ((o - f.off) / f.stride < f.cnt)

/-- The bits of a field as a mask of its register's word. -/
def Fld.mask (f : Fld) : Nat := (2 ^ (f.hi + 1 - f.lo) - 1) * 2 ^ f.lo

/-- The block offset of the register of instance `i` that holds the field. -/
def Fld.offAt (f : Fld) (i : Nat) : Nat := f.off + i * f.stride

/-- The named fields of the register at offset `o` of a block. -/
def Blk.fieldsAt (b : Blk) (o : Nat) : List Fld := b.fields.filter (fun f => f.at o)

/-- The chapters list a register at offset `o` of the block; other offsets are holes (R106). -/
def Blk.listed (b : Blk) (o : Nat) : Bool := o == 0x3FFC || b.fields.any (fun f => f.at o)

/-- The bits of the register at offset `o` whose fields satisfy `p`. -/
def Blk.maskAt (b : Blk) (o : Nat) (p : Fld → Bool) : Nat :=
  ((b.fieldsAt o).filter p).foldl (fun m f => m ||| f.mask) 0

/-- The reserved-live bits of the register at offset `o` (R100): those no named field holds. -/
def Blk.rsvlAt (b : Blk) (o : Nat) : Nat :=
  if o = 0x3FFC then 0 else 0xFFFFFFFF - b.maskAt o (fun _ => true)

/-- The reset word of the register at offset `o` by the Reset columns of the tables. -/
def Blk.resetAt (b : Blk) (o : Nat) : Nat :=
  (b.fieldsAt o).foldl (fun m f => m ||| (f.reset <<< f.lo)) 0

/-- The reset values that name the instance instead of a number: "per die" (Table 1.10), "per lodge" (Table 4.9);
and BLOCK_ID (R110). -/
def Blk.resetWord (b : Blk) (o : Nat) : Word :=
  if o = 0x3FFC then b.idWord
  else match b with
    | .dieCtl d => if o = 0x4 then BitVec.ofNat 32 ((if d < 4 then 0 else 16) + d) else BitVec.ofNat 32 (b.resetAt o)
    | .lodgeCtl l => if o = 0x130 then BitVec.ofNat 32 l else BitVec.ofNat 32 (b.resetAt o)
    | _ => BitVec.ofNat 32 (b.resetAt o)

/-- What the register at canonical address `a` reads before anything has changed it. -/
def regReset (a : Nat) : Word :=
  match Blk.ofAddr a with
  | some b => b.resetWord (a % 0x10000)
  | none => 0

end Machine
end Sys2Proof
end

