-- ==== Sys2Proof/Machine/Kinds.lean ====
section
/-! DEFINITION. The kinds of operand that commands carry beside numbers: who sends an access, and what a request,
a claim, a message or an outcome is. -/
namespace Sys2Proof
namespace Machine

/-- The source of a register access (Table 4.6). -/
inductive Source where
  | keeper (l c : Nat)
  | gatehouse (l : Nat)
  | jtag (l : Nat)
  | pcie (p fn : Nat)
  deriving DecidableEq, Repr

/-- A unit that produces or consumes barrows (Table 10.8, PRODUCER): an engine, or a keeper or the host. -/
inductive Agent where
  | rill (d e : Nat)
  | plot (d p : Nat)
  | sieve (d s : Nat)
  | mower (d : Nat)
  | trug
  | software
  deriving DecidableEq, Repr

/-- One register write as it reaches the device: its source, BAR0 offset with the alias, size in bytes, byte
enables, whether it is an atomic operation (R94), and its data. -/
structure WriteAccess where
  src     : Source
  addr    : Nat
  size    : Nat
  enables : BitVec 4
  amo     : Bool
  data    : Word
  deriving DecidableEq, Repr

/-- A barrow as software posts it: location, length, LOC, PATH, LAST, the five flags and the cause (Table 10.7). -/
structure BarrowArg where
  addr   : Nat
  length : Nat
  loc    : Nat
  path   : Nat
  last   : Bool
  flags  : BitVec 5
  poisoned : Bool
  cause  : Nat
  deriving DecidableEq, Repr

/-- What a memory request asks: `n` bytes read, or bytes written. -/
inductive MemOp where
  | read (n : Nat)
  | write (bytes : List Byte)
  deriving DecidableEq, Repr

/-- What a lattice checker finds in a request packet (01 R28, 18 Table 18.3): nothing, a word that it corrects in flight, or
an uncorrectable header. -/
inductive Upset where
  | none | corrected | header
  deriving DecidableEq, Repr

/-- A request of one arbitration round at an HBM pseudo-channel or a glasshouse bank port (10 R252, R253): who asks, and
what for (a rill's barrow, the issue number of a TRUG command); the instant it left its requester, in 1/64 ns; the lattice
cycles it was queued at router outputs, and those it waited for a footbridge crossing of a die, by die; whether it hits the
open row of its bank, its address and what it asks. A packet whose header is uncorrectable never becomes a request (R28). -/
structure MemReq where
  src      : Source
  agent    : Option Agent
  part     : Nat
  issued   : Nat
  queued   : Nat
  crossing : List (Nat × Nat)
  hit      : Bool
  addr     : Nat
  op       : MemOp
  upset    : Upset
  deriving DecidableEq, Repr

/-- A bench access (09 R214, R219, R221): who asks, a write claim or a read claim of `n` bytes on a furrow, and the
port of Table 9.1 it comes through (0 array, 1 predecessor link, 2 successor link, 3 lattice). -/
structure BenchAccess where
  agent : Agent
  die   : Nat
  plot  : Nat
  fur   : Nat
  port  : Nat
  write : Bool
  n     : Nat
  deriving DecidableEq, Repr

/-- The causes of a pass abandonment that a plot detects (07 R187); of a mismatch the pass it is found in, counted from the
oldest in the array, and of a lane mismatch its place (Table 7.11). -/
inductive Detect where
  | lane (pass vector row col group : Nat)
  | hedgeOpnd
  | hedgeAcc
  | finish (pass : Nat)
  | badImage
  deriving DecidableEq, Repr

/-- What a configuration request does to a function of a port (15 R359): a read, a write of the MSI-X control
(Enable, Function Mask), a write that sizes BAR4 as 2^log2 bytes, or another write. -/
inductive ConfigOp where
  | read (offset : Nat)
  | msixControl (enable mask : Bool)
  | resizeBar4 (log2 : Nat)
  | other (offset data : Nat)
  deriving DecidableEq, Repr

/-- A rill's fault: the row and element of the walk at which a host translation fails (10 R256), of its destination or source
address, of its scale's or its own; or the first device-virtual element whose entry does not serve. -/
inductive RillFaultKind where
  | host (row i0 : Nat) (write scale : Bool)
  | virt
  deriving DecidableEq, Repr

/-- A PCIe completion status: Successful Completion, Unsupported Request, Completer Abort or a failed translation. -/
inductive CplStatus where
  | success | unsupported | abort | noTranslation
  deriving DecidableEq, Repr

/-- Who issued the host request that a PCIe completion answers (10, 15 R372): a rill, a queue's submission fetch,
its completion write, or a COPY command of a queue. -/
inductive Requester where
  | rill (d e : Nat)
  | fetch (q : Nat)
  | cqWrite (q : Nat)
  | copy (q cid : Nat)
  deriving DecidableEq, Repr

/-- What a gate command comes from: an OBOTIL item of a bed, or a write of OB_GATE_CMD (14 R346). -/
inductive GateBy where
  | item (bed : Nat)
  | reg (src : Source)
  deriving DecidableEq, Repr

/-- The outcome of a retest (07 R189). -/
inductive RetestResult where
  | clean | sumFail | arrayFail
  deriving DecidableEq, Repr

/-- A lodge's samples of the straps OSC_WAIT, WARDEN_PREF and BOOT_SRC (19 R428). -/
structure Straps where
  osc  : Nat
  pref : Nat
  boot : Nat
  deriving DecidableEq, Repr

/-- What a scrubber reads next (18 R420): a unit of an HBM stack, or of the memories of a die. -/
inductive ScrubUnit where
  | hbm (stack : Nat)
  | sram (die : Nat)
  deriving DecidableEq, Repr

/-- Where a check of protected control state fails (18 R419): in a block, or in a keeper. -/
inductive Mismatch where
  | block (b : Blk)
  | keeper (l core : Nat)
  deriving DecidableEq, Repr

/-- What the boot ROM of a lodge reads and derives at step 4 (19 R435 to R439): the identity it reconstructs, when its
key matches the lodge certificate, as public key and device serial; the vendor root key in flash; the four counters as
authenticated; the loader image and the owner certificate; the digest of the mask ROM. -/
structure BootMedia where
  ident    : Option (Nat × Nat)
  rootKey  : Nat
  counters : Option (Nat × Nat × Nat × Nat)
  loader   : List Byte
  cert     : List Byte
  rom      : Nat
  deriving DecidableEq, Repr

/-- How a step of Table 19.1 ends in a lodge (19 R428, R430, R433): the image that step 3 or 6 verifies, with the owner certificate beside it in flash; what step 4 finds
(`none`: the flash does not answer); the plots whose array, and whose defined stage alone, failed BIST, the engines
and banks that failed, the hint as read, and what calibration leaves in reserved-live bits, by register (04 R100); or a
failure with its START_CAUSE. -/
inductive StepResult where
  | image (bytes cert : List Byte)
  | boot (m : Option BootMedia)
  | bist (arrays stages engines : List Nat) (hint : List Byte) (calib : List (Nat × Word))
  | failed (cause : Nat)
  deriving DecidableEq, Repr

end Machine
end Sys2Proof
end

