-- ==== Sys2Proof/Machine/Formats.lean ====
section
/-! DEFINITION. The number formats of the DN-8, their element codes, and the one conversion that every engine uses
(05 R117 to R140). A value is exact until it is converted, and a conversion rounds it once. -/
namespace Sys2Proof
namespace Machine

/-- The stored formats of Table 5.1. -/
inductive Fmt where
  | binary64 | binary32 | binary16 | bfloat16
  | e4m3 | e5m2 | e3m2 | e2m3 | e2m1 | int8
  | mxE4m3 | mxE5m2 | mxE3m2 | mxE2m3 | mxE2m1 | mxInt8
  | bs24 | e8m0 | longImage
  deriving DecidableEq, Repr

/-- The format a 5-bit format code names; `none` for any other code (R117). -/
def Fmt.ofCode (c : Nat) : Option Fmt :=
  if c = 0x00 then some .binary64 else if c = 0x01 then some .binary32
  else if c = 0x02 then some .binary16 else if c = 0x03 then some .bfloat16
  else if c = 0x04 then some .e4m3 else if c = 0x05 then some .e5m2
  else if c = 0x06 then some .e3m2 else if c = 0x07 then some .e2m3
  else if c = 0x08 then some .e2m1 else if c = 0x09 then some .int8
  else if c = 0x0C then some .mxE4m3 else if c = 0x0D then some .mxE5m2
  else if c = 0x0E then some .mxE3m2 else if c = 0x0F then some .mxE2m3
  else if c = 0x10 then some .mxE2m1 else if c = 0x11 then some .mxInt8
  else if c = 0x14 then some .bs24 else if c = 0x15 then some .e8m0
  else if c = 0x18 then some .longImage else none

/-- Element bits of a format (Table 5.1); 0 for the long-accumulator image, which has no elements. -/
def Fmt.bits : Fmt → Nat
  | .binary64 => 64 | .binary32 => 32 | .binary16 | .bfloat16 => 16
  | .e4m3 | .e5m2 | .int8 | .mxE4m3 | .mxE5m2 | .mxInt8 | .e8m0 => 8
  | .e3m2 | .e2m3 | .mxE3m2 | .mxE2m3 => 6
  | .e2m1 | .mxE2m1 => 4
  | .bs24 => 24
  | .longImage => 0

/-- The format holds one E8M0 scale for each block of 32 elements (Table 5.1). -/
def Fmt.blockScaled : Fmt → Bool
  | .mxE4m3 | .mxE5m2 | .mxE3m2 | .mxE2m3 | .mxE2m1 | .mxInt8 | .bs24 => true
  | _ => false

/-- The format is one of the MX formats 0x0C to 0x11. -/
def Fmt.isMx : Fmt → Bool
  | .mxE4m3 | .mxE5m2 | .mxE3m2 | .mxE2m3 | .mxE2m1 | .mxInt8 => true
  | _ => false

/-- The format carries a per-tensor scale (0x04 to 0x09). -/
def Fmt.tensorScaled : Fmt → Bool
  | .e4m3 | .e5m2 | .e3m2 | .e2m3 | .e2m1 | .int8 => true
  | _ => false

/-- binary64, binary32, binary16 or bfloat16. -/
def Fmt.isBinary : Fmt → Bool
  | .binary64 | .binary32 | .binary16 | .bfloat16 => true
  | _ => false

/-- Rill conversion is allowed for the format (last column of Table 5.1, "yes"). -/
def Fmt.convertible : Fmt → Bool
  | .e8m0 | .longImage => false
  | _ => true

/-- The format may be a plot operand of a dense bed (Table 5.1). -/
def Fmt.denseOperand : Fmt → Bool
  | .binary16 | .bfloat16 | .e4m3 | .e5m2 | .e3m2 | .e2m3 | .e2m1 | .int8
  | .mxE4m3 | .mxE5m2 | .mxE3m2 | .mxE2m3 | .mxE2m1 | .mxInt8 => true
  | _ => false

/-- The format may be a plot operand of an exact bed (Table 5.1). -/
def Fmt.exactOperand : Fmt → Bool
  | .binary64 | .binary32 | .binary16 | .bfloat16 => true
  | _ => false

/-- The element layout of a format: a floating-point layout (Table 5.2) or two's complement integers with the
weight of one unit (R119, R123, R125). -/
inductive Layout where
  | float (expBits manBits bias : Nat)
  | int (width : Nat) (unit : Int) (maxPos maxNeg : Nat)
  | none
  deriving DecidableEq, Repr

/-- The element layout of each format (Table 5.2, R119, R123, R125). -/
def Fmt.layout : Fmt → Layout
  | .binary64 => .float 11 52 1023
  | .binary32 => .float 8 23 127
  | .binary16 => .float 5 10 15
  | .bfloat16 => .float 8 7 127
  | .e5m2 | .mxE5m2 => .float 5 2 15
  | .e4m3 | .mxE4m3 => .float 4 3 7
  | .e3m2 | .mxE3m2 => .float 3 2 3
  | .e2m3 | .mxE2m3 => .float 2 3 1
  | .e2m1 | .mxE2m1 => .float 2 1 1
  | .int8 => .int 8 0 127 128
  | .mxInt8 => .int 8 (-6) 127 128
  | .bs24 => .int 24 (-22) (2 ^ 23 - 1) (2 ^ 23 - 1)
  | .e8m0 | .longImage => .none

/-- The format has infinity (Table 5.3). -/
def Fmt.hasInf : Fmt → Bool
  | .binary64 | .binary32 | .binary16 | .bfloat16 | .e5m2 | .mxE5m2 => true
  | _ => false

/-- The canonical NaN of a format (Table 5.3, R125); `none` for a format without NaN. -/
def Fmt.canonicalNan : Fmt → Option Nat
  | .binary64 => some 0x7FF8000000000000
  | .binary32 => some 0x7FC00000
  | .binary16 => some 0x7E00
  | .bfloat16 => some 0x7FC0
  | .e5m2 | .mxE5m2 => some 0x7E
  | .e4m3 | .mxE4m3 => some 0x7F
  | .bs24 => some 0x800000
  | _ => none

/-- The code of the largest positive finite element (Table 5.3). -/
def Fmt.maxFiniteCode : Fmt → Nat
  | .binary64 => 0x7FEFFFFFFFFFFFFF
  | .binary32 => 0x7F7FFFFF
  | .binary16 => 0x7BFF
  | .bfloat16 => 0x7F7F
  | .e5m2 | .mxE5m2 => 0x7B
  | .e4m3 | .mxE4m3 => 0x7E
  | .e3m2 | .e2m3 | .mxE3m2 | .mxE2m3 => 0x1F
  | .e2m1 | .mxE2m1 => 0x7
  | .int8 | .mxInt8 => 0x7F
  | .bs24 => 0x7FFFFF
  | .e8m0 => 0xFE
  | .longImage => 0

/-- The exponent `E_max` of a block format's largest finite element (R128; for BS24 the 0 that R129's
`S := floor(log2 a) + 127` stands for). -/
def Fmt.eMax : Fmt → Nat
  | .mxE5m2 | .e5m2 => 15 | .mxE4m3 | .e4m3 => 8 | .mxE3m2 | .e3m2 => 4
  | .mxE2m3 | .e2m3 => 2 | .mxE2m1 | .e2m1 => 2 | _ => 0

/-- An exact value: NaN with its signalling mark (R136), an infinity, or `(-1)^neg * mag * 2^exp`, where magnitude 0
is a signed zero (R126). -/
inductive Val where
  | nan (signalling : Bool)
  | inf (neg : Bool)
  | fin (neg : Bool) (mag : Nat) (exp : Int)
  deriving DecidableEq, Repr

/-- The five flags of a conversion in the bit order of R138: INX, UNF, OVF, DIVZ, INV. -/
abbrev FlagSet := BitVec 5

/-- INX alone (R138). -/
def FlagSet.inx : FlagSet := 0x01#5
/-- UNF alone (R138). -/
def FlagSet.unf : FlagSet := 0x02#5
/-- OVF alone (R138). -/
def FlagSet.ovf : FlagSet := 0x04#5
/-- DIVZ alone (R138). -/
def FlagSet.divz : FlagSet := 0x08#5
/-- INV alone (R138). -/
def FlagSet.inv : FlagSet := 0x10#5

/-- The flag set `f` when `b`, else no flag. -/
def FlagSet.when (b : Bool) (f : FlagSet) : FlagSet := if b then f else 0#5

/-- +0. -/
def Val.zero : Val := .fin false 0 0

/-- One. -/
def Val.one : Val := .fin false 1 0

/-- The value is a zero of either sign. -/
def Val.isZero : Val → Bool
  | .fin _ 0 _ => true
  | _ => false

/-- The value is NaN. -/
def Val.isNan : Val → Bool
  | .nan _ => true
  | _ => false

/-- The value is a signalling NaN (R136). -/
def Val.isSnan : Val → Bool
  | .nan true => true
  | _ => false

/-- The value is an infinity. -/
def Val.isInf : Val → Bool
  | .inf _ => true
  | _ => false

/-- The value is finite. -/
def Val.isFin : Val → Bool
  | .fin _ _ _ => true
  | _ => false

/-- The value times `2^s`. -/
def Val.scale (s : Int) : Val → Val
  | .fin n m e => if m = 0 then .fin n 0 0 else .fin n m (e + s)
  | v => v

/-- The sign of the value; NaN counts as positive. -/
def Val.neg? : Val → Bool
  | .nan _ => false
  | .inf n => n
  | .fin n _ _ => n

/-- The value with its sign inverted. -/
def Val.negate : Val → Val
  | .nan s => .nan s
  | .inf n => .inf (!n)
  | .fin n m e => .fin (!n) m e

/-- `a * 2^ea` against `b * 2^eb`. -/
def cmpMag (a : Nat) (ea : Int) (b : Nat) (eb : Int) : Ordering :=
  let lo := min ea eb
  compare (a * 2 ^ (ea - lo).toNat) (b * 2 ^ (eb - lo).toNat)

/-- The signed integer multiple of `2^lo` that a finite value is, for `lo` at most its exponent. -/
def signedAt (n : Bool) (m : Nat) (e lo : Int) : Int :=
  let q : Int := Int.ofNat (m * 2 ^ (e - lo).toNat)
  if n then -q else q

/-- The exact value `z * 2^e`; a zero has sign `zneg`. -/
def Val.ofInt (z e : Int) (zneg : Bool) : Val :=
  if z = 0 then .fin zneg 0 0 else .fin (decide (z < 0)) z.natAbs e

/-- `floor (log2 (m * 2^e))` for a nonzero magnitude. -/
def floorLog2 (m : Nat) (e : Int) : Int := Int.ofNat (Nat.log2 m) + e

/-- The value of an element code, without any scale (R118, R119, R123, R125, Table 5.3). -/
def Fmt.decode (f : Fmt) (c : Nat) : Val :=
  match f.layout with
  | .none => .zero
  | .int w unit _ _ =>
    let c := c % 2 ^ w
    if f = .bs24 ∧ c = 0x800000 then .nan false
    else if c < 2 ^ (w - 1) then (if c = 0 then .zero else .fin false c unit)
    else .fin true (2 ^ w - c) unit
  | .float eb mb bias =>
    let m := c % 2 ^ mb
    let e := (c / 2 ^ mb) % 2 ^ eb
    let s := (c / 2 ^ (mb + eb)) % 2 == 1
    let allOnes := e == 2 ^ eb - 1
    if f.hasInf && allOnes then
      (if m = 0 then .inf s else .nan (f.isBinary && m < 2 ^ (mb - 1)))
    else if (f = .e4m3 ∨ f = .mxE4m3) ∧ allOnes ∧ m = 7 then .nan false
    else if e = 0 then .fin s m (if m = 0 then 0 else 1 - Int.ofNat bias - Int.ofNat mb)
    else .fin s (2 ^ mb + m) (Int.ofNat e - Int.ofNat bias - Int.ofNat mb)

/-- The power of two that an E8M0 code stands for; `none` for the NaN code 0xFF (R120). -/
def e8m0Exp (c : Nat) : Option Int :=
  if c = 0xFF then none else some (Int.ofNat c - 127)

/-- An element value under an E8M0 scale: NaN under the scale 0xFF, where a signalling element stays signalling
(R122, R123, R124). -/
def Val.underScale (v : Val) (s : Nat) : Val :=
  match e8m0Exp s with
  | none => .nan v.isSnan
  | some k => v.scale k

/-- The rounding modes of R130. -/
inductive Rnd where
  | nearest | zero | up | down | odd | stochastic
  deriving DecidableEq, Repr

/-- The rounding mode a 3-bit field names, with the bed's default for 7; `none` for the invalid 6 (R130). -/
def Rnd.ofCode (c : Nat) (dflt : Rnd) : Option Rnd :=
  if c = 0 then some .nearest else if c = 1 then some .zero else if c = 2 then some .up
  else if c = 3 then some .down else if c = 4 then some .odd else if c = 5 then some .stochastic
  else if c = 7 then some dflt else none

/-- The overflow mode of a destination: IEEE or SAT. The 2-bit field of the command is 0 SAT, 1 IEEE, 3 the bed's
default; 2 is invalid (R134). Only binary16, bfloat16 and binary32 take the field; binary64 is always IEEE, every
other format always SAT. -/
def ieeeMode (f : Fmt) (field : Nat) (dfltIeee : Bool) : Option Bool :=
  if field = 2 then none
  else if f = .binary64 then some true
  else if f = .binary32 ∨ f = .binary16 ∨ f = .bfloat16 then
    some (if field = 3 then dfltIeee else field == 1)
  else some false

/-- The magnitude chosen by a rounding, in units of the spacing, for an exact magnitude `n + r / d` of sign `neg`
(`r < d`), and whether it was inexact; `u` is the stochastic draw (R131, R132). -/
def roundUnits (mode : Rnd) (neg : Bool) (n r d u : Nat) : Nat × Bool :=
  if r = 0 then (n, false)
  else
    let up := match mode with
      | .nearest => if 2 * r = d then n % 2 == 1 else decide (d < 2 * r)
      | .zero => false
      | .up => !neg
      | .down => neg
      | .odd => n % 2 == 0
      | .stochastic => decide (2 ^ 32 ≤ (r * 2 ^ 32) / d + u % 2 ^ 32)
    (if up then n + 1 else n, true)

/-- `m * 2^e` as an integer number of units `2^s` and a remainder over a power of two. -/
def inUnits (m : Nat) (e s : Int) : Nat × Nat × Nat :=
  if s ≤ e then (m * 2 ^ (e - s).toNat, 0, 1)
  else
    let d := 2 ^ (s - e).toNat
    (m / d, m % d, d)

/-- The largest finite magnitude of a format and sign as a mantissa and an exponent (Table 5.3, R119, R137). -/
def Fmt.maxFinite (f : Fmt) (neg : Bool) : Nat × Int :=
  match f.layout with
  | .int _ unit p n => (if neg then n else p, unit)
  | _ => match f.decode f.maxFiniteCode with
    | .fin _ m e => (m, e)
    | _ => (0, 0)

/-- The spacing exponent of the destination grid at a magnitude whose `floor log2` is `l`: the destination's
precision above the smallest normal, the subnormal spacing below it, one unit for the integer formats (R131). -/
def Fmt.spacing (f : Fmt) (l : Int) : Int :=
  match f.layout with
  | .float _ mb bias => max l (1 - Int.ofNat bias) - Int.ofNat mb
  | .int _ unit _ _ => unit
  | .none => 0

/-- The element code of sign `neg` and magnitude `q` units of `2^s`, where the magnitude is a value of the format. -/
def Fmt.encode (f : Fmt) (neg : Bool) (q : Nat) (s : Int) : Nat :=
  match f.layout with
  | .float eb mb bias =>
    let k := (s - (1 - Int.ofNat bias - Int.ofNat mb)).toNat
    (if neg then 2 ^ (eb + mb) else 0) + k * 2 ^ mb + q
  | .int w _ _ _ => if neg ∧ q ≠ 0 then 2 ^ w - q else q
  | .none => 0

/-- The code of an infinity in a format that has one. -/
def Fmt.infCode (f : Fmt) (neg : Bool) : Nat :=
  match f.layout with
  | .float eb mb _ => (if neg then 2 ^ (eb + mb) else 0) + (2 ^ eb - 1) * 2 ^ mb
  | _ => 0

/-- The code of the largest finite value of sign `neg` (R137). -/
def Fmt.satCode (f : Fmt) (neg : Bool) : Nat :=
  match f.layout with
  | .int w _ p n => if neg then 2 ^ w - n else p
  | .float eb mb _ => (if neg then 2 ^ (eb + mb) else 0) + f.maxFiniteCode
  | .none => 0

/-- The code of a signed zero; the integer formats have no -0 (R135). -/
def Fmt.zeroCode (f : Fmt) (neg : Bool) : Nat :=
  match f.layout with
  | .float eb mb _ => if neg then 2 ^ (eb + mb) else 0
  | _ => 0

/-- A NaN source delivered as an element (R136). -/
def Fmt.deliverNan (f : Fmt) (signalling : Bool) : Nat × FlagSet :=
  match f.canonicalNan with
  | some c => (c, FlagSet.when signalling FlagSet.inv)
  | none => (f.maxFiniteCode, FlagSet.inv)

/-- Overflow goes to infinity under IEEE for this rounding mode and sign (Table 5.5). -/
def overflowsToInf (mode : Rnd) (neg : Bool) : Bool :=
  match mode with
  | .nearest | .stochastic => true
  | .zero | .odd => false
  | .up => !neg
  | .down => neg

/-- The exact value of a finite source exceeds the largest finite value after rounding (R137). -/
def Fmt.exceeds (f : Fmt) (neg : Bool) (q : Nat) (s : Int) : Bool :=
  let (mm, me) := f.maxFinite neg
  cmpMag q s mm me == .gt

/-- The smallest normal is above the magnitude `m * 2^e` (the UNF test of R138 for floating-point destinations). -/
def Fmt.belowNormal (f : Fmt) (m : Nat) (e : Int) : Bool :=
  match f.layout with
  | .float _ _ bias => decide (floorLog2 m e < 1 - Int.ofNat bias)
  | _ => false

/-- One element delivered with one rounding: its code and flags (R126, R130 to R138). The value is already divided by
the destination's scale. -/
def Fmt.deliver (f : Fmt) (mode : Rnd) (ieee : Bool) (u : Nat) (v : Val) : Nat × FlagSet :=
  match v with
  | .nan s => f.deliverNan s
  | .inf n => if f.hasInf then (f.infCode n, 0#5) else (f.satCode n, FlagSet.ovf ||| FlagSet.inx)
  | .fin n 0 _ => (f.zeroCode n, 0#5)
  | .fin n m e =>
    let s := f.spacing (floorLog2 m e)
    let (w, r, d) := inUnits m e s
    let (q, inexact) := roundUnits mode n w r d u
    if f.exceeds n q s then
      let code := if ieee && f.hasInf && overflowsToInf mode n then f.infCode n else f.satCode n
      (code, FlagSet.ovf ||| FlagSet.inx)
    else
      let unf := match f.layout with
        | .float _ _ _ => inexact && f.belowNormal m e
        | _ => q == 0
      (if q = 0 then f.zeroCode n else f.encode n q s,
        FlagSet.when inexact FlagSet.inx ||| FlagSet.when unf FlagSet.unf)

/-- One element delivered through a per-tensor scale `sc` (an unscaled format takes 0x7F): through 0xFF every element
is NaN with code 0 (R122). -/
def Fmt.deliverScaled (f : Fmt) (sc : Nat) (mode : Rnd) (ieee : Bool) (u : Nat) (v : Val) : Nat × FlagSet :=
  match e8m0Exp sc with
  | none => (0, FlagSet.when v.isSnan FlagSet.inv ||| FlagSet.when (!v.isNan) FlagSet.inx)
  | some k => f.deliver mode ieee u (v.scale (-k))

/-- The larger of two magnitudes. -/
def maxMag : Option (Nat × Int) → Val → Option (Nat × Int)
  | none, .fin _ m e => if m = 0 then none else some (m, e)
  | some (a, ea), .fin _ m e => if m = 0 then some (a, ea)
      else if cmpMag m e a ea == .gt then some (m, e) else some (a, ea)
  | b, _ => b

/-- Some element of magnitude `a` rounds beyond the largest finite element in magnitude (R128 step 4; for BS24 the mantissa
reaches 2^23, R129) under the scale exponent `k`. The largest element of MXINT8 is 127/64, whatever the sign. -/
def Fmt.topExceeds (f : Fmt) (mode : Rnd) (k : Int) (a : Nat × Int) : List (Val × Nat) → Bool
  | [] => false
  | (v, u) :: rest =>
    (match v with
      | .fin n m e =>
        if m ≠ 0 ∧ cmpMag m e a.1 a.2 = .eq then
          let e' := e - k
          let s := f.spacing (floorLog2 m e')
          let (w, r, d) := inUnits m e' s
          let (q, _) := roundUnits mode n w r d u
          f.exceeds false q s
        else false
      | _ => false) || f.topExceeds mode k a rest

/-- The block scale code that R128 steps 2 to 4 (R129 for BS24) choose for the values and their draws. -/
def Fmt.blockScale (f : Fmt) (mode : Rnd) (vs : List (Val × Nat)) : Nat :=
  match vs.foldl (fun a v => maxMag a v.1) none with
  | none => 0x7F
  | some a =>
    let x0 := floorLog2 a.1 a.2 - Int.ofNat f.eMax + 127
    let x := (max 0 (min 254 x0)).toNat
    if f.topExceeds mode (Int.ofNat x - 127) a vs && decide (x < 254) then x + 1 else x

/-- One block delivered into a block-scaled format: the scale code, the element codes and the flags of the block
(R128, R129). Each value comes with its draw. -/
def Fmt.deliverBlock (f : Fmt) (mode : Rnd) (vs : List (Val × Nat)) : Nat × List Nat × FlagSet :=
  if f ≠ .bs24 ∧ vs.any (fun v => v.1.isNan) then
    (0xFF, vs.map (fun _ => 0),
      FlagSet.when (vs.any (fun v => v.1.isSnan)) FlagSet.inv |||
      FlagSet.when (vs.any (fun v => !v.1.isNan)) FlagSet.inx)
  else
    let x := f.blockScale mode vs
    let k := Int.ofNat x - 127
    let es := vs.map (fun v => f.deliver mode false v.2 (v.1.scale (-k)))
    (x, es.map (fun p => p.1), es.foldl (fun a p => a ||| p.2) 0#5)

/-- `mix` of R133 on 64-bit words. -/
def mix64 (x : DWord) : DWord :=
  let x := (x ^^^ (x >>> 30)) * 0xBF58476D1CE4E5B9#64
  let x := (x ^^^ (x >>> 27)) * 0x94D049BB133111EB#64
  x ^^^ (x >>> 31)

/-- The five inputs of a draw that a converting command gives (R133). -/
structure DrawKey where
  jobSeed  : DWord
  tensorId : Nat
  step     : Nat
  deriving DecidableEq, Repr

/-- The 32-bit draw of the element at a row and column of the destination tensor (R133). -/
def DrawKey.draw (k : DrawKey) (row col : Nat) : Nat :=
  let rt := BitVec.ofNat 64 ((row / 64) % 2 ^ 32)
  let ct := BitVec.ofNat 64 ((col / 64) % 2 ^ 32)
  let elem := 64 * (row % 64) + col % 64
  let key := mix64 (k.jobSeed ^^^ mix64 (BitVec.ofNat 64 (k.tensorId % 2 ^ 32)))
  let key := mix64 (key ^^^ ((rt <<< 32) ||| ct))
  let key := mix64 (key ^^^ BitVec.ofNat 64 (k.step % 2 ^ 32))
  (mix64 (key + BitVec.ofNat 64 (elem + 1) * 0x9E3779B97F4A7C15#64) >>> 32).toNat

/-- Bytes from little-endian order as one number. -/
def leNat : List Byte → Nat
  | [] => 0
  | b :: bs => b.toNat + 256 * leNat bs

/-- The low `n` bytes of a number in little-endian order. -/
def leBytes : Nat → Nat → List Byte
  | 0, _ => []
  | n + 1, v => BitVec.ofNat 8 v :: leBytes n (v / 256)

/-- The bytes that `n` elements of the format occupy, packed under R121. -/
def Fmt.packedBytes (f : Fmt) (n : Nat) : Nat :=
  match f.bits with
  | 4 => ceilDiv n 2
  | 6 => 3 * ceilDiv n 4
  | b => n * (b / 8)

/-- The code of element `i` of packed elements that `rd` reads byte by byte (R118, R121). -/
def Fmt.elemAt (f : Fmt) (rd : Nat → Byte) (i : Nat) : Nat :=
  match f.bits with
  | 4 => bitsOf (rd (i / 2)).toNat (4 * (i % 2) + 3) (4 * (i % 2))
  | 6 =>
    let g := 3 * (i / 4)
    let w := leNat [rd g, rd (g + 1), rd (g + 2)]
    bitsOf w (6 * (i % 4) + 5) (6 * (i % 4))
  | b => leNat ((List.range (b / 8)).map (fun j => rd (i * (b / 8) + j)))

/-- Element codes packed four bits at a time, zero bits after the last (R121). -/
def pack4 : List Nat → List Byte
  | [] => []
  | [a] => [BitVec.ofNat 8 (a % 16)]
  | a :: b :: r => BitVec.ofNat 8 (a % 16 + 16 * (b % 16)) :: pack4 r

/-- Element codes packed six bits at a time in groups of four, zero bits after the last (R121). -/
def pack6 : List Nat → List Byte
  | [] => []
  | [a] => leBytes 3 (a % 64)
  | [a, b] => leBytes 3 (a % 64 + 64 * (b % 64))
  | [a, b, c] => leBytes 3 (a % 64 + 64 * (b % 64) + 4096 * (c % 64))
  | a :: b :: c :: d :: r =>
    leBytes 3 (a % 64 + 64 * (b % 64) + 4096 * (c % 64) + 262144 * (d % 64)) ++ pack6 r

/-- Element codes as stored bytes (R118, R121). -/
def Fmt.pack (f : Fmt) (cs : List Nat) : List Byte :=
  match f.bits with
  | 4 => pack4 cs
  | 6 => pack6 cs
  | b => cs.flatMap (fun c => leBytes (b / 8) c)

end Machine
end Sys2Proof
end

