-- ==== Sys2Proof/Machine/Sums.lean ====
section
/-! DEFINITION. The three summation paths of a dot product and their carried states: the dense partial word and the
long-accumulator image (06 R141 to R166). -/
namespace Sys2Proof
namespace Machine

/-- The operand pair is allowed in a dense bed or an exact bed (R142). -/
def allowedPair (exact : Bool) (a b : Fmt) : Bool :=
  if exact then
    (a = .binary64 ∧ b = .binary64) ∨
      ((a = .binary16 ∨ a = .bfloat16 ∨ a = .binary32) ∧ (b = .binary16 ∨ b = .bfloat16 ∨ b = .binary32))
  else
    ((a = .binary16 ∨ a = .bfloat16) ∧ (b = .binary16 ∨ b = .bfloat16)) ∨
      (a.denseOperand ∧ !a.isBinary ∧ b.denseOperand ∧ !b.isBinary)

/-- The exact product of two operand values (R143, Table 6.2). A NaN product carries `true` when it sets INV. -/
def Val.mul : Val → Val → Val
  | .nan s, .nan t => .nan (s || t)
  | .nan s, _ => .nan s
  | _, .nan t => .nan t
  | .inf a, .inf b => .inf (a != b)
  | .inf a, .fin b m _ => if m = 0 then .nan true else .inf (a != b)
  | .fin a m _, .inf b => if m = 0 then .nan true else .inf (a != b)
  | .fin a m e, .fin b n f => if m = 0 ∨ n = 0 then .fin (a != b) 0 0 else .fin (a != b) (m * n) (e + f)

/-- The group size of defined summation (R147). -/
def groupSize (a b : Fmt) : Nat := if a.isBinary && b.isBinary then 8 else 32

/-- A 34-bit accumulator value: zero, or a sign, the exponent `e` of R150 and the significand `q`. -/
inductive Acc34 where
  | zero
  | num (neg : Bool) (e : Int) (q : Nat)
  deriving DecidableEq, Repr

/-- The exact value of a 34-bit accumulator as an integer and an exponent. -/
def Acc34.toInt : Acc34 → Int × Int
  | .zero => (0, 0)
  | .num n e q => (if n then -Int.ofNat q else Int.ofNat q, e - 33)

/-- Rounding to odd at 34 bits of `z * 2^k` with a sticky bit, and whether it was inexact (R150). -/
def rto34 (z k : Int) (st : Bool) : Acc34 × Bool :=
  if z = 0 then (.zero, st)
  else
    let m := z.natAbs
    let e := floorLog2 m k
    let (q, r, _) := inUnits m k (e - 33)
    let inexact := r ≠ 0 || st
    (.num (decide (z < 0)) e (if inexact then q ||| 1 else q), inexact)

/-- The exact sum of two signed dyadics, as an integer and an exponent. -/
def addDyadic (a b : Int × Int) : Int × Int :=
  let lo := min a.2 b.2
  (a.1 * 2 ^ (a.2 - lo).toNat + b.1 * 2 ^ (b.2 - lo).toNat, lo)

/-- The state of one column's dense accumulator, field by field as Table 6.3 lists it. -/
structure Dense where
  aligned    : Bool
  flags      : FlagSet
  nan        : Bool
  negInf     : Bool
  posInf     : Bool
  allNegZero : Bool
  empty      : Bool
  acc        : Acc34
  deriving DecidableEq, Repr

/-- The empty accumulator (R479). -/
def Dense.start : Dense := ⟨false, 0#5, false, false, false, false, true, .zero⟩

/-- The special values and zeros of one product noted in the state (Tables 6.2, 6.3 and 6.7). -/
def Dense.track (s : Dense) (p : Val) : Dense :=
  let neg0 := match p with
    | .fin n m _ => n && m == 0
    | _ => false
  let az := (s.empty || s.allNegZero) && neg0
  match p with
  | .nan inv => { s with nan := true, flags := s.flags ||| FlagSet.when inv FlagSet.inv, allNegZero := az, empty := false }
  | .inf n =>
    let pi := s.posInf || !n
    let ni := s.negInf || n
    { s with
      posInf := pi, negInf := ni, nan := s.nan || (pi && ni)
      flags := s.flags ||| FlagSet.when (pi && ni) FlagSet.inv, allNegZero := az, empty := false }
  | .fin _ _ _ => { s with allNegZero := az, empty := false }

/-- The finite nonzero products of a group. -/
def finNonzero (ps : List Val) : List (Bool × Nat × Int) :=
  ps.filterMap fun p => match p with
    | .fin n m e => if m = 0 then none else some (n, m, e)
    | _ => none

/-- The group sum in units of `2^(emax - w)` with its sticky bit (R148, R149; R156 with `w = 47` and no sticky
bit). -/
def groupSum (w : Int) (sticky : Bool) (ps : List Val) : Int × Int × Bool :=
  let fs := finNonzero ps
  match fs.map (fun p => floorLog2 p.2.1 p.2.2) with
  | [] => (0, 0, false)
  | l :: ls =>
    let u := ls.foldl max l - w
    fs.foldl (fun (a : Int × Int × Bool) p =>
      let (t, r, _) := inUnits p.2.1 p.2.2 u
      (a.1 + (if p.1 then -Int.ofNat t else Int.ofNat t), u, a.2.2 || (sticky && r ≠ 0))) (0, u, false)

/-- One group of products added to a dense accumulator by the defined or the aligned path (R146 steps 3 to 6, R151,
R153, R156). A group in which no product was formed changes nothing. -/
def Dense.addGroup (s : Dense) (aligned : Bool) (ps : List Val) : Dense :=
  if ps.isEmpty then s
  else
    let (z, k, st) := groupSum (if aligned then 47 else 63) (!aligned) ps
    let (g, ix) := rto34 z k st
    let (a, ix2) :=
      if s.empty then (g, false)
      else
        let t := addDyadic s.acc.toInt g.toInt
        rto34 t.1 t.2 false
    let s' := ps.foldl Dense.track s
    { s' with
      acc := a, aligned := s.aligned || aligned
      flags := s'.flags ||| FlagSet.when (ix || ix2) FlagSet.inx }

/-- The products of a pass added group by group (R147). Groups hold `g` places; a place without a product (padding)
is `none`. -/
def Dense.addGroups (aligned : Bool) : List (List (Option Val)) → Dense → Dense
  | [], s => s
  | g :: gs, s => Dense.addGroups aligned gs (s.addGroup aligned (g.filterMap id))

/-- A list cut into groups of `n`; `fuel` is the length of the list. -/
def chunksFuel {α : Type} (n : Nat) : Nat → List α → List (List α)
  | 0, _ => []
  | fuel + 1, l => if l.isEmpty then [] else l.take n :: chunksFuel n fuel (l.drop n)

/-- A list cut into groups of `n`. -/
def chunks {α : Type} (n : Nat) (l : List α) : List (List α) := chunksFuel n l.length l

/-- The dense partial word of an accumulator (R155, R479). -/
def Dense.word (s : Dense) : DWord :=
  if s.empty then 0x0001000000000000#64
  else
    let hi := bit s.aligned * 2 ^ 58 + s.flags.toNat * 2 ^ 53 + bit s.nan * 2 ^ 52 + bit s.negInf * 2 ^ 51 +
      bit s.posInf * 2 ^ 50 + bit s.allNegZero * 2 ^ 49
    match s.acc with
    | .zero => BitVec.ofNat 64 (hi + 2 ^ 47)
    | .num n e q => BitVec.ofNat 64 (hi + bit n * 2 ^ 46 + (BitVec.ofInt 12 e).toNat * 2 ^ 34 + q)

/-- The accumulator that a dense partial word holds (R155). -/
def Dense.ofWord (w : DWord) : Dense :=
  let n := w.toNat
  let acc :=
    if bitsOf n 48 48 = 1 ∨ bitsOf n 47 47 = 1 then .zero
    else .num (bitsOf n 46 46 == 1) (BitVec.ofNat 12 (bitsOf n 45 34)).toInt (bitsOf n 33 0)
  ⟨bitsOf n 58 58 == 1, BitVec.ofNat 5 (bitsOf n 57 53), bitsOf n 52 52 == 1, bitsOf n 51 51 == 1,
    bitsOf n 50 50 == 1, bitsOf n 49 49 == 1, bitsOf n 48 48 == 1, acc⟩

/-- The value a finished dot product delivers and the flags gathered before its conversion (Table 6.7). An inexact
event sets INX in whatever row the result is found (R153; DEDUCED, entry 10). -/
def resolve (mode : Rnd) (nan posInf negInf empty allNegZero : Bool) (z k : Int) : Val :=
  if nan || (posInf && negInf) then .nan false
  else if posInf then .inf false
  else if negInf then .inf true
  else if empty then .zero
  else if z = 0 then .fin (allNegZero || mode == .down) 0 0
  else Val.ofInt z k false

/-- The source value of the final conversion of a dense accumulator (R152, R165). -/
def Dense.result (s : Dense) (mode : Rnd) : Val :=
  resolve mode s.nan s.posInf s.negInf s.empty s.allNegZero s.acc.toInt.1 s.acc.toInt.2

/-- A long accumulator with the fields of its image (R160, R162): `wide` selects the 4,352-bit kind; the body is an
integer in units of bit 0, taken modulo the width. -/
structure Long where
  wide       : Bool
  empty      : Bool
  allNegZero : Bool
  posInf     : Bool
  negInf     : Bool
  nan        : Bool
  flags      : FlagSet
  count      : Nat
  body       : Nat
  deriving DecidableEq, Repr

/-- Width of the accumulator in bits (Table 6.5). -/
def longWidth (wide : Bool) : Nat := if wide then 4352 else 640

/-- Weight exponent of bit 0 (Table 6.5). -/
def longUnit (wide : Bool) : Int := if wide then -2148 else -298

/-- The empty long accumulator. -/
def Long.start (wide : Bool) : Long := ⟨wide, true, false, false, false, false, 0#5, 0, 0⟩

/-- The operand set of a pair of formats uses the 4,352-bit accumulator (Table 6.5). -/
def wideSet (a b : Fmt) : Bool := a == .binary64 && b == .binary64

/-- An integer as a two's complement number of the width. -/
def wrapTo (w : Nat) (z : Int) : Nat := (z % (2 ^ w : Int)).toNat

/-- The signed value of a two's complement number of the width. -/
def signedOf (w n : Nat) : Int := if n < 2 ^ (w - 1) then Int.ofNat n else Int.ofNat n - 2 ^ w

/-- One product as the image of a dot product that holds it alone (R160, R162). -/
def Long.ofProduct (wide : Bool) (p : Val) : Long :=
  let b := Long.start wide
  match p with
  | .nan inv => { b with empty := false, nan := true, flags := FlagSet.when inv FlagSet.inv, count := 1 }
  | .inf n => { b with empty := false, posInf := !n, negInf := n, count := 1 }
  | .fin n m e =>
    { b with
      empty := false, allNegZero := n && m == 0, count := 1
      body := if m = 0 then 0 else wrapTo (longWidth wide) (signedAt n m e (longUnit wide)) }

/-- Two images of one KIND combined (R163). -/
def Long.combine (a b : Long) : Long :=
  if a.empty then b
  else if b.empty then a
  else
    let pi := a.posInf || b.posInf
    let ni := a.negInf || b.negInf
    { wide := a.wide, empty := false, allNegZero := a.allNegZero && b.allNegZero
      posInf := pi, negInf := ni, nan := a.nan || b.nan || (pi && ni)
      flags := a.flags ||| b.flags ||| FlagSet.when (pi && ni) FlagSet.inv
      count := (a.count + b.count) % 2 ^ 64
      body := (a.body + b.body) % 2 ^ longWidth a.wide }

/-- Products folded into a long accumulator (R160). -/
def Long.add (a : Long) (ps : List Val) : Long :=
  ps.foldl (fun s p => s.combine (Long.ofProduct a.wide p)) a

/-- The source value of the final conversion of a long accumulator (R164, R165). -/
def Long.result (a : Long) (mode : Rnd) : Val :=
  resolve mode a.nan a.posInf a.negInf a.empty a.allNegZero (signedOf (longWidth a.wide) a.body) (longUnit a.wide)

/-- Bytes of an image of the kind (R162). -/
def imageBytes (wide : Bool) : Nat := if wide then 560 else 96

/-- The bytes of a long-accumulator image (Table 6.6). -/
def Long.bytes (a : Long) : List Byte :=
  let st := bit a.empty + 2 * bit a.allNegZero + 4 * bit a.posInf + 8 * bit a.negInf + 16 * bit a.nan
  leBytes 1 (if a.wide then 2 else 1) ++ leBytes 1 st ++ leBytes 1 a.flags.toNat ++ leBytes 5 0 ++
    leBytes 8 a.count ++ leBytes (longWidth a.wide / 8) a.body

/-- The long accumulator an image's bytes hold; `none` when its KIND is invalid, its length is not that of its kind,
or a must-be-0 field is not 0 (R162, R163). -/
def Long.ofBytes (bs : List Byte) : Option Long :=
  let n := leNat (bs.take 16)
  let kind := bitsOf n 7 0
  let st := bitsOf n 15 8
  let wide := kind == 2
  if (kind = 1 ∨ kind = 2) ∧ bs.length = imageBytes wide ∧ st < 32 ∧ bitsOf n 23 16 < 32 ∧ bitsOf n 63 24 = 0 then
    some ⟨wide, bitsOf st 0 0 == 1, bitsOf st 1 1 == 1, bitsOf st 2 2 == 1, bitsOf st 3 3 == 1,
      bitsOf st 4 4 == 1, BitVec.ofNat 5 (bitsOf n 23 16), bitsOf n 127 64, leNat (bs.drop 16)⟩
  else none

/-- The summation path of an output tile: 0 defined, 1 aligned, 2 long (R159). -/
inductive SumPath where
  | defined | aligned | long
  deriving DecidableEq, Repr

/-- The code of a summation path (R159). -/
def SumPath.code : SumPath → Nat
  | .defined => 0 | .aligned => 1 | .long => 2

end Machine
end Sys2Proof
end

