-- ==== Sys2Proof/Machine/Dev.lean ====
section
/-! DEFINITION. Everything that the spec gives the DN-8, as plain data: `Dev`, and the structures its fields hold. -/
namespace Sys2Proof
namespace Machine

/-- An entry of the reliability log (18 Table 18.7), with the model's instant of detection beside its fields. -/
structure LogEntry where
  event    : Nat
  sev      : Nat
  srcDie   : Nat
  unit     : Nat
  instNo   : Nat
  cause    : Nat
  syndrome : Nat
  chime    : Nat
  ns       : Nat
  bed      : Nat
  detail   : Nat
  addr     : Nat
  time     : Nat
  deriving DecidableEq, Repr

/-- What the issuer of an access is given (Table 4.4, 15 R360, R362). -/
inductive Answer where
  | done
  | value (w : Nat)
  | bytes (bs : List Byte) (poisoned : Bool)
  | dropped
  | unsupportedRequest
  | completerAbort
  | accessFault
  | busError
  | retryStatus
  | none
  deriving DecidableEq, Repr

/-- What leaves the block: answers, interrupts, messages on links and PCIe transactions. -/
inductive Out where
  | answer (src : Source) (a : Answer)
  | msix (func vector : Nat)
  | frostNmi (l : Nat)
  | gatehouseIrq (l : Nat)
  | keeperLogIrq
  | keeperMailboxIrq (l : Nat)
  | rillFaultIrq (d e : Nat)
  | portIdentity (port dev node : Nat)
  | flit (port : Nat) (lanes : List (Nat × List (BitVec 2)))
  | pcieWrite (port pasid addr : Nat) (bytes : List Byte) (poisoned : Bool)
  | pcieRead (port pasid addr len : Nat)
  | pageRequest (req : Requester) (addr pasid : Nat)
  | firmware (q : Nat) (bytes : List Byte)
  | benchRetry (d p fur : Nat)
  | heartbeat (l epoch pref : Nat) (digest : DWord)
  | claim (l epoch : Nat)
  | claimAnswer (d l : Nat) (ack : Bool)
  | handOver (l : Nat)
  | fullCopy (l : Nat)
  | spdm (l : Nat) (bytes : List Byte)
  | flashHint (l : Nat) (record signature : List Byte)
  | flashCounter (l n value : Nat)
  | gatehouseMailbox (l : Nat)
  | served (agent : Option Agent) (addr : Nat) (ok : Bool)
  deriving DecidableEq, Repr

/-- A posted write accepted and not yet applied (04 R101): register offset, the number of its form (Table 4.2), data and source. -/
structure PWrite where
  off   : Nat
  form : Nat
  data  : Word
  src   : Source
  deriving DecidableEq, Repr

/-- What the chime generator keeps beside its registers (02 R31 to R40, R474). -/
structure ChimeSt where
  /-- The chime number (R33). -/
  count    : DWord
  /-- A chime has fired since the block left reset (R33). -/
  started  : Bool
  /-- The instant of the previous chime, or of the write that set ENABLE (R474). -/
  prev     : Nat
  /-- `prev` is the instant of the write that set ENABLE. -/
  fromEnable : Bool
  /-- The period of the window that is open, in ns (R31). -/
  openPeriod : Nat
  /-- Fire times that markers or pin edges have set and that have not come, earliest first, each with the chime number
  that a marker carried (R37, R469). -/
  due      : List (Nat × Option DWord)
  /-- What a read of CHIME_COUNT_LO latched into CHIME_COUNT_HI (R93). -/
  hiLatch  : Word
  /-- The chimes to come whose markers have been emitted (R36). -/
  emitted  : Nat
  /-- The instant from which ENABLE and SRC, as they stand, have held; and the same of them with LEAD_NS. -/
  srcFrom  : Nat
  emitFrom : Nat
  /-- The blocks that logged a corrected word since the last chime (18 R424). -/
  ceLogged : List Nat
  deriving DecidableEq, Repr

/-- The kinds of a work item (Table 2.3). -/
inductive Kind where
  | rill | pass | sieve | mower | trug | obotil | barrier | nop
  deriving DecidableEq, Repr

/-- A work item of a window record as the image gives it: kind, unit, EXT, and its command: the 28 payload bytes, or
the extended command's bytes when EXT is set (R42). -/
structure ItemCfg where
  kind : Kind
  unit : Nat
  ext  : Bool
  cmd  : List Byte
  deriving DecidableEq, Repr

/-- A window record (Table 2.2). -/
structure RecordCfg where
  next   : Nat
  repeats : Nat
  halt   : Bool
  irq    : Bool
  items  : List ItemCfg
  deriving DecidableEq, Repr

/-- The program of a bed on one die (03 R75) and the bytes its body takes of the die's store. -/
structure ProgCfg where
  die     : Nat
  storeBytes : Nat
  records : List RecordCfg
  deriving DecidableEq, Repr

/-- A ring entry (Table 3.3). -/
structure RingCfg where
  lplot : Nat
  seg1  : Nat
  seg2  : Nat
  deriving DecidableEq, Repr

/-- A turnstile entry (Table 3.3). -/
structure TurnstileCfg where
  ring  : Nat
  rill  : Nat
  lplot : Nat
  deriving DecidableEq, Repr

/-- An HBM region of a bed in bytes (Table 3.6). -/
structure HbmRegion where
  base   : Nat
  size   : Nat
  read   : Bool
  write  : Bool
  shared : Bool
  deriving DecidableEq, Repr

/-- A glasshouse region of a bed in 64 KiB units (Table 3.6). -/
structure GhRegion where
  die  : Nat
  base : Nat
  size : Nat
  deriving DecidableEq, Repr

/-- A lattice route of a bed (Table 3.7). -/
structure RouteCfg where
  src   : Nat
  dst   : Nat
  order : Nat
  deriving DecidableEq, Repr

/-- A default furrow (R74). -/
structure FurCfg where
  lplot : Nat
  fur   : Nat
  base  : Nat
  size  : Nat
  deriving DecidableEq, Repr

/-- All that an image says of one bed (03 R65 to R75). -/
structure BedCfg where
  ringCount  : Nat
  turnstiles : List TurnstileCfg
  ring       : List RingCfg
  exact      : Bool
  unchecked  : Bool
  policyStop : Bool
  round      : Nat
  ieee       : Bool
  jobSeed    : DWord
  pcMask     : Nat
  hbm        : List HbmRegion
  gh         : List GhRegion
  rillMask   : Nat
  sieveMask  : Nat
  mowerMask  : Nat
  routes     : List RouteCfg
  furs       : List FurCfg
  start      : Nat
  progs      : List ProgCfg
  deriving DecidableEq, Repr

/-- The states of a bed (Table 2.11). -/
inductive BedState where
  | idle | run | slipping | halted | replant
  deriving DecidableEq, Repr

/-- A bed and its one state, the same on all its dies (02 R475): the home of BED_CTL, BED_STS, BED_PC and the bed
counters of every slot. -/
structure Bed where
  cfg        : BedCfg
  /-- The slot of the bed on each die that holds plots of it (03 R80, R83). -/
  slots      : List (Nat × Nat)
  run        : Bool
  /-- The instant of the write that set RUN (R58). -/
  runAt      : Nat
  policyStop : Bool
  slipLimit  : Nat
  state      : BedState
  haltCause  : Nat
  overrun    : Bool
  hazard     : Bool
  pc         : Nat
  /-- Windows of the record `pc` already issued in this run of it (R58, R476). -/
  rep        : Nat
  ovrCnt     : Nat
  winCnt     : Nat
  slack      : Nat
  /-- Consecutive chimes without issue (R52). -/
  slips      : Nat
  /-- A window of the bed is open, and the instant its opening chime fired. -/
  openT      : Option Nat
  /-- The last retirement at its engine of an item of the window (BED_SLACK). -/
  lastRetire : Option Nat
  /-- What the done network sampled at the closing point of the chime due at an instant (R35, R49). -/
  sample     : Option (Nat × Bool)
  /-- A POISONED barrow was posted: the bed halts at the next chime (10 R248). -/
  poisoned   : Bool
  deriving DecidableEq, Repr

/-- A work item that has issued and not retired (02 R43 to R47), in issue order. -/
structure Item where
  seq      : Nat
  bed      : Nat
  die      : Nat
  cfg      : ItemCfg
  openT    : Nat
  /-- Held by the shed sequencer because its engine is at its pending limit (R45). -/
  held     : Bool
  /-- Its engine has accepted it. -/
  accepted : Bool
  /-- The instant its engine accepted it. -/
  acceptT  : Nat
  deriving DecidableEq, Repr

/-- An item of a window that its die's shed sequencer is still to issue (02 R43). -/
structure Issue where
  bed   : Nat
  die   : Nat
  openT : Nat
  cfg   : ItemCfg
  deriving DecidableEq, Repr

/-- What the loader's operation does. -/
inductive LoadOp where
  | load | replant
  deriving DecidableEq, Repr

/-- The loader's operation in progress (03 R77 to R89): what it is; the bed of a replant, what its verified image makes
of the bed (`none`: removes it) and the image's digest; the counter that VERIFY began with (19 R437); the instant it
armed; whether a chime has passed in DRAIN. -/
structure LoaderSt where
  op      : Option LoadOp
  bed     : Nat
  cfg     : Option BedCfg
  digest  : Nat
  counter : Nat
  armT    : Nat
  drained : Bool
  /-- A replanted bed whose first issue TRELLIS_REPLANT_LAT still awaits, and the instant it armed. -/
  awaiting : Option (Nat × Nat)
  deriving DecidableEq, Repr

/-- A claimed slot of a barrow queue: the queue, the slot count, the claimer; a context WRITE has since made it void
(10 R250, 15 R365); its barrow is written, and as VOID, which the replay's barrow is to rewrite (10 R247). -/
structure ClaimedSlot where
  queue : Nat
  count : Nat
  agent : Agent
  dead  : Bool
  written : Bool
  void  : Bool
  deriving DecidableEq, Repr

/-- One byte as a memory's checker delivers it: its value, the syndrome of its word where that is uncorrectable (else
0), and its place in that word (18 R418). -/
structure Lane where
  val  : Byte
  synd : BitVec 8
  lane : Nat
  deriving DecidableEq, Repr

/-- The stages of a pass at its plot. -/
inductive PassStage where
  | accepted | loading | ready | running
  deriving DecidableEq, Repr

/-- A pass that its plot has accepted (07 R171 to R189). Claims are given by where they begin, as byte counts of the
furrow's pointers, once they are made. -/
structure Pass where
  seq     : Nat
  bed     : Nat
  cmd     : List Byte
  ext     : Bool
  stage   : PassStage
  /-- The instant vector 0 of the present run entered. -/
  startT  : Nat
  /-- The stationary tile that the pass multiplies by, as its words arrived. -/
  tile    : List Lane
  /-- Moving vectors that have entered in the present run, and those claimed and forwarded so far (R174, R187). -/
  entered : Nat
  fed     : Nat
  /-- The claims: stationary tile (of a LOAD = 1 pass), moving stream, O-flow west operand, input images, output. -/
  sBase   : Option Nat
  mBase   : Option Nat
  wBase   : Option Nat
  iBase   : Option Nat
  oBase   : Option Nat
  /-- The slot of its output queue that it has claimed. -/
  slot    : Option ClaimedSlot
  /-- It replays after an abandonment (R188), and how often it has been abandoned in succession. -/
  replay  : Bool
  abandons : Nat
  /-- It loads a tile; the bytes that the link of its neighbour load had forwarded when that began (08 R204). -/
  loads   : Bool
  linkMark : Option Nat
  deriving DecidableEq, Repr

/-- What an array holds for (07 R172, 09 R225): a line of its own bench, a line of a neighbour's, or room for a forwarding
write. -/
inductive HoldFor where
  | line | farLine | room
  deriving DecidableEq, Repr

/-- A hold of an array: the pass that waits, the instant from which it does, what for, and whether stages stand still. -/
structure ArrayHold where
  seq   : Nat
  since : Nat
  what  : HoldFor
  deriving DecidableEq, Repr

/-- A line access that waits for its bank (09 R215): the bank, its class in the order of R215 (0 array-port read to 4
lattice), the instant from which it addresses the bank, and the cycles that it has lost. -/
structure LineAccess where
  bank : Nat
  cls  : Nat
  due  : Nat
  lost : Nat
  deriving DecidableEq, Repr

/-- A plot's array, banks and accumulator file (07 R175 to R189). -/
structure PlotSt where
  passes   : List Pass
  liveTile : List Lane
  shadowTile : List Lane
  /-- The instant vector 0 of the last swap entered, and that of the last vector that entered (R177, R210). -/
  swapAt   : Option Nat
  lastEnter : Option Nat
  lastFlow : Nat
  /-- The furrow bench and number, base and length of the range that the last LOAD = 1 pass read, as die, plot and
  furrow (R173, R189); `released`: it has been released. -/
  loadFrom : Option (Nat × Nat × Nat × Nat × Nat)
  /-- Committed and other copy of the accumulator file: 4,096 dense partial words each with their syndromes (R178). -/
  file     : Tbl (DWord × BitVec 8)
  fileOther : Tbl (DWord × BitVec 8)
  /-- FLOW, K, ROWS and COLS of the kept accumulators (R179). -/
  record   : Nat × Nat × Nat × Nat
  /-- A spill claimed its range at this count of the spill furrow, and the furrow's number (R184, R186). -/
  spill    : Option (Nat × Nat)
  /-- The restore of a spill is under way (R186). -/
  restoring : Bool
  /-- The retest in progress follows an abandonment (R189); `false` for CMD = RETEST. -/
  retestReplay : Bool
  /-- The state to return to when the retest ends. -/
  back     : Nat
  /-- The abandonment that began the retest exhausted REPLAY_LIMIT (R188). -/
  exhausted : Bool
  /-- The array's hold (R172); the instant up to which the cycle counters of plot and bench are settled; the line accesses
  that wait for the banks (09 R215); the bytes forwarded on either ring (08 R204). -/
  hold     : Option ArrayHold
  settled  : Nat
  lines    : List LineAccess
  fwdBytes : Nat × Nat
  deriving DecidableEq, Repr

/-- A furrow as a core cycle found it, with the ports that have claimed on it in that cycle (09 R222, R223). -/
structure FurSeen where
  cycle : Nat
  tail  : Nat
  fill  : List Nat
  ports : List Nat
  deriving DecidableEq, Repr

/-- A furrow's pointers as byte counts, its fill bits by line of the count, and releases that wait for earlier ones
(09 R218 to R226): the home of FUR_CFG and the furrow pointer registers. -/
structure Furrow where
  base  : Nat
  size  : Nat
  head  : Nat
  read  : Nat
  tail  : Nat
  /-- Lines (count div 64) whose fill bit is set. -/
  fill  : List Nat
  /-- Released ranges not yet passed by TAIL: start and length. -/
  freed : List (Nat × Nat)
  /-- Lattice requests that wait in the bench's stall buffer for this furrow, and those answered with a retry, with
  the instant of the answer (R224). -/
  stalled : List BenchAccess
  retried : List (BenchAccess × Nat)
  /-- Bytes of the tile being forwarded into this furrow: claim start and vectors written (R174, R220). -/
  stream : Option (Nat × Nat)
  /-- The furrow as the core cycle of its last change found it. -/
  seen : FurSeen
  deriving DecidableEq, Repr

/-- A barrow (10 Table 10.7). -/
structure Barrow where
  addr   : Nat
  length : Nat
  gen    : Nat
  loc    : Nat
  path   : Nat
  last   : Bool
  flags  : FlagSet
  void   : Bool
  poisoned : Bool
  late   : Bool
  cause  : Nat
  deriving DecidableEq, Repr

/-- A barrow taken and not yet released. -/
structure TakenBarrow where
  queue  : Nat
  count  : Nat
  agent  : Agent
  barrow : Barrow
  dead   : Bool
  deriving DecidableEq, Repr

/-- A fault wait of a rill (10 R256): the faulting row and element, the address, the side and kind. -/
structure RillFault where
  row      : Nat
  i0       : Nat
  addr     : Nat
  write    : Bool
  host     : Bool
  deriving DecidableEq, Repr

/-- The descriptor a rill runs (10 R233 to R263). -/
structure RillRun where
  seq     : Nat
  bed     : Nat
  openT   : Nat
  desc    : List Byte
  /-- The next barrow to post, and bytes that earlier barrows of SRC_LOC 7 took at the destination. -/
  barrow  : Nat
  outBytes : Nat
  /-- What that barrow has so far: its slot, its input barrow, its bench claims at source and destination. -/
  claimed : Option ClaimedSlot
  input   : Option TakenBarrow
  srcAt   : Option Nat
  dstAt   : Option Nat
  /-- Rows of the barrow already complete after a fault wait, and the element to resume at (R259). -/
  doneRow : Nat
  doneI0  : Nat
  /-- Flags of its conversions so far, and its transposed blocks (08 R206). -/
  flags   : FlagSet
  blocks  : Nat
  /-- The fault wait, and page requests made for the element at the cursor (R257). -/
  fault   : Option RillFault
  pageReqs : Nat
  /-- Its host reads have been issued, and the bytes that have come, in walk order, with their EP marks. -/
  asked   : Bool
  hostIn  : List Lane
  /-- Its gate writes have been sent, and the WTAGs not yet answered (14 R347). -/
  sent    : Bool
  tags    : List Nat
  /-- An unrecoverable fault: this and every later barrow post as POISONED (R260); and a POISONED input of the barrow in hand,
  which posts so (R248). -/
  poison  : Option Nat
  tainted : Option Nat
  deriving DecidableEq, Repr

/-- A rill engine (10): its descriptor; those before it that have issued their last request and wait for answers (R233); its
cached translations of 2 MiB virtual pages (R236), the instant a cancel was acknowledged. -/
structure RillSt where
  run      : Option RillRun
  trail    : List RillRun
  cache    : List (Nat × Nat)
  cancelT  : Option Nat
  deriving DecidableEq, Repr

/-- The command a Sieve runs (11 R286): whether it has started, what it has taken and claimed, and the cause that
poisons it. -/
structure SieveRun where
  seq   : Nat
  bed   : Nat
  openT : Nat
  cmd   : List Byte
  started : Bool
  claimed : Option ClaimedSlot
  input   : Option TakenBarrow
  xAt   : Option Nat
  zAt   : Option Nat
  yAt   : Option Nat
  /-- The flags of its parameters' conversion (R272). -/
  flags : FlagSet
  poison : Option Nat
  deriving DecidableEq, Repr

/-- A Sieve (11): its running command, the instants from which a tray clear runs and RUN has been counted, and its row and
parameter buffers (R270), two binary32 values and their syndrome a word: the row last read, and γ with β after it. -/
structure SieveSt where
  run   : Option SieveRun
  clearT : Option Nat
  startT : Nat
  rowBuf : List (DWord × BitVec 8)
  parBuf : List (DWord × BitVec 8)
  deriving DecidableEq, Repr

/-- The command a Mower runs (12 R291 to R306): whether it has begun; it is held in SKEW, or was DISCARDed there; its work
has ended; its flags, and the cause that poisons it. -/
structure MowerRun where
  seq   : Nat
  bed   : Nat
  openT : Nat
  cmd   : List Byte
  claimed : Option ClaimedSlot
  input : Option TakenBarrow
  begun : Bool
  skew  : Bool
  ended : Bool
  flags : FlagSet
  poison : Option Nat
  deriving DecidableEq, Repr

/-- A Mower (12): its running command. -/
structure MowerSt where
  run : Option MowerRun
  /-- Mirrored register values that take effect at commands issued at or after the next chime (R301). -/
  mirror : List (Nat × Word)
  deriving DecidableEq, Repr

/-- An entry of a function's MSI-X table (15 R374): address, data and the mask bit. -/
structure MsixEntry where
  addr : DWord
  data : Word
  mask : Bool
  deriving DecidableEq, Repr

/-- What a PCIe function keeps in its configuration space (15 R359, R374). -/
structure FnSt where
  msixEnable : Bool
  msixMask   : Bool
  deriving DecidableEq, Repr

/-- A PCIe port (15 R361, R375): VF Enable, NumVFs, whether its VFs are instantiated, log2 of its BAR4 size, and the
other configuration words that software wrote, by function · 4096 + offset. -/
structure PciePort where
  vfEnable : Bool
  numVfs   : Nat
  vfUp     : Bool
  barLog2  : Nat
  config   : List (Nat × Nat)
  deriving DecidableEq, Repr

/-- A host command fetched and not yet completed (15 R370, R371): its queue and 64 bytes; it has started; the status and
RESULT of a completion that waits for its slot; bytes of a COPY delivered so far, one of them in an uncorrectable word;
page requests made for it. -/
structure HostCmd where
  queue    : Nat
  bytes    : List Byte
  started  : Bool
  outcome  : Option (Nat × Nat)
  delivered : Nat
  ue       : Bool
  pageReqs : Nat
  deriving DecidableEq, Repr

/-- An owner key slot of a lodge (19 R436): lodge, slot 1 to 15, permissions and public key. -/
structure OwnerSlot where
  lodge : Nat
  slot  : Nat
  perms : Nat
  key   : Nat
  deriving DecidableEq, Repr

/-- A DATA flit to send or sent: its class (0 CONTROL, 1 TRUG, 2 BULK), whether it starts a message, and its 256 data
bytes (14 R336, R339). -/
structure TxFlit where
  cls   : Nat
  start : Bool
  data  : List Byte
  deriving DecidableEq, Repr

/-- A message in arrival or arrived and not yet used: its class, the first 64 bytes of its start flit, its body so far,
the receive buffers it holds; whether it is whole; accepted at its gate's check, the LOC and BASE of the window it goes to (R347,
R348); discarded, so that what follows of it is too; and its number. -/
structure RxMsg where
  cls   : Nat
  head  : List Byte
  body  : List Byte
  flits : Nat
  whole : Bool
  window : Option (Nat × Nat)
  dead  : Bool
  id    : Nat
  deriving DecidableEq, Repr

/-- The lead of a marker before the delay of its link is taken off: the time to its chime at the instant of emission, in
1/16 ns (02 R36, R474), or, re-emitted, what is left when it leaves, to its chime at an instant (R37). -/
inductive MarkerLead where
  | fixed (lead : Nat)
  | untilT (fire : Int)
  deriving DecidableEq, Repr

/-- A short flit that waits for its quarter boundary: a marker, a SACK and a barrier token by their word 0 (14 R337, R352
to R355). -/
inductive ShortFlit where
  | marker (num : DWord) (lead : MarkerLead) (srcDev hops : Nat)
  | sack (w0 : Nat)
  | token (w0 : Nat)
  deriving DecidableEq, Repr

/-- A Trug packet of an instance (13 R321, R323): its 32-byte header and its payload; where staging in HBM holds both, their address
with the payload's bytes there; whether an uncorrectable word was found as they were read back. -/
structure TrugPkt where
  head : List Byte
  body : List Byte
  staged : Option (Nat × Nat)
  bad  : Bool
  deriving DecidableEq, Repr

/-- A TRUG command that the engine has accepted (13 R310 to R312). -/
structure TrugRun where
  seq   : Nat
  bed   : Nat
  openT : Nat
  cmd   : List Byte
  claimed : Option ClaimedSlot
  input : Option TakenBarrow
  poison : Option Nat
  deriving DecidableEq, Repr

/-- An instance of a bucket (13 R320): its local command once that has started, its packets in order of arrival, the
owners to which this device has sent its node sum, whether it has sent its results; closed, and kept for the node sums
that it still owes. -/
structure TrugInst where
  grp    : Nat
  bucket : Nat
  run    : Option TrugRun
  pkts   : List TrugPkt
  sentTo : List Nat
  results : Bool
  closed : Bool
  deriving DecidableEq, Repr

/-- Four counts, one for each class: CONTROL, TRUG, BULK, short flits. -/
structure Counts where
  control : Nat
  trug    : Nat
  bulk    : Nat
  short   : Nat
  deriving DecidableEq, Repr

/-- An Obotil port beside its registers (14 R333 to R344). -/
structure PortSt where
  /-- DATA flits that wait, oldest first; short flits that wait; quarters left of the full flit in progress. -/
  txq    : List TxFlit
  short  : List ShortFlit
  cur    : List (List Byte)
  /-- The replay buffer, oldest first, with the sequence numbers; the next number; where a replay stands. -/
  replay : List (Nat × TxFlit)
  seq    : Nat
  resend : Option Nat
  /-- Flits sent by class since training, and freed by the partner. -/
  sent   : Counts
  partner : Counts
  /-- The receiver: E; the NAK to report; a NAK of this replay has been sent; buffers freed since training, and as the
  last LINK flit reported them; DATA flits accepted since that, and the instant of the first. -/
  expect : Nat
  nak    : Option Nat
  nakSent : Bool
  freed  : Counts
  linked : Counts
  since  : Nat
  sinceT : Nat
  /-- The instant from which the 1 µs of R343 counts; replays in succession; retrains that failed in succession;
  sequence gaps in succession. -/
  timer  : Nat
  replays : Nat
  fails  : Nat
  gaps   : Nat
  /-- A violation to report: code and sequence number (R357). -/
  viol   : Option (Nat × Nat)
  /-- Messages received. -/
  rx     : List RxMsg
  deriving DecidableEq, Repr

/-- A gate as its gate engine holds it (14 R346): 0 UNLOADED, 1 LATCHED, 2 OPEN; the epoch; the entry as loaded. -/
structure GateSt where
  state : Nat
  epoch : Nat
  entry : List Byte
  deriving DecidableEq, Repr

/-- A gate command that has taken effect and completes once every write numbered below `before` is complete, and the
item it was (14 R348). -/
structure GateWait where
  gate   : Nat
  item   : Option Nat
  before : Nat
  deriving DecidableEq, Repr

/-- A barrier group (14 R353 to R355): the items issued and not retired, tokens held, and tokens sent without a SACK,
with their port and the instant of the last sending. -/
structure BarSt where
  active : List Nat
  held   : List Nat
  unsacked : List (Nat × Nat × Nat)
  deriving DecidableEq, Repr

/-- A heartbeat on the die control sideband (16 R382): the pair its sender follows, its WARDEN_PREF sample, the digest
of the last completed window with that window's closing chime, whether its sender is the warden, and when it left. -/
structure HbMsg where
  epoch  : Nat
  lodge  : Nat
  pref   : Nat
  digest : DWord
  chime  : DWord
  warden : Bool
  sentT  : Nat
  deriving DecidableEq, Repr

/-- A lodge's side of the warden arbitration beside its registers (16 R382 to R393). -/
structure WardSt where
  /-- The highest epoch seen. -/
  seen    : Nat
  /-- The instant the last heartbeat came; one has come in the present interval. -/
  lastHb  : Option Nat
  gotHb   : Bool
  /-- The instant of its own last heartbeat, and that heartbeat while it may still arrive. -/
  hbT     : Option Nat
  hb      : Option HbMsg
  /-- Its unresolved claim: the epoch, and the instant it was last sent. -/
  claim   : Option (Nat × Nat)
  /-- Answers of dies on their way: die, ACK, and the die's pair. -/
  answers : List (Nat × Bool × Nat × Nat)
  /-- The pair that a REJ of this claim carried, and a pair that is known to outrank its own. -/
  rej     : Option (Nat × Nat)
  outranked : Option (Nat × Nat)
  /-- It has been handed the role over (R391). -/
  handOver : Bool
  /-- Since its takeover it has written no die: the last heartbeat before it (R390). -/
  takeFrom : Option Nat
  /-- A full copy of the shared state is on its way to it. -/
  resyncing : Bool
  /-- A record of the open window did not reach its copy as sent; it has compared the digest of the last window. -/
  diverged : Bool
  compared : Bool
  deriving DecidableEq, Repr

/-- A lodge's sundial beside its registers (17 R395 to R403): the instant from which OSC_WAIT is counted, while it is;
the source under test, its last counts, newest first, and the windows it has had; the outcome of its last test; EXPECT
in 1/16,384 counts; the instant of its domains' last ramp step. -/
structure ClkSt where
  oscFrom : Option Nat
  test    : Option (Nat × List Nat × Nat)
  outcome : Option Bool
  fine    : Nat
  rampT   : Option Nat
  deriving DecidableEq, Repr

/-- A hold-over (17 R404, R405): windows ended since the first failed one, how many of the last passed in succession;
it returns; the frost has been raised. -/
structure HoldSt where
  windows : Nat
  passes  : Nat
  returns : Bool
  frost   : Bool
  deriving DecidableEq, Repr

/-- A switch of the reference (17 R398): the new source and port, the instant of SELECT, and that it reverts. -/
structure SwitchSt where
  src    : Nat
  port   : Nat
  startT : Nat
  reverts : Bool
  deriving DecidableEq, Repr

/-- A lodge as start-up leaves it, beside its registers (19): the step of Table 19.1 in progress (0: none) and when it
began; it has stopped at that step; its strap samples; the public key of its identity; SEC_VERSION of the loader,
gatehouse firmware, keeper firmware and certificate in force; a counter advance in progress. -/
structure LodgeSt where
  step    : Nat
  stepT   : Nat
  stopped : Bool
  straps  : Straps
  ident   : Option Nat
  loaderVer : Option Nat
  ghVer   : Option Nat
  fwVer   : Option Nat
  certVer : Option Nat
  advance : Option (Nat × Nat)
  deriving DecidableEq, Repr

/-- An access that a PCIe port holds until exit from DORMANT ends (20 R449). -/
inductive HeldReq where
  | write (w : WriteAccess)
  | read (src : Source) (addr size : Nat)
  | bar4 (port fn off : Nat) (op : MemOp) (poisoned : Bool)
  | bell (sq : Bool) (port fn page value : Nat)
  deriving DecidableEq, Repr

/-- Supplies, power ward and dormancy beside the POWER registers (20, 21): VAUX3V3 and PWRGD; the package-wide outputs
driven low; VIN48 within Table 21.6; the last 255 ward ticks, newest first; the duty has changed since the last chime; the
last readings of the 36 sensors in 0.25 °C; an emergency stop has come since PWRGD rose; PWRGD rose while a junction
was hot after one; its cause as gatehouse SRAM keeps it for the next start; Obotil ports recorded at entry to DORMANT; the
instant that entry completed; host accesses held. -/
structure PwrSt where
  vaux    : Bool
  pwrgd   : Bool
  thermTrip : Bool
  alert   : Bool
  frost   : Bool
  vinRoc  : Bool
  ticks   : List Nat
  dutyMoved : Bool
  temps   : List Nat
  stopped : Bool
  hotStart : Bool
  cause   : Option Nat
  ports   : Nat
  entered : Nat
  held    : List HeldReq
  deriving DecidableEq, Repr

/-- The patrol scrubbers (18 R420): the next unit by stack and by die, those that have completed the pass in progress,
and the instants at which the last pass of each began. -/
structure ScrubSt where
  hbmPos  : Tbl Nat
  hbmDone : List Nat
  hbmT    : Option Nat
  sramPos : Tbl Nat
  sramDone : List Nat
  sramT   : Option Nat
  deriving DecidableEq, Repr

/-- The memories that the hedge code guards and that hold bytes. -/
inductive Mem where
  | hbm | gh | bench
  deriving DecidableEq, Repr

/-- The whole device. A register field whose value is read in a register has its home in `regs`; the other fields
hold what no register shows. -/
structure Dev where
  /-- The instant of the last command, in 1/64 ns (entry 2). -/
  now      : Nat
  /-- What has left the block, oldest first. -/
  sent     : List Out
  /-- How many free values have been taken: the model's own field (entry 4). -/
  freeCnt  : Nat
  /-- Registers by canonical BAR0 address, where they differ from `regReset`. -/
  regs     : Tbl Word
  /-- The documented values of reserved-live bits, by canonical register address, where start-up calibration left others than
  the reset values (04 R100). -/
  rsvlDoc  : Tbl Word
  /-- The write that each posted block has accepted and not applied, by block base (04 R101). -/
  posted   : Tbl (Option PWrite)
  /-- Device HBM by 40-bit address (10 R234), glasshouses by die · 2^26 + offset (09 R229), benches by
  (die · 68 + plot) · 2^19 + offset (09 R213). -/
  hbm      : List Host.Cell
  gh       : List Host.Cell
  bench    : List Host.Cell
  /-- Seed-tray entries that something has written, by (die · 4 + sieve) · 2^18 + index (11 R276); and by Sieve the occasion
  that left the others undefined, counted from 1 (11 R278). -/
  tray     : Tbl (Option DWord)
  trayFree : Tbl Nat
  /-- Hedge syndromes of stored 64-bit words, by memory · 2^44 + word index (18 R414). -/
  synd     : Tbl (BitVec 8)
  /-- Corrected words whose rewrite has not taken place, same keys (18 R421). -/
  rewrites : List Nat
  /-- The clock enables in effect, by CLKEN register offset (17 R410). -/
  clkOn    : Tbl Word
  /-- Plots (die · 68 + plot) whose array failed, and that passed it but failed the defined-summation test, in the
  repair map in force (07 R198, 19 R433); and those recorded in service for the next full load (07 R190). -/
  arrFail  : List Nat
  defFail  : List Nat
  arrNew   : List Nat
  defNew   : List Nat
  chime    : ChimeSt
  /-- Beds of the image in force, by bed number. -/
  beds     : Tbl (Option Bed)
  /-- Items issued and not retired, in issue order. -/
  items    : List Item
  itemSeq  : Nat
  /-- Items of opened windows that are still to issue, in the order of their dies' sequencers; by die the instant from which its
  sequencer is free. -/
  toIssue  : List Issue
  shedFree : Tbl Nat
  loader   : LoaderSt
  /-- Owner key slots enrolled at start-up (19 R436). -/
  owners   : List OwnerSlot
  /-- Bases of the blocks of engines and glasshouse banks that failed BIST (19 R433). -/
  engFail  : List Nat
  plots    : Tbl PlotSt
  furs     : Tbl Furrow
  rills    : Tbl RillSt
  sieves   : Tbl SieveSt
  mowers   : Tbl MowerSt
  claimed  : List ClaimedSlot
  taken    : List TakenBarrow
  log      : List LogEntry
  /-- Queue contexts of 64 bytes by queue number, byte 0 lowest (15 R364, R365). -/
  queues   : Tbl (BitVec 512)
  hostCmds : List HostCmd
  /-- PCIe functions by FUNC (15 R364), their MSI-X entries by FUNC · 2048 + vector, and pending messages. -/
  fns      : Tbl FnSt
  msix     : Tbl MsixEntry
  msixPend : List Nat
  pcie0    : PciePort
  pcie1    : PciePort
  /-- VF register blocks by FUNC · 128 + offset (15 R367). -/
  vfRegs   : Tbl Word
  /-- Obotil ports; gates; gate commands that complete; barrier groups (14). -/
  ports    : Tbl PortSt
  gates    : Tbl GateSt
  gateWaits : List GateWait
  bars     : Tbl BarSt
  /-- The number of the next message, WTAG or other tag that the device makes. -/
  msgId    : Nat
  /-- Lodge 1's copies of the writer epochs, by bed (14 R351); lodge 0's are in OB_WEPOCH. WADVANCE items with the
  lodge that has applied them. -/
  wepochs  : Tbl Nat
  wadvanced : List (Nat × Nat)
  /-- TRUG commands that wait for their input; bucket instances, oldest first (13). -/
  trugWait : List TrugRun
  trugs    : List TrugInst
  /-- Agents whose request was lost with an uncorrectable header: they wait until their bed stops (18 Table 18.3). -/
  lost : List Agent
  /-- The CHIME_OUT contact (02 R41). -/
  chimeOut : Bool
  /-- By lodge: warden arbitration (16), sundial (17), start-up and security (19). -/
  wards    : Tbl WardSt
  clks     : Tbl ClkSt
  lodges   : Tbl LodgeSt
  /-- The hold-over and the switch of the reference in progress (17). -/
  hold     : Option HoldSt
  switch   : Option SwitchSt
  /-- Supplies, power ward and dormancy (20, 21); patrol scrub (18). -/
  pwr      : PwrSt
  /-- The instant each stack's present training attempt began (19 R431). -/
  trainT   : Tbl Nat
  scrub    : ScrubSt
  deriving DecidableEq, Repr

/-- The chime generator out of reset. -/
def ChimeSt.start : ChimeSt := ⟨0#64, false, 0, false, 0, [], 0#32, 0, 0, 0, []⟩
/-- The loader idle. -/
def LoaderSt.start : LoaderSt := ⟨none, 0, none, 0, 0, 0, false, none⟩
/-- A plot with nothing in its array, banks and file. -/
def PlotSt.start : PlotSt := ⟨[], [], [], none, none, 0, none, [], [], (0, 0, 0, 0), none, false, false, 0, false, none, 0, [], (0, 0)⟩
/-- A furrow of size 0. -/
def Furrow.start : Furrow := ⟨0, 0, 0, 0, 0, [], [], [], [], none, ⟨0, 0, [], []⟩⟩
/-- An idle rill. -/
def RillSt.start : RillSt := ⟨none, [], [], none⟩
/-- An idle Sieve. -/
def SieveSt.start : SieveSt := ⟨none, none, 0, [], []⟩
/-- An idle Mower. -/
def MowerSt.start : MowerSt := ⟨none, []⟩
/-- A PCIe port out of reset: no VFs; BAR4 at its smallest size (DESIGN CHOICE, entry 13). -/
def PciePort.start : PciePort := ⟨false, 0, false, 36, []⟩

/-- No flit of any class. -/
def Counts.zero : Counts := ⟨0, 0, 0, 0⟩
/-- An Obotil port before training. -/
def PortSt.start : PortSt where
  txq := []
  short := []
  cur := []
  replay := []
  seq := 0
  resend := none
  sent := .zero
  partner := .zero
  expect := 0
  nak := none
  nakSent := false
  freed := .zero
  linked := .zero
  since := 0
  sinceT := 0
  timer := 0
  replays := 0
  fails := 0
  gaps := 0
  viol := none
  rx := []
/-- A gate UNLOADED (14 R346). -/
def GateSt.start : GateSt := ⟨0, 0, []⟩
/-- A barrier group at rest. -/
def BarSt.start : BarSt := ⟨[], [], []⟩

/-- The arbitration of a lodge before its firmware runs. -/
def WardSt.start : WardSt where
  seen := 0
  lastHb := none
  gotHb := false
  hbT := none
  hb := none
  claim := none
  answers := []
  rej := none
  outranked := none
  handOver := false
  takeFrom := none
  resyncing := false
  diverged := false
  compared := false
/-- A sundial that has judged nothing. -/
def ClkSt.start : ClkSt := ⟨none, none, none, 0, none⟩
/-- A lodge before start-up. -/
def LodgeSt.start : LodgeSt := ⟨0, 0, false, ⟨0, 0, 0⟩, none, none, none, none, none, none⟩
/-- Nothing supplied, nothing measured. -/
def PwrSt.start : PwrSt where
  vaux := false
  pwrgd := false
  thermTrip := false
  alert := false
  frost := false
  vinRoc := false
  ticks := []
  dutyMoved := false
  temps := []
  stopped := false
  hotStart := false
  cause := none
  ports := 0
  entered := 0
  held := []
/-- Scrubbers at the beginning of their first pass. -/
def ScrubSt.start : ScrubSt := ⟨[], [], none, [], [], none⟩

/-- The device before VAUX3V3 has been applied. -/
def Dev.start : Dev where
  now := 0
  sent := []
  freeCnt := 0
  regs := []
  rsvlDoc := []
  posted := []
  hbm := []
  gh := []
  bench := []
  tray := []
  trayFree := []
  synd := []
  rewrites := []
  clkOn := []
  arrFail := []
  defFail := []
  arrNew := []
  defNew := []
  chime := .start
  beds := []
  items := []
  itemSeq := 0
  toIssue := []
  shedFree := []
  loader := .start
  owners := []
  engFail := []
  plots := []
  furs := []
  rills := []
  sieves := []
  mowers := []
  claimed := []
  taken := []
  log := []
  queues := []
  hostCmds := []
  fns := []
  msix := []
  msixPend := []
  pcie0 := .start
  pcie1 := .start
  vfRegs := []
  ports := []
  gates := []
  gateWaits := []
  bars := []
  msgId := 0
  wepochs := []
  wadvanced := []
  trugWait := []
  trugs := []
  lost := []
  chimeOut := false
  wards := []
  clks := []
  lodges := []
  hold := none
  switch := none
  pwr := .start
  trainT := []
  scrub := .start

end Machine
end Sys2Proof
end

