-- ==== Sys2Proof/Syntax.lean ====
section
/-! DEFINITION. The commands that the DN-8 block takes from outside and the events that befall it: one constructor for
every row of the table of operations and events. The first operand of each is the instant at which it takes place,
in units of 1/64 ns (entry 2). -/
namespace Sys2Proof
open Machine

/-- The commands, in the order of the table. -/
inductive Instr where
  /-- REGISTER_WRITE (R98): A write through any alias to a register field that has no row of its own is checked under
  Table 4.4 and stored, or dropped with WDROP when its posted block is BUSY. -/
  | registerWrite (t : Nat) (w : WriteAccess)
  /-- POSTED_WRITE_APPLY (R101): A posted write accepted earlier takes effect in its block and BUSY clears. -/
  | postedWriteApply (t : Nat) (b : Blk)
  /-- CHIME_COUNT_LO_READ (R93): A read of CHIME_COUNT_LO returns the low word and latches CHIME_COUNT_HI. -/
  | chimeCountLoRead (t : Nat) (src : Source)
  /-- POWER_MEAS_READ (R93): A read of POWER_MEAS returns the readings and restarts the PEAK_W maximum. -/
  | powerMeasRead (t : Nat) (src : Source)
  /-- IDLE_BLOCK_ACCESS (R444): An access to a block whose clock IDLE has stopped returns the device to ACTIVE and
  completes within 2 µs. -/
  | idleBlockAccess (t : Nat) (write : Bool) (w : WriteAccess)
  /-- CHIME_ENABLE_SET (R474): A write that sets CHIME_CTL.ENABLE starts or resumes the chime generator from that
  instant in the selected mode. -/
  | chimeEnableSet (t : Nat) (src : Source)
  /-- CHIME_ENABLE_CLEAR (R474): A write that clears ENABLE stops the generator, keeps CHIME_COUNT, clears FREERUN and
  leaves open windows open. -/
  | chimeEnableClear (t : Nat) (src : Source)
  /-- CHIME_SOURCE_CHANGE (R40): A write that changes CHIME_CTL.SRC selects a new chime source and clears FREERUN. -/
  | chimeSourceChange (t : Nat) (src : Source) (sel : BitVec 2)
  /-- CHIME_PERIOD_WRITE (R31): A write of CHIME_PERIOD is rejected when out of range or takes effect from the first
  chime after it completes. -/
  | chimePeriodWrite (t : Nat) (src : Source) (period : BitVec 24)
  /-- CHIME (R50): A chime fires, is distributed to every point, and every bed advances, applies its overrun policy,
  halts or issues its next record. -/
  | chime (t : Nat)
  /-- CLOSING_POINT (R35): At 64 ns before the next chime the done network samples which items of the window have
  retired. -/
  | closingPoint (t : Nat)
  /-- MARKER_EMIT (R36): In LOCAL mode the device emits the marker for chime n LEAD_NS before it on the ports in
  MKR_EMIT. -/
  | markerEmit (t : Nat)
  /-- MARKER_RECEIVE (R37): A chime marker arrives on MKR_PORT, sets the fire time of its chime and is re-emitted with
  an adjusted lead. -/
  | markerReceive (t : Nat) (port : Nat) (bytes : List Byte)
  /-- MARKER_MISS (R40): When no marker has fired a chime by PERIOD_NS + TOL_NS, the device fires it from its own
  count and sets MMISS and FREERUN. -/
  | markerMiss (t : Nat)
  /-- CHIME_IN_EDGE (R469): A rising edge on CHIME_IN in PIN mode fires a chime PIN_DELAY later, or is ignored as
  early with MEARLY. -/
  | chimeInEdge (t : Nat)
  /-- CHIME_IN_MISS (R469): When no CHIME_IN edge fires a chime by PERIOD_NS + TOL_NS, the device fires it from its
  own count and free-runs. -/
  | chimeInMiss (t : Nat)
  /-- HELD_ITEM_ISSUE (R45): An item held because its engine was at its pending limit is issued in the lattice cycle
  after that engine retires an item. -/
  | heldItemIssue (t : Nat) (die : Nat) (kind : Kind) (unit : Nat)
  /-- BED_RUN_SET (R58): Setting RUN starts or resumes the bed at the first chime at least 256 ns after the write. -/
  | bedRunSet (t : Nat) (src : Source) (die : Nat) (slot : Nat)
  /-- BED_RUN_CLEAR (R58): Clearing RUN makes the bed stop issue and become IDLE at the next chime after the current
  window completes. -/
  | bedRunClear (t : Nat) (src : Source) (die : Nat) (slot : Nat)
  /-- TRELLIS_LOAD (R77): CMD = LOAD starts a full load of the staged image, which is refused if the loader is busy or
  beds are running. -/
  | trellisLoad (t : Nat) (src : Source)
  /-- TRELLIS_LOAD_DONE (R80): A full load ends with DONE, assigning bed slots and clearing bed state, or with ERR
  leaving the previous configuration. -/
  | trellisLoadDone (t : Nat)
  /-- TRELLIS_REPLANT (R84): CMD = REPLANT starts the replant of one bed in phase VERIFY while the bed keeps running.
  -/
  | trellisReplant (t : Nat) (src : Source) (bed : BitVec 6)
  /-- REPLANT_ARMED (R84): VERIFY ends and the replant arms, waiting for the next chime or going straight to CONFIG
  for an IDLE or HALTED bed. -/
  | replantArmed (t : Nat)
  /-- REPLANT_DRAIN_END (R84): The drain ends when the bed's issued items all retire, or at the following chime, and
  CONFIG begins. -/
  | replantDrainEnd (t : Nat)
  /-- REPLANT_CONFIG_END (R85): CONFIG ends, the bed is reconfigured and resumes at record START or stays IDLE, and
  TRELLIS_REPLANT_LAT is set. -/
  | replantConfigEnd (t : Nat)
  /-- TRELLIS_ABORT (R88): CMD = ABORT abandons a load or replant in VERIFY or ARMED with ABORTED, and has no effect
  in DRAIN or CONFIG. -/
  | trellisAbort (t : Nat) (src : Source)
  /-- PASS_ISSUE (R181): A plot accepts a PASS item or refuses it on the first failing check and halts the bed. -/
  | passIssue (t : Nat) (die : Nat) (plot : Nat)
  /-- STATIONARY_LOAD (R175): A LOAD = 1 pass loads its tile into the shadow bank once the item is accepted and the
  bank is free. -/
  | stationaryLoad (t : Nat) (die : Nat) (plot : Nat)
  /-- STATIONARY_LOAD_DONE (R175): The stationary load ends and the pass may begin. -/
  | stationaryLoadDone (t : Nat) (die : Nat) (plot : Nat)
  /-- PASS_START (R171): Vector 0 of a pass begins to enter the array and the travelling bank swap begins. -/
  | passStart (t : Nat) (die : Nat) (plot : Nat)
  /-- MOVING_VECTOR_ARRIVE (R480): A moving vector enters a plot's array and, with FWD set, is written into the
  successor's furrow. -/
  | movingVectorArrive (t : Nat) (die : Nat) (plot : Nat)
  /-- PASS_RETIRE (R173): A pass writes its last result and retires, marking outputs filled, advancing tails and
  posting its barrow. -/
  | passRetire (t : Nat) (die : Nat) (plot : Nat)
  /-- PASS_ABANDON (R187): A lane mismatch, finish mismatch or uncorrectable word abandons the pass and every pass
  behind it with VOID barrows. -/
  | passAbandon (t : Nat) (die : Nat) (plot : Nat) (what : Detect)
  /-- RETEST_END (R189): The retest ends and its outcome takes effect: replay, DEGRADED with aligned replay, or FAILED
  with a halt. -/
  | retestEnd (t : Nat) (die : Nat) (plot : Nat) (result : RetestResult)
  /-- PREEMPT (R184): CMD = PREEMPT puts the plot into PREEMPTING so that it starts no further pass. -/
  | preempt (t : Nat) (src : Source) (die : Nat) (plot : Nat)
  /-- PREEMPT_BOUNDARY (R184): The plot reaches its pass boundary and spills the committed accumulator file, or sets
  SPILL_SHORT. -/
  | preemptBoundary (t : Nat) (die : Nat) (plot : Nat)
  /-- ACC_SPILL_DONE (R184): The 32 KiB spill completes and the plot enters PREEMPTED. -/
  | accSpillDone (t : Nat) (die : Nat) (plot : Nat)
  /-- RESUME (R186): CMD = RESUME in PREEMPTED restores the file from the spill furrow. -/
  | resume (t : Nat) (src : Source) (die : Nat) (plot : Nat)
  /-- ACC_RESTORE_DONE (R186): The accumulator restore completes and the plot returns to RUN. -/
  | accRestoreDone (t : Nat) (die : Nat) (plot : Nat)
  /-- RETEST (R189): CMD = RETEST in IDLE or PREEMPTED runs the retest and invalidates banks and accumulator file. -/
  | retest (t : Nat) (src : Source) (die : Nat) (plot : Nat)
  /-- TRANSPOSE_BLOCK_EMIT (R206): A turnstile block buffer becomes complete and the turnstile begins to emit its 64
  transposed vectors. -/
  | transposeBlockEmit (t : Nat) (die : Nat) (rill : Nat)
  /-- BENCH_ACCESS_ISSUE (R222): A bench access whose scoreboard condition has cleared issues and claims its furrow
  range. -/
  | benchAccessIssue (t : Nat) (a : BenchAccess)
  /-- LATTICE_BENCH_REQUEST (R224): A lattice request arrives at a bench and is issued, stalled in the buffer or
  answered with a retry. -/
  | latticeBenchRequest (t : Nat) (a : BenchAccess) (upset : Upset)
  /-- BENCH_REQUEST_RESEND (R224): An agent resends a retried bench request no sooner than 64 lattice cycles later. -/
  | benchRequestResend (t : Nat) (a : BenchAccess)
  /-- CE_REWRITE (R421): A corrected word is rewritten in its bank's next free cycle unless a newer write has arrived.
  -/
  | ceRewrite (t : Nat) (word : Nat)
  /-- FURROW_RESET (R227): FUR_CTL.CMD = RESET returns all furrow pointers to base and clears fill bits, or is ignored
  with FUR_WR_IGN. -/
  | furrowReset (t : Nat) (src : Source) (die : Nat) (plot : Nat) (fur : Nat)
  /-- FUR_CFG_WRITE (R227): A FUR_CFG write resets the furrow when the bed is IDLE or HALTED, or is ignored with
  FUR_WR_IGN or FUR_CFG_BAD. -/
  | furCfgWrite (t : Nat) (src : Source) (die : Nat) (plot : Nat) (fur : Nat) (data : Word)
  /-- GLASSHOUSE_REQUEST (R230): A request reaches a glasshouse bank port and is served by dry-time order or refused
  outside the bed's regions. -/
  | glasshouseRequest (t : Nat) (die : Nat) (bank : Nat) (reqs : List MemReq)
  /-- HBM_REQUEST (R253): A request reaches an HBM pseudo-channel queue and is served earliest deadline first. -/
  | hbmRequest (t : Nat) (stack : Nat) (pc : Nat) (reqs : List MemReq)
  /-- RILL_DESC_START (R244): A rill engine takes its next descriptor, checks it and either refuses it or begins its
  requests. -/
  | rillDescStart (t : Nat) (die : Nat) (rill : Nat)
  /-- BARROW_CLAIM (R250): A producer claims the next slot of its queue when the outstanding count is below LIMIT. -/
  | barrowClaim (t : Nat) (agent : Agent) (q : Nat)
  /-- BARROW_POST (R246): A barrow is posted when its data is complete at the destination, advancing the slot GEN. -/
  | barrowPost (t : Nat) (agent : Agent) (q : Nat) (b : BarrowArg)
  /-- BARROW_TAKE (R250): A consumer takes the next posted barrow, checking its GEN, VOID and POISONED marks. -/
  | barrowTake (t : Nat) (agent : Agent) (q : Nat)
  /-- BARROW_RELEASE (R250): A consumer releases a slot when it has finished with the data. -/
  | barrowRelease (t : Nat) (agent : Agent) (q : Nat)
  /-- RILL_FAULT (R256): A translation fails for an element; the rill holds the barrow, records the cursor and enters
  FAULT_WAIT. -/
  | rillFault (t : Nat) (die : Nat) (rill : Nat) (kind : RillFaultKind)
  /-- PAGE_REQUEST_RESPONSE (R257): A PCIe page response arrives; on Success the rill translates again, otherwise the
  fault is unrecoverable. -/
  | pageRequestResponse (t : Nat) (req : Requester) (success : Bool)
  /-- RILL_RESUME (R258): CMD = RESUME resumes the faulted rill at the cursor element. -/
  | rillResume (t : Nat) (src : Source) (die : Nat) (rill : Nat)
  /-- RILL_FAIL (R258): CMD = FAIL makes the device-virtual fault unrecoverable with VIRT_FAULT. -/
  | rillFail (t : Nat) (src : Source) (die : Nat) (rill : Nat)
  /-- RILL_CANCEL (R262): CMD = CANCEL, a bed halt or a replant CONFIG puts the rill into CANCELLING and withdraws its
  work. -/
  | rillCancel (t : Nat) (src : Source) (die : Nat) (rill : Nat)
  /-- CANCEL_DONE (R263): A cancel completes with the rill IDLE and CANCEL_DONE set. -/
  | cancelDone (t : Nat) (die : Nat) (rill : Nat)
  /-- INVAL (R236): CMD = INVAL discards the rill's cached device-virtual translations. -/
  | inval (t : Nat) (src : Source) (die : Nat) (rill : Nat)
  /-- SIEVE_ISSUE (R284): A Sieve accepts a SIEVE command or refuses it on the first failure and halts the bed. -/
  | sieveIssue (t : Nat) (die : Nat) (sieve : Nat)
  /-- SIEVE_START (R285): A Sieve command begins once its inputs are filled. -/
  | sieveStart (t : Nat) (die : Nat) (sieve : Nat)
  /-- SIEVE_RETIRE (R286): A Sieve command retires, marking outputs filled, releasing inputs and posting one barrow.
  -/
  | sieveRetire (t : Nat) (die : Nat) (sieve : Nat) (rows : Nat)
  /-- TRAY_CLEAR (R278): SIEVE_CTL.CMD = TRAY_CLEAR starts writing +0 to every tray entry when the Sieve is IDLE. -/
  | trayClear (t : Nat) (src : Source) (die : Nat) (sieve : Nat)
  /-- TRAY_CLEAR_DONE (R278): The tray clear completes after 32,768 core cycles. -/
  | trayClearDone (t : Nat) (die : Nat) (sieve : Nat)
  /-- SIEVE_TRAY_WRITE (R276): A write of SIEVE_TRAY_B while IDLE stores the whole tray entry at SIEVE_TRAY_IDX. -/
  | sieveTrayWrite (t : Nat) (src : Source) (die : Nat) (sieve : Nat) (data : Word)
  /-- MOWER_ISSUE (R303): A Mower accepts a MOWER command or refuses it on the first failure and halts the bed. -/
  | mowerIssue (t : Nat) (die : Nat)
  /-- NORM (R291): NORM forms the long-accumulator image of the sum of squares of its gradient shard. -/
  | mowerNorm (t : Nat) (die : Nat)
  /-- UPDATE (R295): UPDATE checks tags, evaluates the step, and writes clipped-descent masters and the working copy.
  -/
  | mowerUpdate (t : Nat) (die : Nat) (blocks : Nat)
  /-- COPY (R296): COPY writes the working copy from the stored masters. -/
  | mowerCopy (t : Nat) (die : Nat) (blocks : Nat)
  /-- ADOPT (R293): CMD = ADOPT sets MOW_STEP to the tags' STEP and runs the held update. -/
  | mowerAdopt (t : Nat) (src : Source) (die : Nat)
  /-- DISCARD (R293): CMD = DISCARD retires the held update without writing and posts an empty barrow. -/
  | mowerDiscard (t : Nat) (src : Source) (die : Nat)
  /-- MOWER_RETIRE (R294): A Mower command retires, posting its barrow and advancing MOW_STEP when END_STEP is set. -/
  | mowerRetire (t : Nat) (die : Nat)
  /-- MOWER_MIRROR_WRITE (R301): A write of an Almanac or clip register is applied at the lowest Mower and copied to
  the bed's others, or ignored. -/
  | mowerMirrorWrite (t : Nat) (src : Source) (die : Nat) (off : Nat) (data : Word)
  /-- TRUG_ISSUE (R312): The Trug engine accepts a TRUG command or refuses it and halts the bed. -/
  | trugIssue (t : Nat) (bed : Nat)
  /-- TRUG_START (R311): A Trug command starts when it takes its input barrow and sends its contributions. -/
  | trugStart (t : Nat) (bed : Nat)
  /-- TRUG_PACKET_RECEIVE (R320): A Trug packet arrives, is matched to a bucket instance, summed in the fixed order or
  staged. -/
  | trugPacketReceive (t : Nat) (port : Nat)
  /-- TRUG_INSTANCE_CLOSE (R320): The owner writes its shard, tag and barrow and the bucket instance closes. -/
  | trugInstanceClose (t : Nat) (grp : Nat) (bucket : Nat)
  /-- PURGE (R327): CMD = PURGE closes every open instance of the group and discards its staged packets. -/
  | trugPurge (t : Nat) (src : Source) (grp : Nat)
  /-- GROUP_VALIDATE (R307): Writing TRUG_GRP_CTL.VALID = 1 checks the member table and sets VALID and SELF or
  GRP_BAD. -/
  | groupValidate (t : Nat) (src : Source) (grp : Nat)
  /-- LINK_ENABLE (R331): Setting OB_CTL.ENABLE starts training of the port. -/
  | linkEnable (t : Nat) (src : Source) (port : Nat)
  /-- LINK_TRAIN_DONE (R331): Training or retraining completes, the peer identity and link delay are recorded and the
  port is UP. -/
  | linkTrainDone (t : Nat) (port : Nat) (dev : Nat) (node : Nat) (delay : Nat) (width : Nat)
  /-- RETRAIN (R343): OB_CTL.CMD = RETRAIN retrains the port. -/
  | portRetrain (t : Nat) (src : Source) (port : Nat)
  /-- DOWN (R343): OB_CTL.CMD = DOWN takes the port down. -/
  | portDown (t : Nat) (src : Source) (port : Nat)
  /-- CLEAR (R357): OB_CTL.CMD = CLEAR resets the port counters. -/
  | portClear (t : Nat) (src : Source) (port : Nat)
  /-- FLIT_TRANSMIT (R337): At a quarter or flit boundary the transmit scheduler sends a short, LINK, DATA or IDLE
  flit. -/
  | flitTransmit (t : Nat) (port : Nat)
  /-- DATA_FLIT_RECEIVE (R342): A DATA flit arrives and is accepted, NAKed or discarded by its sequence distance. -/
  | dataFlitReceive (t : Nat) (port : Nat) (bytes : List Byte)
  /-- LINK_FLIT_RECEIVE (R344): A LINK flit updates acknowledgements and credits, and a NAK triggers replay. -/
  | linkFlitReceive (t : Nat) (port : Nat) (bytes : List Byte)
  /-- REPLAY_TIMEOUT (R343): With no acknowledgement advance for 1 µs the port replays from the oldest, and retrains
  or goes DOWN after repeats. -/
  | replayTimeout (t : Nat) (port : Nat)
  /-- GATE_WRITE (R347): A WRITE message is checked at the gate engine and applied with WRITE_ACK or refused with
  WRITE_NACK. -/
  | gateWrite (t : Nat) (port : Nat)
  /-- WRITE_ACK (R347): A WRITE_ACK arrives and completes the writer's gate write. -/
  | gateWriteAck (t : Nat) (port : Nat)
  /-- WRITE_NACK (R349): A WRITE_NACK arrives and the writer's rill faults with GATE_CLOSED. -/
  | gateWriteNack (t : Nat) (port : Nat)
  /-- LOAD (R346): Gate command LOAD reads and checks the gate entry and latches the gate with its epoch. -/
  | gateLoad (t : Nat) (src : Source) (gate : Nat)
  /-- OPEN (R346): Gate command OPEN opens a LATCHED gate. -/
  | gateOpen (t : Nat) (by_ : GateBy) (gate : Nat)
  /-- LATCH (R348): Gate command LATCH latches an open gate and completes when earlier accepted writes complete. -/
  | gateLatch (t : Nat) (by_ : GateBy) (gate : Nat)
  /-- ADVANCE (R346): Gate command ADVANCE increments the gate epoch and opens the gate. -/
  | gateAdvance (t : Nat) (by_ : GateBy) (gate : Nat)
  /-- UNLOAD (R346): Gate command UNLOAD returns a LATCHED gate to UNLOADED. -/
  | gateUnload (t : Nat) (src : Source) (gate : Nat)
  /-- GATE_CMD_COMPLETE (R348): A LATCH, ADVANCE or UNLOAD completes once every earlier checked write is complete,
  retiring its item. -/
  | gateCmdComplete (t : Nat) (gate : Nat)
  /-- WADVANCE (R351): An OBOTIL WADVANCE item increments the bed's writer epoch in each lodge and retires when both
  applied it. -/
  | wadvance (t : Nat) (bed : Nat) (l : Nat)
  /-- BARRIER (R354): A BARRIER item issues; the leader sends ARRIVE and a member forwards a held ARRIVE. -/
  | barrier (t : Nat) (bed : Nat)
  /-- BARRIER_TOKEN_RECEIVE (R354): A barrier token arrives, is answered with SACK and forwarded, held, or discarded
  as duplicate. -/
  | barrierTokenReceive (t : Nat) (port : Nat) (bytes : List Byte)
  /-- SACK_RECEIVE (R355): A SACK arrives and stops retransmission of its token. -/
  | sackReceive (t : Nat) (port : Nat) (bytes : List Byte)
  /-- TOKEN_RETRANSMIT (R355): A token without SACK for 100 ns is retransmitted. -/
  | tokenRetransmit (t : Nat) (group : Nat)
  /-- CONFIG_REQUEST (R360): A PCIe configuration request is answered, or given Request Retry Status before READY. -/
  | configRequest (t : Nat) (port : Nat) (fn : Nat) (op : ConfigOp)
  /-- BAR4_ACCESS (R362): A host access through BAR4 reads or writes device HBM unchecked against partitions. -/
  | bar4Access (t : Nat) (port : Nat) (fn : Nat) (off : Nat) (op : MemOp) (poisoned : Bool)
  /-- SQ_TAIL_DOORBELL (R368): A write of the SQ_TAIL doorbell advances the submission tail or is dropped. -/
  | sqTailDoorbell (t : Nat) (port : Nat) (fn : Nat) (page : Nat) (value : BitVec 16)
  /-- CQ_HEAD_DOORBELL (R369): A write of the CQ_HEAD doorbell frees completion slots or puts the queue into ERROR. -/
  | cqHeadDoorbell (t : Nat) (port : Nat) (fn : Nat) (page : Nat) (value : BitVec 16)
  /-- COMMAND_FETCH (R370): The queue engine fetches and starts the next command when it may. -/
  | commandFetch (t : Nat) (q : Nat) (bytes : List Byte)
  /-- NOP (R370): Host command NOP completes at once. -/
  | hostNop (t : Nat) (q : Nat) (cid : Nat)
  /-- HOST_COPY (R370): Host command COPY moves bytes between host, HBM and glasshouse. -/
  | hostCopy (t : Nat) (q : Nat) (cid : Nat)
  /-- BED_RUN (R370): Host command BED_RUN writes RUN of the bed at its lowest die. -/
  | hostBedRun (t : Nat) (q : Nat) (cid : Nat)
  /-- TRELLIS (R370): Host command TRELLIS stages a load or replant and completes when the loader is IDLE. -/
  | hostTrellis (t : Nat) (q : Nat) (cid : Nat)
  /-- WAIT_CHIME (R370): Host command WAIT_CHIME completes at the first chime numbered at least ARG0. -/
  | hostWaitChime (t : Nat) (q : Nat) (cid : Nat)
  /-- WAIT_WINDOWS (R370): Host command WAIT_WINDOWS completes when the bed's window count reaches ARG1. -/
  | hostWaitWindows (t : Nat) (q : Nat) (cid : Nat)
  /-- FIRMWARE (R370): A FIRMWARE opcode is passed to keeper firmware or completed UNSUPPORTED. -/
  | hostFirmware (t : Nat) (q : Nat) (cid : Nat) (status : Nat) (result : Nat)
  /-- COMPLETION_WRITE (R371): A completion is written to slot CQ_TAIL when there is room, and the vector may be
  raised. -/
  | completionWrite (t : Nat) (q : Nat) (cid : Nat)
  /-- READ (R365): QCTX_CMD = READ snapshots the selected queue context into QCTX_DATA. -/
  | qctxRead (t : Nat) (src : Source)
  /-- WRITE (R365): QCTX_CMD = WRITE installs the context at one instant, or refuses it with REJ_CAUSE. -/
  | qctxWrite (t : Nat) (src : Source)
  /-- ABORT_ALL (R373): QCTX_CMD = ABORT_ALL ends every outstanding command of the queue with ABORTED. -/
  | qctxAbortAll (t : Nat) (src : Source)
  /-- RESET (R373): QCTX_CMD = RESET sets an acceptable queue to KIND 0, or is refused with BUSY. -/
  | qctxReset (t : Nat) (src : Source)
  /-- QUEUE_BED_VEC_WRITE (R374): A write of QUEUE_BED_VEC is checked as a context write and refused with VECTOR if it
  names a reserved vector. -/
  | queueBedVecWrite (t : Nat) (src : Source) (bed : Nat) (data : Word)
  /-- VF_ENABLE (R375): Setting VF Enable checks the vector total and instantiates the VFs or sets VEC_OVER. -/
  | vfEnable (t : Nat) (port : Nat) (num : Nat)
  /-- FUNCTION_LEVEL_RESET (R377): An FLR or clearing VF Enable aborts and resets the function's queues and disables
  its vectors. -/
  | functionLevelReset (t : Nat) (port : Nat) (fn : Nat) (vfs : Bool)
  /-- PERST (R377): PERST_N or a Hot Reset resets every function of its port. -/
  | perst (t : Nat) (port : Nat)
  /-- HEARTBEAT_SEND (R382): Every 1 µs a lodge sends its heartbeat with epoch, preference and echo digest. -/
  | heartbeatSend (t : Nat) (l : Nat)
  /-- HEARTBEAT_RECEIVE (R382): A heartbeat arrives from the other lodge. -/
  | heartbeatReceive (t : Nat) (l : Nat)
  /-- ECHO_RECORD (R392): The standby applies a record of a warden state change to its own copy. -/
  | echoRecord (t : Nat) (l : Nat) (ok : Bool)
  /-- RESYNC_DONE (R392): The full copy of shared state completes and SYNC returns to SYNCED. -/
  | resyncDone (t : Nat) (l : Nat)
  /-- HEARTBEAT_TIMEOUT (R383): With no heartbeat for 8 µs and TAKEOVER_EN set, the standby claims the warden role at
  epoch E + 1. -/
  | heartbeatTimeout (t : Nat) (l : Nat)
  /-- ELECTION (R386): At start-up a lodge enters ELECTING and claims epoch 1. -/
  | election (t : Nat) (l : Nat)
  /-- CLAIM_RECEIVE (R384): A die receives a claim and answers ACK or REJ by comparing it with its held pair. -/
  | claimReceive (t : Nat) (die : Nat) (l : Nat)
  /-- CLAIM_ANSWER (R385): A die's ACK or REJ reaches the claiming lodge. -/
  | claimAnswer (t : Nat) (l : Nat) (die : Nat)
  /-- CLAIM_RESOLVE (R385): Within 1 µs a claim succeeds on five ACKs without REJ, fails on a REJ, or is repeated. -/
  | claimResolve (t : Nat) (l : Nat)
  /-- CLAIM_REPEAT (R385): An unresolved claim is repeated at the same epoch every 4 µs. -/
  | claimRepeat (t : Nat) (l : Nat)
  /-- DIE_CONTROL_WRITE (R387): A control write reaches a parterre die and is applied, or refused with REJ if its pair
  is outranked. -/
  | dieControlWrite (t : Nat) (l : Nat) (epoch : Nat) (w : WriteAccess)
  /-- WARDEN_FENCE (R388): A lodge that receives a REJ or an outranking pair fences itself within 200 ns. -/
  | wardenFence (t : Nat) (l : Nat)
  /-- YIELD (R391): WARDEN_CTL.CMD = YIELD hands the warden role to a SYNCED standby. -/
  | wardenYield (t : Nat) (src : Source)
  /-- RESYNC (R392): WARDEN_CTL.CMD = RESYNC starts a full copy of shared state to the standby. -/
  | wardenResync (t : Nat) (src : Source)
  /-- OSC_WAIT_END (R395): The OSC_WAIT time expires and the lodge tests REFCLK_LOCAL for acceptance. -/
  | oscWaitEnd (t : Nat) (l : Nat)
  /-- SUNDIAL_WINDOW (R403): A sundial window of 1,000 INT_OSC cycles ends and its count is judged for acceptance,
  failure or return. -/
  | sundialWindow (t : Nat) (l : Nat) (count : Nat)
  /-- PLL_LOCK_DONE (R405): The PLLs complete locking to their source and the domains ramp to their target. -/
  | pllLockDone (t : Nat) (l : Nat)
  /-- SELECT (R398): CLK_CTL.CMD = SELECT starts a switch of the reference source, or is ignored with CMD_IGN. -/
  | clkSelect (t : Nat) (src : Source) (sel : BitVec 2) (port : BitVec 3)
  /-- SWITCH_PHASE_END (R398): A phase of a source switch ends and the next begins, or the switch reverts with
  SEL_FAIL. -/
  | switchPhaseEnd (t : Nat) (l : Nat)
  /-- RAMP_STEP (R401): Every 2 µs a ramped domain steps its divider one step toward its target. -/
  | rampStep (t : Nat) (l : Nat)
  /-- INT_OSC_LOSS (R408): INT_OSC produces no edge for 1 µs and the lodge asserts the emergency stop. -/
  | intOscLoss (t : Nat) (l : Nat)
  /-- FROST_CLEAR (R406): A W1C write clearing SUNDIAL_STS.FROST releases FROST_N. -/
  | frostClear (t : Nat) (src : Source)
  /-- CLKEN_WRITE (R411): A software write to a CLKEN register is applied or ignored with CLKEN_IGN. -/
  | clkenWrite (t : Nat) (src : Source) (off : Nat) (data : Word)
  /-- CLKEN_APPLY (R410): A changed clock enable takes effect within 1 µs and CLKEN_PEND clears. -/
  | clkenApply (t : Nat)
  /-- SCRUB_READ (R420): A scrubber reads the next unit of its memory and handles any error it finds. -/
  | scrubRead (t : Nat) (u : ScrubUnit)
  /-- CONTROL_STATE_MISMATCH (R419): A check of protected control state fails, halting the bed or logging FATAL. -/
  | controlStateMismatch (t : Nat) (m : Mismatch)
  /-- POP (R427): FAULT_CTL.CMD = POP removes the oldest log entry. -/
  | faultPop (t : Nat) (src : Source)
  /-- LOG_CLEAR (R427): FAULT_CTL.CMD = CLEAR removes every log entry. -/
  | faultClear (t : Nat) (src : Source)
  /-- PWRGD_RISE (R428): PWRGD rises, the straps are sampled and start-up begins. -/
  | pwrgdRise (t : Nat) (s0 : Straps) (s1 : Straps)
  /-- HBM_ATTEMPT_END (R432): A training attempt ends; a failure retrains at the next lower bin or makes the stack
  FAILED. -/
  | hbmAttemptEnd (t : Nat) (stack : Nat) (step : Nat) (cause : Nat) (rows : Nat)
  /-- ADVANCE_CTR (R438): SEC_CTL.CMD = ADVANCE_CTR raises one anti-rollback counter in the lodge's flash. -/
  | advanceCtr (t : Nat) (src : Source) (ctr : BitVec 2)
  /-- ADVANCE_CTR_DONE (R438): The counter advance completes with ADV_DONE or ADV_ERR. -/
  | advanceCtrDone (t : Nat) (l : Nat) (ok : Bool)
  /-- HINT_WRITE (R434): SEC_CTL.CMD = HINT_WRITE writes the repair map just built as a new signed hint. -/
  | hintWrite (t : Nat) (src : Source)
  /-- SPDM_REQUEST (R440): The gatehouse receives an SPDM request and answers it. -/
  | spdmRequest (t : Nat) (l : Nat) (bytes : List Byte)
  /-- POWER_ACTIVE (R443): POWER_CTL.CMD = ACTIVE returns the device to ACTIVE. -/
  | powerActive (t : Nat) (src : Source)
  /-- POWER_IDLE (R445): POWER_CTL.CMD = IDLE stops parterre engine clocks when the device is quiescent, or is
  ignored. -/
  | powerIdle (t : Nat) (src : Source)
  /-- DORMANT (R446): POWER_CTL.CMD = DORMANT begins entry to DORMANT when quiescent, or is ignored. -/
  | powerDormant (t : Nat) (src : Source)
  /-- DORMANT_ENTRY_DONE (R446): Entry to DORMANT completes with memories at retention and keepers off. -/
  | dormantEntryDone (t : Nat)
  /-- WAKE (R447): PCIe activity, an SMBus command or the wake timer begins exit from DORMANT. -/
  | powerWake (t : Nat) (how : Nat)
  /-- WAKE_TIMER (R447): The gatehouse wake timer expires TIMER_MS after entry completed. -/
  | wakeTimer (t : Nat)
  /-- DORMANT_EXIT_DONE (R448): Exit from DORMANT completes and the device is ACTIVE with its chime restarted. -/
  | dormantExitDone (t : Nat) (refOk : Bool) (fwOk : Bool)
  /-- WARD_TICK (R451): Every 10 µs the power ward averages power and adjusts its step and hold duty. -/
  | wardTick (t : Nat) (watts : Nat) (dies : List Nat)
  /-- THERMAL_READ (R453): Junction sensors are read every 10 µs and compared with WARN_C, THROTTLE_C and 115 °C. -/
  | thermalRead (t : Nat) (temps : List Nat)
  /-- EMERGENCY_STOP (R454): The core clock stops, THERM_TRIP_N is driven, regulators switch off, the cause is
  recorded and the state is OFF. -/
  | emergencyStop (t : Nat) (cause : Nat)
  /-- THERM_TRIP_INPUT (R454): The board drives THERM_TRIP_N low for 1.1 µs, causing an emergency stop. -/
  | thermTripInput (t : Nat)
  /-- VIN48_FAULT (R467): VIN48 outside 38 V to 60 V for 5 µs causes an emergency stop. -/
  | vin48Fault (t : Nat) (millivolts : Nat)
  /-- REGULATOR_FAULT (R454): A regulator reports a fault, causing an emergency stop. -/
  | regulatorFault (t : Nat)
  /-- VAUX3V3_LOSS (R455): VAUX3V3 falls below 3.0 V, stopping everything and keeping no cause. -/
  | vauxLoss (t : Nat)
  /-- PWRGD_FALL (R466): PWRGD low for 1.1 µs stops the core clock and regulators and the state becomes OFF. -/
  | pwrgdFall (t : Nat)
  /-- START_STEP_END (R428): A start-up step of Table 19.1 (gatehouse firmware, identity and loader, keeper firmware,
  BIST and repair map) completes or fails, and the next step begins or the lodge stops; the end of step 8 sets
  PARAM_STS.READY. -/
  | startStepEnd (t : Nat) (l : Nat) (r : StepResult)
  /-- LINK_TRAIN_FAIL (R343): A training or retraining attempt of an Obotil port fails, and after three successive
  failed retrains the port goes DOWN and sets LINK_DOWN. -/
  | linkTrainFail (t : Nat) (port : Nat)
  /-- PCIE_COMPLETION_RECEIVE (R260): A PCIe completion for a device-issued host read or translation request arrives,
  delivering data or faulting the requester with PCIE_CPL, HOST_FAULT, FETCH or CQ_WRITE. -/
  | pcieCompletionReceive (t : Nat) (req : Requester) (st : CplStatus) (bytes : List Byte) (ep : Bool)
  /-- KEEPER_WATCHDOG (R425): A keeper's watchdog period KEEPER_WDOG.TIMEOUT_US expires, stopping the core, setting
  its KEEPER_HALT bit and logging a KEEPER entry. -/
  | keeperWatchdog (t : Nat) (l : Nat) (core : Nat)
  /-- VAUX3V3_APPLY (R465): VAUX3V3 comes within range, INT_OSC starts, and the gatehouses and POWER block begin to
  run while the rest of the device stays OFF. -/
  | vauxApply (t : Nat)
  /-- CHIME_OUT_FALL (R41): 100 ns after a chime the device drives CHIME_OUT low again. -/
  | chimeOutFall (t : Nat)
  deriving DecidableEq, Repr

end Sys2Proof
end

