-- ==== Sys2Proof/Decode.lean ====
section
/-! DEFINITION. Commands by their words. The table of operations and events gives no row any bits: no word spells a command. -/
namespace Sys2Proof

/-- The command that `nbits` bits `w` spell by the table: none, for the table gives no row bits. -/
def decodeTableWord (_nbits _w : Nat) : Option Instr := none

end Sys2Proof
end

