-- ==== Sys2Proof/Machine/Ops.lean ====
section
/-! DEFINITION. The operations that every family of commands shares: registers by name, the reliability log and its
interrupt, MSI-X messages, memories under the hedge code, and the check of a register access (04, 15 R374, 18). -/
namespace Sys2Proof
namespace Machine

/-! ### Registers -/

/-- The word of the register at offset `o` of a block. -/
def Dev.word (d : Dev) (b : Blk) (o : Nat) : Word := Tbl.get regReset d.regs (b.base + o)

/-- The device with `w` in the register at offset `o` of a block. -/
def Dev.setWord (d : Dev) (b : Blk) (o : Nat) (w : Word) : Dev :=
  { d with regs := Tbl.set regReset d.regs (b.base + o) w }

/-- The value of a named field in instance `i` of its register. -/
def Dev.fldI (d : Dev) (b : Blk) (f : Fld) (i : Nat) : Nat := bitsOf (d.word b (f.offAt i)).toNat f.hi f.lo

/-- The value of a named field. -/
def Dev.fld (d : Dev) (b : Blk) (f : Fld) : Nat := d.fldI b f 0

/-- The device with `v` in a named field of instance `i` of its register. -/
def Dev.setFldI (d : Dev) (b : Blk) (f : Fld) (i v : Nat) : Dev :=
  d.setWord b (f.offAt i) (BitVec.ofNat 32 (putBits (d.word b (f.offAt i)).toNat f.hi f.lo v))

/-- The device with `v` in a named field. -/
def Dev.setFld (d : Dev) (b : Blk) (f : Fld) (v : Nat) : Dev := d.setFldI b f 0 v

/-- A one-bit field as a truth value. -/
def Dev.isSet (d : Dev) (b : Blk) (f : Fld) : Bool := d.fld b f != 0

/-- A counter field one higher, at most its greatest value ("saturating"). -/
def Dev.countSat (d : Dev) (b : Blk) (f : Fld) (n : Nat) : Dev :=
  d.setFld b f (min (d.fld b f + n) (2 ^ (f.hi + 1 - f.lo) - 1))

/-- A counter field `n` higher modulo its width ("wrapping"). -/
def Dev.countWrap (d : Dev) (b : Blk) (f : Fld) (n : Nat) : Dev :=
  d.setFld b f ((d.fld b f + n) % 2 ^ (f.hi + 1 - f.lo))

/-- The device after it has sent the messages `os` in order. -/
def Dev.emit (d : Dev) (os : List Out) : Dev := { d with sent := d.sent ++ os }

/-- The number of the next free value, and the device that has taken it (entry 4). -/
def Dev.takeFree (d : Dev) : Nat × Dev := (d.freeCnt, { d with freeCnt := d.freeCnt + 1 })

/-- The word of documented reserved-live bits of a register: that of its reset, or what calibration left (04 R100). -/
def Dev.documented (d : Dev) (a : Nat) : Word := Tbl.get regReset d.rsvlDoc a

/-- A reserved-live bit of the block holds a value other than the documented one, which is the one that a read returns while
none does (04 R100; DESIGN CHOICE, entry 8). -/
def Dev.altered (d : Dev) (b : Blk) : Bool :=
  let off (a : Nat) : Bool := Blk.ofAddr a == some b &&
    ((Tbl.get regReset d.regs a ^^^ d.documented a) &&& BitVec.ofNat 32 (b.rsvlAt (a % 0x10000))) != 0#32
  d.regs.any (fun e => off e.1) || d.rsvlDoc.any (fun e => off e.1)

/-- Start-up calibration leaves the reserved-live bits of a register as in `w` (04 R100). -/
def Dev.calibrate (d : Dev) (a : Nat) (w : Word) : Dev :=
  match Blk.ofAddr a with
  | none => d
  | some b =>
    let m := BitVec.ofNat 32 (b.rsvlAt (a % 0x10000))
    let put (v : Word) : Word := (v &&& ~~~m) ||| (w &&& m)
    { d with regs := Tbl.set regReset d.regs a (put (Tbl.get regReset d.regs a))
             rsvlDoc := Tbl.set regReset d.rsvlDoc a (put (regReset a)) }

/-! ### Lodges -/

/-- The warden arbitration of lodge `l`, and the device with it changed. -/
def Dev.ward (d : Dev) (l : Nat) : WardSt := Tbl.get (fun _ => WardSt.start) d.wards l
def Dev.modWard (d : Dev) (l : Nat) (f : WardSt → WardSt) : Dev :=
  { d with wards := Tbl.set (fun _ => WardSt.start) d.wards l (f (d.ward l)) }

/-- The sundial of lodge `l`, and the device with it changed. -/
def Dev.clk (d : Dev) (l : Nat) : ClkSt := Tbl.get (fun _ => ClkSt.start) d.clks l
def Dev.modClk (d : Dev) (l : Nat) (f : ClkSt → ClkSt) : Dev :=
  { d with clks := Tbl.set (fun _ => ClkSt.start) d.clks l (f (d.clk l)) }

/-- Start-up of lodge `l`, and the device with it changed. -/
def Dev.lodge (d : Dev) (l : Nat) : LodgeSt := Tbl.get (fun _ => LodgeSt.start) d.lodges l
def Dev.modLodge (d : Dev) (l : Nat) (f : LodgeSt → LodgeSt) : Dev :=
  { d with lodges := Tbl.set (fun _ => LodgeSt.start) d.lodges l (f (d.lodge l)) }

/-- Step `n` of Table 19.1 ends in lodge `l`, and step `next` begins (0: none): START_STEP and START_T_n (19 R428,
Table 19.9). -/
def Dev.endStep (d : Dev) (l n next : Nat) : Dev :=
  let x := d.lodge l
  if x.step = n ∧ x.stopped = false then
    ((d.setFld (.security l) Reg.SEC_STS.START_STEP n).setFldI (.security l) Reg.START_T.US (n - 1)
      (min ((d.now - x.stepT) / 64000) 0xFFFFFFFF)).modLodge l (fun x => { x with step := next, stepT := d.now })
  else d

/-- POWER_STS.STATE (20 Table 20.4). -/
def Dev.powerState (d : Dev) : Nat := d.fld .power Reg.POWER_STS.STATE

/-- The device in a power state (20 Table 20.1). -/
def Dev.setPower (d : Dev) (n : Nat) : Dev := d.setFld .power Reg.POWER_STS.STATE n

/-- Exit from DORMANT begins, for a wake source of Table 20.4, from DORMANT or from entry to it (20 R447). -/
def Dev.wake (d : Dev) (how : Nat) : Dev :=
  if d.powerState = 2 ∨ d.powerState = 3 then (d.setPower 4).setFld .power Reg.POWER_STS.WAKE_SRC how else d

/-- DORMANT, entering or leaving it: host accesses to the port wait until exit ends (20 R449). -/
def Dev.asleep (d : Dev) : Bool := d.powerState == 2 || d.powerState == 3 || d.powerState == 4

/-- A host access that reaches a port of a device asleep wakes it and is held (20 R447, R449). -/
def Dev.holdReq (d : Dev) (r : HeldReq) : Dev :=
  let d1 := d.wake 0
  { d1 with pwr := { d1.pwr with held := d1.pwr.held ++ [r] } }

/-! ### MSI-X (15 R374) -/

/-- A function before software has configured it. -/
def FnSt.start : FnSt := ⟨false, false⟩

/-- A table entry before software has written it: masked (PRESUMED, entry 13). -/
def MsixEntry.start : MsixEntry := ⟨0#64, 0#32, true⟩

/-- The configuration of function `f`. -/
def Dev.fn (d : Dev) (f : Nat) : FnSt := Tbl.get (fun _ => FnSt.start) d.fns f

/-- The MSI-X entry of vector `v` of function `f`. -/
def Dev.msixEntry (d : Dev) (f v : Nat) : MsixEntry := Tbl.get (fun _ => MsixEntry.start) d.msix (f * 2048 + v)

/-- Function `f` raises vector `v`: nothing while MSI-X Enable is 0; vector 0 of a PF whatever its masks; another
vector is sent, or left pending while it or its function is masked (15 R374). -/
def Dev.raiseVector (d : Dev) (f v : Nat) : Dev :=
  if !(d.fn f).msixEnable then d
  else if v = 0 ∧ f % 256 = 0 then d.emit [.msix f 0]
  else if (d.fn f).msixMask || (d.msixEntry f v).mask then
    { d with msixPend := if d.msixPend.contains (f * 2048 + v) then d.msixPend else d.msixPend ++ [f * 2048 + v] }
  else d.emit [.msix f v]

/-- Vector `v` of the PF of both ports. -/
def Dev.raiseBoth (d : Dev) (v : Nat) : Dev := (d.raiseVector 0 v).raiseVector 0x100 v

/-- The vector of bed `b`'s QUEUE_BED_VEC entry, when it is enabled (15 R376). -/
def Dev.raiseBed (d : Dev) (b : Nat) : Dev :=
  if d.fldI .queue Reg.QUEUE_BED_VEC.EN b = 0 then d
  else d.raiseVector (d.fldI .queue Reg.QUEUE_BED_VEC.FUNC b) (d.fldI .queue Reg.QUEUE_BED_VEC.VECTOR b)

/-! ### The reliability log (18 R424 to R427) -/

/-- The ns that have passed since the last chime, or since the block began when none has fired (Table 18.7). -/
def Dev.nsAfterChime (d : Dev) : Nat :=
  if d.chime.started then min ((d.now - d.chime.prev) / 64) 0xFFFFFFFF else 0

/-- The order of entries of equal time (18 R424). -/
def LogEntry.before (a b : LogEntry) : Bool :=
  decide (a.time < b.time) || (a.time == b.time &&
    (decide (a.srcDie < b.srcDie) || (a.srcDie == b.srcDie &&
      (decide (a.unit < b.unit) || (a.unit == b.unit && decide (a.instNo ≤ b.instNo))))))

/-- The entry in its place among those that follow the oldest one, which never changes before it is popped
(18 R424, R427). -/
def logInsert (e : LogEntry) : List LogEntry → List LogEntry
  | [] => [e]
  | x :: xs => if x.before e then x :: logInsert e xs else e :: x :: xs

/-- The log with one more entry. -/
def logAppend (e : LogEntry) : List LogEntry → List LogEntry
  | [] => [e]
  | x :: xs => x :: logInsert e xs

/-- The log interrupt: every keeper of both lodges, and vector 1 of each PF (18 R426). -/
def Dev.logIrq (d : Dev) : Dev := (d.emit [.keeperLogIrq]).raiseBoth 1

/-- One event reaches the log: it is appended, with its flags and interrupt, or lost to a full log (18 R424,
R426). -/
def Dev.logPush (d : Dev) (e : LogEntry) : Dev :=
  if 1024 ≤ d.log.length then
    (d.countSat .fault Reg.FAULT_LOST_CNT.COUNT 1).setFld .fault Reg.FAULT_STS.FULL 1
  else
    let d1 := { d with log := logAppend e d.log }
    let d2 := if e.sev = 3 then d1.setFld .fault Reg.FAULT_STS.FATAL 1 else d1
    if d.isSet .fault Reg.FAULT_CTL.IRQ_EN && (d.log.isEmpty || decide (2 ≤ e.sev)) then d2.logIrq else d2

/-- The events of Table 18.8 by name. -/
def Ev.access : Nat := 0x01
def Ev.ce : Nat := 0x02
def Ev.ue : Nat := 0x03
def Ev.scrubUe : Nat := 0x04
def Ev.lane : Nat := 0x05
def Ev.plot : Nat := 0x06
def Ev.ctl : Nat := 0x07
def Ev.link : Nat := 0x08
def Ev.clock : Nat := 0x09
def Ev.warden : Nat := 0x0A
def Ev.echo : Nat := 0x0B
def Ev.stepSkew : Nat := 0x0C
def Ev.halt : Nat := 0x0D
def Ev.keeper : Nat := 0x0E
def Ev.estop : Nat := 0x0F
def Ev.thermWarn : Nat := 0x10

/-- An entry reported by block `b` (Table 18.7), at the device's instant. -/
def Dev.entry (d : Dev) (b : Blk) (event sev : Nat) : LogEntry where
  event := event
  sev := sev
  srcDie := b.dieCode
  unit := b.typeCode
  instNo := b.instanceNo
  cause := 0
  syndrome := 0
  chime := if d.chime.started then d.chime.count.toNat else 0
  ns := d.nsAfterChime
  bed := 0xFF
  detail := 0
  addr := 0
  time := d.now

/-- The entry's 32 bytes as a number, byte 0 lowest (Table 18.7). -/
def LogEntry.toNat (e : LogEntry) : Nat :=
  e.event % 256 + (e.sev % 256) * 2 ^ 8 + (e.srcDie % 256) * 2 ^ 16 + (e.unit % 256) * 2 ^ 24
    + (e.instNo % 2 ^ 16) * 2 ^ 32 + (e.cause % 256) * 2 ^ 48 + (e.syndrome % 256) * 2 ^ 56
    + (e.chime % 2 ^ 64) * 2 ^ 64 + (e.ns % 2 ^ 32) * 2 ^ 128 + (e.bed % 256) * 2 ^ 160
    + (e.detail % 2 ^ 16) * 2 ^ 176 + (e.addr % 2 ^ 64) * 2 ^ 192

/-! ### Memories under the hedge code (18 R414 to R421) -/

/-- The columns of Table 18.1 by codeword bit, check bits last. -/
def hedgeColumns : List (BitVec 8) :=
  [0x01, 0x02, 0x34, 0xC4, 0x04, 0x08, 0x31, 0xC1, 0x58, 0x51, 0x32, 0x92, 0x52, 0x54, 0xC8, 0x68,
   0xA1, 0xA2, 0xA4, 0xA8, 0x91, 0xC2, 0x64, 0x38, 0x61, 0x62, 0x94, 0x98, 0xBF, 0x7F, 0x0B, 0x07]
  ++ [0x10, 0x20, 0x43, 0x4C, 0x40, 0x80, 0x13, 0x1C, 0x85, 0x15, 0x23, 0x29, 0x25, 0x45, 0x8C, 0x86,
   0x1A, 0x2A, 0x4A, 0x8A, 0x19, 0x2C, 0x46, 0x83, 0x16, 0x26, 0x49, 0x89, 0xFE, 0xFD, 0xE0, 0xD0]
  ++ [0xEF, 0xDF, 0x0E, 0x0D, 0xFB, 0xF7, 0xB0, 0x70]

/-- What a checker makes of a syndrome (18 R415): clean, corrected by inverting codeword bit `b`, or uncorrectable. -/
inductive Check where
  | clean
  | corrected (b : Nat)
  | bad
  deriving DecidableEq, Repr

/-- The codeword bit, from `b` on, whose column is the syndrome. -/
def findColumn (s : BitVec 8) : List (BitVec 8) → Nat → Option Nat
  | [], _ => none
  | h :: hs, b => if s = h then some b else findColumn s hs (b + 1)

/-- The decision of a hedge checker (18 R415). -/
def hedgeCheck (s : BitVec 8) : Check :=
  if s = 0#8 then .clean
  else match findColumn s hedgeColumns 0 with
    | some b => .corrected b
    | none => .bad

/-- A stored word with its syndrome as its checker delivers it (18 R415). -/
def checkedWord (w : BitVec 64 × BitVec 8) : BitVec 64 :=
  match hedgeCheck w.2 with
  | .corrected b => if b < 64 then w.1 ^^^ BitVec.ofNat 64 (2 ^ b) else w.1
  | _ => w.1

/-- The syndrome of the poison pattern (18 R416). -/
def poison : BitVec 8 := 0xFF#8

/-- The number of a memory in syndrome keys; the seed trays, plots' files and other 64-bit stores follow. -/
def Mem.code : Mem → Nat
  | .hbm => 0 | .gh => 1 | .bench => 2

/-- The key of word `w` of a memory in the syndrome table. -/
def Mem.word (m : Mem) (a : Nat) : Nat := m.code * 2 ^ 44 + a / 8

/-- The key of a seed-tray entry in the syndrome table. -/
def trayKey (k : Nat) : Nat := 3 * 2 ^ 44 + k

/-- The tray of Sieve `k` (die · 4 + sieve) holds nothing written: +0 for occasion 0, else what that occasion leaves (11 R278). -/
def Dev.renewTray (d : Dev) (k occasion : Nat) : Dev :=
  { d with tray := d.tray.filter (fun e => e.1 / 2 ^ 18 != k),
           trayFree := Tbl.set (fun _ => 0) (d.trayFree.filter (fun e => e.1 != k)) k occasion }

/-- What a byte that nothing has written reads as (DESIGN CHOICE, entry 5). -/
def cell0 : Nat → Byte := fun _ => 0#8

/-- The cells of a memory. -/
def Dev.cells (d : Dev) : Mem → List Host.Cell
  | .hbm => d.hbm | .gh => d.gh | .bench => d.bench

/-- The device with other cells in a memory. -/
def Dev.setCells (d : Dev) (m : Mem) (c : List Host.Cell) : Dev :=
  match m with
  | .hbm => { d with hbm := c }
  | .gh => { d with gh := c }
  | .bench => { d with bench := c }

/-- The stored byte at an address, as it stands. -/
def Dev.byte (d : Dev) (m : Mem) (a : Nat) : Byte := Tbl.get cell0 (d.cells m) a

/-- The syndrome of a stored word by its key. -/
def Dev.syndOf (d : Dev) (k : Nat) : BitVec 8 := Tbl.get (fun _ => 0#8) d.synd k

/-- The device with the syndrome of a stored word set; a write to a word drops its pending rewrite (18 R421). -/
def Dev.setSynd (d : Dev) (k : Nat) (s : BitVec 8) : Dev :=
  { d with synd := Tbl.set (fun _ => 0#8) d.synd k s, rewrites := d.rewrites.filter (fun r => r != k) }

/-- The byte at an address as a checker delivers it: a correctable word's wrong bit inverted (18 R415). -/
def Dev.readByte (d : Dev) (m : Mem) (a : Nat) : Byte :=
  match hedgeCheck (d.syndOf (m.word a)) with
  | .corrected b => if b / 8 = a % 8 ∧ b < 64 then d.byte m a ^^^ (1#8 <<< (b % 8)) else d.byte m a
  | _ => d.byte m a

/-- `n` bytes from an address on as checkers deliver them. -/
def Dev.readBytes (d : Dev) (m : Mem) (a : Nat) : Nat → List Byte
  | 0 => []
  | n + 1 => d.readByte m a :: Dev.readBytes d m (a + 1) n

/-- The keys of the words that the `n` bytes from `a` on touch. -/
def Mem.wordsOf (m : Mem) (a n : Nat) : List Nat :=
  if n = 0 then [] else (List.range ((a + n - 1) / 8 - a / 8 + 1)).map (fun i => m.word a + i)

/-- An uncorrectable word lies among the `n` bytes from `a` on. -/
def Dev.anyBad (d : Dev) (m : Mem) (a n : Nat) : Bool :=
  (m.wordsOf a n).any (fun k => hedgeCheck (d.syndOf k) == .bad)

/-- The address that a log entry gives for a word's key: the HBM address of Table 10.5, or the word's number in its
bench or glasshouse (Table 18.7); of a seed-tray word, its entry number. -/
def wordAddr (k : Nat) : Nat :=
  match k / 2 ^ 44 with
  | 0 => k % 2 ^ 44 * 8
  | 1 => k % 2 ^ 23
  | 2 => k % 2 ^ 16
  | _ => k % 2 ^ 18

/-- The block whose memory holds the word of a key. -/
def wordBlk (k : Nat) : Blk :=
  let a := (k % 2 ^ 44) * 8
  match k / 2 ^ 44 with
  | 0 => .hbmCtl (a / 2 ^ 37) (a / 2 ^ 36 % 2)
  | 1 => .gh (a / 2 ^ 26)
  | 2 => .plot (a / 2 ^ 19 / 68) (a / 2 ^ 19 % 68)
  | _ => .sieve (k % 2 ^ 44 / 2 ^ 18 / 4) (k % 2 ^ 44 / 2 ^ 18 % 4)

/-- The memory's own flags and counters when it reads a corrected word (09 Tables 9.7, 9.8, 9.11, 11 Table 11.8,
19 R442). -/
def Dev.countCorrected (d : Dev) (k : Nat) : Dev :=
  let a := (k % 2 ^ 44) * 8
  match wordBlk k with
  | .hbmCtl i c => (d.setFld (.hbmCtl i c) Reg.HBM_STS.CE 1).countSat (.hbmCtl i c) Reg.HBM_CE_CNT.COUNT 1
  | .gh i => (d.setFld (.gh i) Reg.GH_STS.CE_BANK
      (d.fld (.gh i) Reg.GH_STS.CE_BANK ||| 2 ^ (a % 2 ^ 26 / 6291456))).countSat (.gh i) Reg.GH_CE_CNT.COUNT 1
  | .plot i p => (d.setFld (.plot i p) Reg.BENCH_STS.CE 1).countSat (.plot i p) Reg.BENCH_CE_CNT.COUNT 1
  | .sieve i s => (d.setFld (.sieve i s) Reg.SIEVE_STS.TRAY_CE 1).countSat (.sieve i s) Reg.SIEVE_TRAY_CE_CNT.COUNT 1
  | _ => d

/-- The same when it reads an uncorrectable word, with the word's address where the memory records it. -/
def Dev.countBad (d : Dev) (k : Nat) : Dev :=
  let a := (k % 2 ^ 44) * 8
  match wordBlk k with
  | .hbmCtl i c => (d.setFld (.hbmCtl i c) Reg.HBM_STS.UE 1).countSat (.hbmCtl i c) Reg.HBM_UE_CNT.COUNT 1
  | .gh i => ((((d.setFld (.gh i) Reg.GH_STS.UE_BANK
      (d.fld (.gh i) Reg.GH_STS.UE_BANK ||| 2 ^ (a % 2 ^ 26 / 6291456))).countSat (.gh i) Reg.GH_UE_CNT.COUNT 1).setFld
        (.gh i) Reg.GH_ERR_ADDR.VALID 1).setFld (.gh i) Reg.GH_ERR_ADDR.WORD (a % 2 ^ 26 / 8))
  | .plot i p => ((((d.setFld (.plot i p) Reg.BENCH_STS.UE 1).countSat (.plot i p) Reg.BENCH_UE_CNT.COUNT 1).setFld
        (.plot i p) Reg.BENCH_ERR_ADDR.VALID 1).setFld (.plot i p) Reg.BENCH_ERR_ADDR.WORD (a % 2 ^ 19 / 8))
  | .sieve i s => ((((d.setFld (.sieve i s) Reg.SIEVE_STS.TRAY_UE 1).countSat (.sieve i s)
        Reg.SIEVE_TRAY_UE_CNT.COUNT 1).setFld (.sieve i s) Reg.SIEVE_TRAY_ERR.VALID 1).setFld (.sieve i s)
        Reg.SIEVE_TRAY_ERR.ENTRY (k % 2 ^ 18))
  | _ => d

/-- Block `b` has corrected a word of syndrome `s` at `addr` for bed `bed`: logged under CE_LOG, once per block and chime
(18 R424). -/
def Dev.logCorrected (d : Dev) (b : Blk) (bed addr : Nat) (s : BitVec 8) : Dev :=
  if d.isSet .fault Reg.FAULT_CTL.CE_LOG && !d.chime.ceLogged.contains b.base then
    { d.logPush { d.entry b Ev.ce 1 with syndrome := s.toNat, bed := bed, addr := addr } with
      chime := { d.chime with ceLogged := d.chime.ceLogged ++ [b.base] } }
  else d

/-- A checker meets the word `k`, for bed `bed` (0xFF: none): a corrected word is counted and logged under CE_LOG,
once per block and chime, and waits for its rewrite; an uncorrectable word is counted and logged as event `ev` (18 R418,
R421, R424). -/
def Dev.noteWordAs (d : Dev) (ev bed k : Nat) : Dev :=
  let s := d.syndOf k
  match hedgeCheck s with
  | .clean => d
  | .corrected _ =>
    let d1 := (d.countSat .fault Reg.FAULT_CE_TOTAL.COUNT 1).countCorrected k
    { d1 with rewrites := if d1.rewrites.contains k then d1.rewrites else d1.rewrites ++ [k] }.logCorrected (wordBlk k) bed
      (wordAddr k) s
  | .bad =>
    let d1 := (d.countSat .fault Reg.FAULT_UE_TOTAL.COUNT 1).countBad k
    d1.logPush { d1.entry (wordBlk k) ev 2 with syndrome := s.toNat, bed := bed, addr := wordAddr k }

/-- The same of a word of syndrome `s` at place `addr` of a store inside block `b`, which keeps no counts of its own. -/
def Dev.noteStoreAs (d : Dev) (ev : Nat) (b : Blk) (bed addr : Nat) (s : BitVec 8) : Dev :=
  match hedgeCheck s with
  | .clean => d
  | .corrected _ => (d.countSat .fault Reg.FAULT_CE_TOTAL.COUNT 1).logCorrected b bed addr s
  | .bad =>
    let d1 := d.countSat .fault Reg.FAULT_UE_TOTAL.COUNT 1
    d1.logPush { d1.entry b ev 2 with syndrome := s.toNat, bed := bed, addr := addr }

/-- A consumer's checker meets such a word. -/
def Dev.noteStore (d : Dev) (b : Blk) (bed addr : Nat) (s : BitVec 8) : Dev := d.noteStoreAs Ev.ue b bed addr s

/-- A consumer's checker meets the word `k`. -/
def Dev.noteWord (d : Dev) (bed k : Nat) : Dev := d.noteWordAs Ev.ue bed k

/-- A checker meets the words `ks` in order. -/
def Dev.noteWords (d : Dev) (bed : Nat) (ks : List Nat) : Dev := ks.foldl (fun d k => d.noteWord bed k) d

/-- The stored bytes of a memory replaced, nothing checked. -/
def Dev.putBytes (d : Dev) (m : Mem) (a : Nat) (bs : List Byte) : Dev :=
  d.setCells m (Tbl.setMany cell0 (d.cells m) a bs)

/-- The codeword's wrong data bit put right in the stored word `k` of `m`, whose first byte is at `a`. -/
def Dev.correctWord (d : Dev) (m : Mem) (a b : Nat) : Dev :=
  if b < 64 then
    d.setCells m (Tbl.set cell0 (d.cells m) (a / 8 * 8 + b / 8) (d.byte m (a / 8 * 8 + b / 8) ^^^ (1#8 <<< (b % 8))))
  else d

/-- The word that holds byte `a` after a write covers its bytes `lo` to `hi - 1` with a word of syndrome `s`: a whole
word takes the new syndrome; a partial write merges, correcting a correctable word first, and writes poison where it
finds an uncorrectable one (09 R216, 18 R416); its read counts as any read, for no bed (DESIGN CHOICE, entry 78). -/
def Dev.mergeWord (d : Dev) (m : Mem) (a lo hi : Nat) (s : BitVec 8) : Dev :=
  if lo = 0 ∧ hi = 8 then d.setSynd (m.word a) s
  else match hedgeCheck (d.syndOf (m.word a)) with
    | .clean => d.setSynd (m.word a) s
    | .corrected b => ((d.noteWord 0xFF (m.word a)).correctWord m a b).setSynd (m.word a) s
    | .bad => (d.noteWord 0xFF (m.word a)).setSynd (m.word a) poison

/-- The words that a write of `n` bytes from `a` on covers, merged one by one. -/
def Dev.mergeWords (d : Dev) (m : Mem) (a n : Nat) (s : BitVec 8) : Nat → Dev
  | 0 => d
  | k + 1 =>
    let w := a / 8 + k
    let lo := if w * 8 < a then a - w * 8 else 0
    let hi := if a + n < w * 8 + 8 then a + n - w * 8 else 8
    (Dev.mergeWords d m a n s k).mergeWord m (w * 8) lo hi s

/-- A write of bytes whose words carry the syndrome `s` (0: clean). -/
def Dev.writeWith (d : Dev) (m : Mem) (a : Nat) (bs : List Byte) (s : BitVec 8) : Dev :=
  if bs.isEmpty then d
  else (d.mergeWords m a bs.length s ((a + bs.length - 1) / 8 - a / 8 + 1)).putBytes m a bs

/-- A write of clean bytes. -/
def Dev.writeBytes (d : Dev) (m : Mem) (a : Nat) (bs : List Byte) : Dev := d.writeWith m a bs 0#8

end Machine
end Sys2Proof
end

