-- ==== Sys2Proof/Machine/Access.lean ====
section
/-! DEFINITION. Register accesses (04 R92 to R109): where an access goes, the errors of Table 4.4 in their order, what
the issuer is answered, and the rule that a write through an alias follows (Tables 4.1, 4.2). -/
namespace Sys2Proof
namespace Machine

/-- The lodge whose port, keeper, gatehouse or JTAG sends the access. -/
def Source.lodge : Source → Nat
  | .keeper l _ => l | .gatehouse l => l | .jtag l => l | .pcie p _ => p

/-- The code of Table 4.6. -/
def Source.code : Source → Nat
  | .keeper l c => l * 0x10 + c
  | .gatehouse l => 0x20 + l
  | .jtag l => 0x22 + l
  | .pcie p _ => 0x40 + p

/-- The requester's function number FUNC for a PCIe source, 0 for others (Table 4.6, 15 R364). -/
def Source.func : Source → Nat
  | .pcie p fn => p * 0x100 + fn
  | _ => 0

/-- The source is a host. -/
def Source.isHost : Source → Bool
  | .pcie _ _ => true
  | _ => false

/-- The source is a virtual function. -/
def Source.isVf : Source → Bool
  | .pcie _ fn => fn != 0
  | _ => false

/-- The errors of Table 4.4, in its order. -/
inductive AccErr where
  | unmapped | size | notReady | gated | fenced | busy
  deriving DecidableEq, Repr

/-- The cause code of Table 4.5; `none`: not logged. -/
def AccErr.cause : AccErr → Option Nat
  | .unmapped => some 1 | .size => some 2 | .notReady => some 3 | .gated => some 4 | .fenced => some 5
  | .busy => none

/-- The lodge that is warden: of two, one of which has not yet learned that it has lost, that of the later epoch; lodge 0
while none is. -/
def Dev.wardenLodge (d : Dev) : Nat :=
  if d.fld (.warden 1) Reg.WARDEN_STS.ROLE = 1 ∧ (d.fld (.warden 0) Reg.WARDEN_STS.ROLE ≠ 1 ∨
    d.fld (.warden 0) Reg.WARDEN_EPOCH.EPOCH < d.fld (.warden 1) Reg.WARDEN_EPOCH.EPOCH) then 1 else 0

/-- Lodge `l` is the warden. -/
def Dev.isWarden (d : Dev) (l : Nat) : Bool := d.fld (.warden l) Reg.WARDEN_STS.ROLE == 1

/-- A CLKEN field in effect (17 R410). -/
def Dev.clkFld (d : Dev) (f : Fld) (i : Nat) : Nat :=
  bitsOf (Tbl.get (fun _ => 0#32) d.clkOn (f.offAt i)).toNat f.hi f.lo

/-- The clock enable of a block is on; the blocks that R107 exempts have none (04 R107, 17 R409, Table 17.7). -/
def Dev.clockOn (d : Dev) : Blk → Bool
  | .lodgeCtl _ | .warden _ | .clock _ | .security _ | .power | .fault => true
  | .chime => d.clkFld Reg.CLKEN_DEV.CHIME 0 != 0
  | .trellis => d.clkFld Reg.CLKEN_DEV.TRELLIS 0 != 0
  | .queue => d.clkFld Reg.CLKEN_DEV.QUEUE 0 != 0
  | .obotil n => (d.clkFld Reg.CLKEN_DEV.OBOTIL 0).testBit n
  | .trug => d.clkFld Reg.CLKEN_DEV.TRUG 0 != 0
  | .dieCtl i => d.clkFld Reg.CLKEN_DIE.DIE_CTL i != 0
  | .lattice i => d.clkFld Reg.CLKEN_DIE.LATTICE i != 0
  | .hbmCtl i k => if k = 0 then d.clkFld Reg.CLKEN_DIE.HBM0 i != 0 else d.clkFld Reg.CLKEN_DIE.HBM1 i != 0
  | .shed i => d.clkFld Reg.CLKEN_DIE.SHED i != 0
  | .mower i => d.clkFld Reg.CLKEN_DIE.MOWER i != 0
  | .gh i => d.clkFld Reg.CLKEN_DIE.GLASSHOUSE i != 0
  | .rill i e => (d.clkFld Reg.CLKEN_DIE.RILL i).testBit e
  | .sieve i s => (d.clkFld Reg.CLKEN_DIE.SIEVE i).testBit s
  | .plot i p =>
    if p < 32 then (d.clkFld Reg.CLKEN_PLOT_LO.PLOT i).testBit p
    else if p < 64 then (d.clkFld Reg.CLKEN_PLOT_MID.PLOT i).testBit (p - 32)
    else (d.clkFld Reg.CLKEN_PLOT_HI.PLOT i).testBit (p - 64)

/-- The gatehouse of lodge `l` reaches the block: its own lodge's LODGE_CTL, WARDEN, CLOCK and SECURITY, and POWER
and FAULT (R114). -/
def gatehouseReaches (l : Nat) : Blk → Bool
  | .lodgeCtl k | .warden k | .clock k | .security k => k == l
  | .power | .fault => true
  | _ => false

/-- Where the BAR0 offset of an access goes: the block, and whether through the peer window; `none`: unimplemented. A VF
reaches its own register block, a part of QUEUE (R105, R106, R111 to R114, 15 R361, R367). -/
def target (src : Source) (a : Nat) : Option (Blk × Bool) :=
  match src with
  | .gatehouse l => (Blk.ofBar0 l a).filter (fun p => gatehouseReaches l p.1 && !p.2)
  | .pcie p fn => if fn = 0 then Blk.ofBar0 p a else if a < 0x10000 then some (.queue, false) else none
  | s => Blk.ofBar0 s.lodge a

/-- The register is a parameter register of Table 0.2 (R115). -/
def isParam (b : Blk) (o : Nat) : Bool :=
  match b with
  | .lodgeCtl _ => decide (0x104 ≤ o) && decide (o < 0x130)
  | _ => false

/-- A source's block lists a register at offset `o`; a VF's has QCTX_SEL, QCTX_CMD, QUEUE_STS and QCTX_DATA at the offsets that
they have in QUEUE (15 R367). -/
def Source.lists (src : Source) (b : Blk) (o : Nat) : Bool := b.listed o && (!src.isVf || decide (o < 0x80) || o == 0x3FFC)

/-- A write to the register is a shared-state write: every register of a Device block, and in CLOCK the registers
that hold SELECT, its fields and the CLKEN bits (R105, 17 R399). -/
def sharedState (b : Blk) (o : Nat) : Bool :=
  b.deviceScope || (match b with | .clock _ => o == 0 || (b.listed o && decide (0x100 ≤ o ∧ o ≠ 0x3FFC)) | _ => false)

/-- The posted block has an accepted write that has not taken effect (R101). -/
def Dev.isBusy (d : Dev) (b : Blk) : Bool := (Tbl.get (fun _ => (none : Option PWrite)) d.posted b.base).isSome

/-- The first error of Table 4.4 that a write meets, with the block it was aimed at (R108). -/
def Dev.writeErr (d : Dev) (w : WriteAccess) : Option AccErr :=
  match target w.src w.addr with
  | none => some .unmapped
  | some (b, peer) =>
    if w.size ≠ 4 ∨ w.addr % 4 ≠ 0 ∨ w.enables ≠ 0xF#4 ∨ w.amo = true then some .size
    else if !d.clockOn b then some .gated
    else if peer || (sharedState b (w.addr % 0x4000) && !d.isWarden w.src.lodge) then some .fenced
    else if b.posted && d.isBusy b then some .busy
    else none

/-- The first error of Table 4.4 that a read of `size` bytes meets. Host reads of more bytes are served register by
register (R92). -/
def Dev.readErr (d : Dev) (src : Source) (a size : Nat) : Option AccErr :=
  match target src a with
  | none => some .unmapped
  | some (b, _) =>
    if !src.isHost && !(decide (size = 1 ∨ size = 2 ∨ size = 4) && decide (a % 4 + size ≤ 4)) then some .size
    else if isParam b (a % 0x4000) && !d.isSet (.lodgeCtl src.lodge) Reg.PARAM_STS.READY then some .notReady
    else if !d.clockOn b then some .gated
    else none

/-- What the issuer of a refused write is answered (Table 4.4). JTAG has no column there: it is answered as the
gatehouse (DESIGN CHOICE, entry 14). -/
def AccErr.writeAnswer (e : AccErr) (src : Source) : Answer :=
  match e, src with
  | .busy, _ => .dropped
  | _, .pcie _ _ => .dropped
  | _, .keeper _ _ => .accessFault
  | _, _ => .busError

/-- What the issuer of a refused read is answered (Table 4.4). -/
def AccErr.readAnswer (e : AccErr) (src : Source) : Answer :=
  match e, src with
  | .unmapped, .pcie _ _ => .unsupportedRequest
  | _, .pcie _ _ => .completerAbort
  | _, .keeper _ _ => .accessFault
  | _, _ => .busError

/-- A host that asks before READY is not answered (15 R360). -/
def Dev.answers (d : Dev) (src : Source) : Bool :=
  !src.isHost || d.isSet (.lodgeCtl src.lodge) Reg.PARAM_STS.READY

/-- The log entry of an access error (R109, Table 18.7): source, cause, alias, direction, function and BAR0 offset.
UNIT and SRC_DIE are those of the block aimed at; of an unimplemented address, 0 and the source's lodge (DESIGN
CHOICE, entry 14). -/
def Dev.accessEntry (d : Dev) (src : Source) (a : Nat) (write : Bool) (cause : Nat) : LogEntry :=
  let base := { d.entry .fault Ev.access 2 with
    instNo := src.code, cause := cause, addr := a,
    detail := a % 0x10000 / 0x4000 + bit write * 4 + src.func * 8 }
  match target src a with
  | some (b, _) => if src.isVf then { base with srcDie := 0xF0 + src.lodge, unit := 0x19 }
      else { base with srcDie := b.dieCode, unit := b.typeCode }
  | none => { base with srcDie := 0xF0 + src.lodge, unit := 0 }

/-- The WDROP flag of a posted block (R101). -/
def Blk.wdrop : Blk → Option Fld
  | .warden _ => some Reg.WARDEN_STS.WDROP
  | .clock _ => some Reg.CLK_STS.WDROP
  | .chime => some Reg.CHIME_STS.WDROP
  | .trellis => some Reg.TRELLIS_STS.WDROP
  | .power => some Reg.POWER_STS.WDROP
  | .security _ => some Reg.SEC_STS.WDROP
  | .obotil _ => some Reg.OB_STS.WDROP
  | .dieCtl _ => some Reg.DIE_WARDEN_STS.WDROP
  | .hbmCtl _ _ => some Reg.HBM_STS.WDROP
  | _ => none

/-- The device after a refused write: the log entry of a logged error, WDROP of a busy block, and the answer. -/
def Dev.refuseWrite (d : Dev) (src : Source) (a : Nat) (e : AccErr) : Dev :=
  let d1 := match e.cause with
    | some c => d.logPush (d.accessEntry src a true c)
    | none => match target src a with
      | some (b, _) => match b.wdrop with
        | some f => d.setFld b f 1
        | none => d
      | none => d
  d1.emit [.answer src (e.writeAnswer src)]

/-- The device after a refused read. -/
def Dev.refuseRead (d : Dev) (src : Source) (a : Nat) (e : AccErr) : Dev :=
  let d1 := match e.cause with
    | some c => d.logPush (d.accessEntry src a false c)
    | none => d
  d1.emit [.answer src (e.readAnswer src)]

/-- The BAR0 offset by which a source reaches a block: through the peer window for the other lodge's blocks; of a VF, its own
register block. -/
def reachOffset (src : Source) (b : Blk) : Nat :=
  match b with
  | .lodgeCtl l => if l = src.lodge then 0 else 0x400000
  | .warden l => if l = src.lodge then 0x10000 else 0x410000
  | .clock l => if l = src.lodge then 0x20000 else 0x420000
  | .security l => if l = src.lodge then 0x70000 else 0x470000
  | .queue => if src.isVf then 0 else b.base
  | b => b.base

/-- The well-formed word write by which a command of the table writes register `o` of block `b`. -/
def wordWrite (src : Source) (b : Blk) (o : Nat) : WriteAccess :=
  ⟨src, reachOffset src b + o, 4, 0xF#4, false, 0#32⟩

/-- The die that a die block lies on. -/
def Blk.dieOf : Blk → Option Nat
  | .dieCtl i | .lattice i | .hbmCtl i _ | .shed i | .mower i | .gh i | .rill i _ | .sieve i _ | .plot i _ => some i
  | _ => none

/-- The pair (epoch, lodge) that a die holds, and that a lodge follows (16 R384). -/
def Dev.diePair (d : Dev) (die : Nat) : Nat × Nat :=
  (d.fld (.dieCtl die) Reg.DIE_WEPOCH.EPOCH, d.fld (.dieCtl die) Reg.DIE_WARDEN_STS.LODGE)
def Dev.lodgePair (d : Dev) (l : Nat) : Nat × Nat := (d.fld (.warden l) Reg.WARDEN_EPOCH.EPOCH, l)

/-- The first control write of a new warden: WARDEN_TAKE_LAT (16 R390). -/
def Dev.noteFirstWrite (d : Dev) (l : Nat) : Dev :=
  match (d.ward l).takeFrom with
  | some t => (d.setFld (.warden l) Reg.WARDEN_TAKE_LAT.LAT_NS (min ((d.now - t) / 64) 0xFFFFFFFF)).modWard l
      (fun w => { w with takeFrom := none })
  | none => d

/-- A die refuses a write of an outranked pair and answers its lodge with REJ (16 R384, R387). -/
def Dev.refuseStale (d : Dev) (die l : Nat) : Dev :=
  ((d.setFld (.dieCtl die) Reg.DIE_WARDEN_STS.STALE 1).countSat (.dieCtl die) Reg.DIE_STALE_CNT.COUNT 1).modWard l
    (fun w => { w with outranked := some (d.diePair die) })

/-- A shared-state write through a lodge that has lost the role and not yet fenced itself reaches only the copy that the
resync will replace (entry 29). -/
def Dev.lostCopy (d : Dev) (src : Source) (b : Blk) (o : Nat) : Bool :=
  sharedState b o && b.dieOf.isNone && d.isWarden src.lodge && d.wardenLodge != src.lodge

/-- A control write to a die block carries its lodge's pair: it has its effect `f` when the die holds that pair, and none
when it does not (16 R384, R387). A write to another block carries none. -/
def Dev.controlWrite (d : Dev) (pair : Nat × Nat) (b : Blk) (f : Dev → Dev) : Dev :=
  match b.dieOf with
  | none => f d
  | some k => if d.diePair k = pair then f (d.noteFirstWrite pair.2) else d.refuseStale k pair.2

/-- The parterre blocks whose clocks IDLE stops (20 Table 20.1). -/
def Blk.idleStops : Blk → Bool
  | .plot _ _ | .rill _ _ | .sieve _ _ | .mower _ | .shed _ | .gh _ => true
  | _ => false

/-- An access to a block that IDLE has stopped returns the device to ACTIVE (20 R444). -/
def Dev.wakeIdle (d : Dev) (b : Blk) : Dev :=
  if d.powerState = 1 ∧ b.idleStops = true then d.setFld .power Reg.POWER_STS.STATE 0 else d

/-- A command that is a write to register `o` of block `b` from `src`: refused by the first error of Table 4.4, or
answered and, accepted, given the effect `f`; a write to a hole is ignored (R92, R106, R108). -/
def Dev.rowWrite (d : Dev) (src : Source) (b : Blk) (o : Nat) (f : Dev → Dev) : Dev :=
  if !d.answers src then d
  else match d.writeErr (wordWrite src b o) with
    | some e => d.refuseWrite src (reachOffset src b + o) e
    | none =>
      let d1 := (d.wakeIdle b).emit [.answer src .done]
      if src.lists b o && !d.lostCopy src b o then d1.controlWrite (d.lodgePair src.lodge) b f else d1

/-- The alias by its number (Table 4.1). -/
inductive Alias where
  | base | set | clr | tog
  deriving DecidableEq, Repr

/-- The alias that an offset within a block window lies in. -/
def aliasOf (a : Nat) : Alias :=
  match a % 0x10000 / 0x4000 with
  | 0 => .base | 1 => .set | 2 => .clr | _ => .tog

/-- The bits of a register that hold values: RW and PW fields and reserved-live bits (Table 4.2). -/
def Blk.storedMask (b : Blk) (o : Nat) : Nat :=
  b.rsvlAt o ||| b.maskAt o (fun f => f.acc == .rw || f.acc == .pw)

/-- The W1C bits of a register. -/
def Blk.w1cMask (b : Blk) (o : Nat) : Nat := b.maskAt o (fun f => f.acc == .w1c)

/-- The bits of a register's command fields (R99). -/
def Blk.cmdMask (b : Blk) (o : Nat) : Nat := b.maskAt o (fun f => f.acc == .cmd)

/-- What a write of `data` through an alias leaves in the register that held `old`, by Table 4.2; command fields
keep reading 0. -/
def writeMerge (b : Blk) (o : Nat) (al : Alias) (data old : Word) : Word :=
  let st := BitVec.ofNat 32 (b.storedMask o)
  let wc := BitVec.ofNat 32 (b.w1cMask o)
  match al with
  | .base => (old &&& ~~~st &&& ~~~(data &&& wc)) ||| (data &&& st)
  | .set => old ||| (data &&& st)
  | .clr => old &&& ~~~(data &&& (st ||| wc))
  | .tog => old ^^^ (data &&& st)

/-- The command bits that a write starts: those of a base write, none of an alias write (R99). -/
def writeCmd (b : Blk) (o : Nat) (al : Alias) (data : Word) : Word :=
  match al with
  | .base => data &&& BitVec.ofNat 32 (b.cmdMask o)
  | _ => 0#32

end Machine
end Sys2Proof
end

