-- ==== Sys2Proof/Machine/Items.lean ====
section
/-! DEFINITION. The issue of work items by the shed sequencers (02 R43 to R46): one item per lattice cycle and die, the pending
limits of the engines, and the passing of time that lets the items due issue. -/
namespace Sys2Proof
namespace Machine

/-- The bed of number `b` of the image in force. -/
def Dev.bed (d : Dev) (b : Nat) : Option Bed := Tbl.get (fun _ => none) d.beds b

/-- The device with bed `b` as given. -/
def Dev.setBed (d : Dev) (b : Nat) (x : Option Bed) : Dev := { d with beds := Tbl.set (fun _ => none) d.beds b x }

/-- Bed `b` after `f`, where it is defined. -/
def Dev.modBed (d : Dev) (b : Nat) (f : Bed → Bed) : Dev :=
  match d.bed b with
  | some x => d.setBed b (some (f x))
  | none => d

/-- Two items wait at the same engine. -/
def Item.sameEngine (die : Nat) (k : Kind) (u : Nat) (i : Item) : Bool :=
  i.die == die && i.cfg.kind == k && i.cfg.unit == u

/-- The items that an engine holds pending: sent to it and not retired (R45). -/
def Dev.pendingAt (d : Dev) (die : Nat) (k : Kind) (u : Nat) : Nat :=
  (d.items.filter (fun i => i.sameEngine die k u && !i.held)).length

/-- The pending limit of an item's engine has been reached: 16 for a plot, rill, Sieve or Mower, 64 TRUG items of a
bed at the Trug engine (R45). -/
def Dev.atLimit (d : Dev) (bed die : Nat) (c : ItemCfg) : Bool :=
  match c.kind with
  | .trug => decide (64 ≤ (d.items.filter (fun i => i.bed == bed && i.cfg.kind == .trug && !i.held)).length)
  | .rill | .pass | .sieve | .mower => decide (16 ≤ d.pendingAt die c.kind c.unit)
  | .obotil | .barrier | .nop => false

/-- An earlier item of the same engine is held, so that a later one is held behind it (R45). -/
def Dev.heldBefore (d : Dev) (bed die : Nat) (c : ItemCfg) : Bool :=
  d.items.any (fun i => i.held && (match c.kind with
    | .trug => i.bed == bed && i.cfg.kind == .trug
    | _ => i.sameEngine die c.kind c.unit))

/-- A bed whose window has an item that retired at `T`; an item retires no earlier than those before it. -/
def Bed.retiredAt (x : Bed) (T : Nat) : Bed := { x with lastRetire := some (max T (x.lastRetire.getD 0)) }

/-- A shed sequencer issues an item in its cycle (R43, R45): a NOP retires in it (R46); any other goes to its engine, or is
held when that has reached its limit. -/
def Dev.issueItem (d : Dev) (q : Issue) (cycle : Nat) : Dev :=
  if q.cfg.kind = .nop then d.modBed q.bed (fun x => x.retiredAt cycle)
  else
    let h := d.atLimit q.bed q.die q.cfg || d.heldBefore q.bed q.die q.cfg
    { d with items := d.items ++ [⟨d.itemSeq, q.bed, q.die, q.cfg, q.openT, h, false, cycle⟩], itemSeq := d.itemSeq + 1 }

/-- Eight times the divider of step `k` (17 Table 17.3). -/
def divider8 (k : Nat) : Nat := if k ≤ 16 then 16 + k else if k ≤ 32 then 2 * k else 4 * k - 64

/-- A lattice cycle at the step in force: 0.5 ns at step 0 (17 R400, R401). -/
def Dev.latticeCycle (d : Dev) : Nat := 2 * divider8 (d.fld (.clock d.wardenLodge) Reg.CLK_STEP.CORE)

/-- An element in its place by its number; those of one number in the order in which they were put in. -/
def insertBy {α : Type} (x : Nat × α) : List (Nat × α) → List (Nat × α)
  | [] => [x]
  | y :: ys => if y.1 ≤ x.1 then y :: insertBy x ys else x :: y :: ys

/-- The items still to issue with the lattice cycles they issue in, earliest first: one item per cycle of `len` and die, in
the order in which their windows opened; `free` is the cycle from which a die's sequencer is free (R43). -/
def issueCycles (len : Nat) : Tbl Nat → List Issue → List (Nat × Issue)
  | _, [] => []
  | free, q :: qs =>
    let n := max q.openT (Tbl.get (fun _ => 0) free q.die)
    insertBy (n, q) (issueCycles len (Tbl.set (fun _ => 0) free q.die (n + len)) qs)

/-- The items whose issue cycle has come issue, in order of their cycles. -/
def Dev.issueDue (d : Dev) : Dev :=
  let due := (issueCycles d.latticeCycle d.shedFree d.toIssue).filter (fun e => decide (e.1 ≤ d.now))
  let e := due.foldl (fun d q => d.issueItem q.2 q.1) d
  { d with
    beds := e.beds
    items := e.items
    itemSeq := e.itemSeq
    toIssue := due.foldl (fun qs q => qs.erase q.2) d.toIssue
    shedFree := due.foldl (fun f q => Tbl.set (fun _ => 0) f q.2.die (q.1 + d.latticeCycle)) d.shedFree }

/-- The deadline of a request, as a 48-bit count of the chime timebase; `none`: DRY_NS is 0xFFFF_FFFF (10 R252). -/
def deadline48 (openT dryNs more : Nat) : Option Nat :=
  if dryNs = 0xFFFFFFFF then none else some ((openT / 64 + dryNs + more) % 2 ^ 48)

/-- The chime timebase at an instant as such a count. -/
def count48 (t : Nat) : Nat := t / 64 % 2 ^ 48

/-- Where a count lies from the present on, within half its range to either side (DESIGN CHOICE, entry 67). -/
def Dev.fromNow (d : Dev) (n : Nat) : Nat := (n + 2 ^ 48 + 2 ^ 47 - count48 d.now) % 2 ^ 48

/-- A deadline has passed (10 R254). -/
def Dev.isLate (d : Dev) (n : Option Nat) : Bool := n.any (fun n => decide (d.fromNow n < 2 ^ 47))

/-- The device at the instant `t` of a command: time does not run backward (entry 2), and what was to issue by then has
issued. -/
def Dev.touch (d : Dev) (t : Nat) : Dev := { d with now := max d.now t }.issueDue

end Machine
end Sys2Proof
end

