-- ==== Sys2Proof/Machine/Banks.lean ====
section
/-! DEFINITION. The banks of a bench (09 R213, R215) and the cycle counters of plots and benches (07 R177, 08 R203, 09 R215, R225),
which are settled whenever what they count may change. -/
namespace Sys2Proof
namespace Machine

/-! ### Plots and furrows -/

/-- A plot, and the device with it as given. -/
def Dev.plot (d : Dev) (die p : Nat) : PlotSt := Tbl.get (fun _ => PlotSt.start) d.plots (die * 68 + p)
def Dev.setPlot (d : Dev) (die p : Nat) (x : PlotSt) : Dev :=
  { d with plots := Tbl.set (fun _ => PlotSt.start) d.plots (die * 68 + p) x }

/-- The key of furrow `f` of a physical plot. -/
def furKey (die p f : Nat) : Nat := (die * 68 + p) * 32 + f

/-- A furrow of a plot's bench. -/
def Dev.fur (d : Dev) (die p f : Nat) : Furrow := Tbl.get (fun _ => Furrow.start) d.furs (furKey die p f)

/-- The device with a furrow as given. -/
def Dev.setFur (d : Dev) (die p f : Nat) (x : Furrow) : Dev :=
  { d with furs := Tbl.set (fun _ => Furrow.start) d.furs (furKey die p f) x }

/-! ### Core cycles -/

/-- A core cycle at the step in force, in 1/64 ns (17 R400, R401). -/
def Dev.coreLen (d : Dev) : Nat := divider8 (d.fld (.clock d.wardenLodge) Reg.CLK_STEP.CORE)

/-- The number of the present core cycle. -/
def Dev.coreCycleNo (d : Dev) : Nat := d.now / d.coreLen

/-- The core cycles from an instant to another, at the step now in force (DESIGN CHOICE, entry 76). -/
def Dev.cyclesFrom (d : Dev) (a b : Nat) : Nat := (b - a) / d.coreLen

/-- The furrow in core cycle `c`: with TAIL and the fill bits as the cycle found them (09 R222). -/
def Furrow.atCycle (c : Nat) (f : Furrow) : Furrow :=
  if f.seen.cycle = c then f else { f with seen := ⟨c, f.tail, f.fill, []⟩ }

/-- The furrow in the present core cycle. -/
def Dev.furNow (d : Dev) (die p f : Nat) : Furrow := (d.fur die p f).atCycle d.coreCycleNo

/-- A furrow after `g`. -/
def Dev.modFur (d : Dev) (die p f : Nat) (g : Furrow → Furrow) : Dev := d.setFur die p f (g (d.furNow die p f))

/-! ### Banks (R213, R215) -/

/-- The bank of a bench's line `n`, and its row in it (R213). -/
def lineBank (n : Nat) : Nat := n % 48
def lineRow (n : Nat) : Nat := n / 48

/-- The classes of R215: array-port read, forwarding write, array-port write, neighbour access, lattice access. -/
def clsRead : Nat := 0
def clsForward : Nat := 1
def clsWrite : Nat := 2
def clsNeighbour : Nat := 3
def clsLattice : Nat := 4

/-- An access's place in a bank's choice, lowest first: those that have lost in three consecutive cycles ahead of the others, in
each group the order of R215; one that has waited 8 cycles ahead of all, since none waits longer (DESIGN CHOICE, entry 77). -/
def LineAccess.rank (x : LineAccess) : Nat := (if 8 ≤ x.lost then 0 else if 3 ≤ x.lost then 1 else 2) * 8 + x.cls

/-- The accesses that lose, of those that address the banks in one cycle in the order in which banks choose. -/
def losers : List Nat → List LineAccess → List LineAccess
  | _, [] => []
  | taken, x :: xs => if taken.contains x.bank then x :: losers taken xs else losers (x.bank :: taken) xs

/-- The accesses that address a bank in cycle `c`, in the order in which banks choose; of equals the one that came first. -/
def contenders (len c : Nat) (q : List LineAccess) : List LineAccess :=
  ((q.filter (fun x => x.due / len ≤ c)).foldl (fun l x => insertBy (x.rank, x) l) []).map (fun x => x.2)

/-- The accesses that lose in cycle `c`. -/
def bankLosers (len c : Nat) (q : List LineAccess) : List LineAccess := losers [] (contenders len c q)

/-- Each bank serves one access in cycle `c`; those that lose address it again in the next. -/
def bankCycle (len c : Nat) (q : List LineAccess) : List LineAccess :=
  (bankLosers len c q).map (fun x => { x with due := (c + 1) * len, lost := x.lost + 1 }) ++ q.filter (fun x => decide (c < x.due / len))

/-- The earliest cycle in which an access addresses its bank. -/
def firstCycle (len : Nat) (q : List LineAccess) : Option Nat := (q.map (fun x => x.due / len)).min?

/-- The banks serve every cycle before the one of instant `now`; what still waits, the cycles that accesses lost, and those in which
an array-port read waited. Each turn of the number serves a line at least. -/
def serveBanks (len now : Nat) : Nat → List LineAccess → Nat × Nat → List LineAccess × (Nat × Nat)
  | 0, q, w => (q, w)
  | k + 1, q, w =>
    match firstCycle len q with
    | none => (q, w)
    | some c =>
      if now / len ≤ c then (q, w)
      else
        let ls := bankLosers len c q
        serveBanks len now k (bankCycle len c q) (w.1 + ls.length, w.2 + if ls.any (fun x => x.cls == clsRead) then 1 else 0)

/-! ### Stalls and holds -/

/-- The furrows of a bench. -/
def Dev.benchFurs (d : Dev) (die p : Nat) : List Furrow :=
  (d.furs.filter (fun e => e.1 / 32 == die * 68 + p)).map (fun e => e.2)

/-- The array's hold, while the pass that waits is there. -/
def PlotSt.holding (s : PlotSt) : Option ArrayHold := s.hold.filter (fun h => s.passes.any (fun x => x.seq == h.seq))

/-- A tile stands or arrives in the shadow bank. -/
def PlotSt.shadowTaken (s : PlotSt) : Bool :=
  s.passes.any (fun x => x.loads && (x.stage == .loading || (x.stage == .ready && !x.replay)))

/-- The shadow bank is free at an instant: no tile is in it, and 80 cycles have passed since the last swap began (07 R177). -/
def PlotSt.shadowFree (s : PlotSt) (len now : Nat) : Bool :=
  !s.shadowTaken && (match s.swapAt with
    | some T => decide (T + 80 * len ≤ now)
    | none => true)

/-- The instant up to which the next load is held under R177, 0 if none is. -/
def PlotSt.loadHeldTo (s : PlotSt) (len now : Nat) : Nat :=
  if s.passes.any (fun x => x.loads && x.stage == .accepted) then
    if s.shadowTaken then now else match s.swapAt with
      | some T => min now (T + 80 * len)
      | none => 0
  else 0

/-- The stages of an array stand still for `n` units of time: its passes and its swap end that much later (R172). -/
def PlotSt.standStill (s : PlotSt) (n : Nat) : PlotSt :=
  if n = 0 then s
  else { s with
    passes := s.passes.map (fun x => if x.stage == .running then { x with startT := x.startT + n } else x)
    swapAt := s.swapAt.map (fun T => T + n)
    lastEnter := s.lastEnter.map (fun T => T + n) }

/-- The cycle counters of a plot and its bench count up to the device's instant: stalled reads and writes, array holds, held
loads, and cycles lost at the banks, in which an array-port read holds the array (07 R177, 08 R203, 09 R215, R225). -/
def Dev.settle (d : Dev) (die p : Nat) : Dev :=
  let b := Blk.plot die p
  let s := d.plot die p
  let len := d.coreLen
  let n := d.cyclesFrom s.settled d.now
  let fs := d.benchFurs die p
  let what := s.holding.map (fun h => h.what)
  let rd := fs.any (fun f => f.stalled.any (fun a => !a.write)) || what == some .line
  let wr := fs.any (fun f => f.stalled.any (fun a => a.write))
  let room := what == some .room
  let load := if d.fld b Reg.PLOT_STS.STATE = 4 then 0 else d.cyclesFrom s.settled (s.loadHeldTo len d.now)
  let r := serveBanks len d.now s.lines.length s.lines (0, 0)
  let on := rd || wr || room || s.passes.any (fun x => x.loads && x.stage == .accepted)
  (((((d.setPlot die p ({ s with
    settled := if on then s.settled + n * len else d.now
    lines := r.1 }.standStill (r.2.2 * len))).countSat b Reg.BENCH_RD_STALL.CYCLES (if rd then n else 0)).countSat b
      Reg.BENCH_WR_STALL.CYCLES (if wr then n else 0)).countSat b Reg.PLOT_FWD_HOLD.CYCLES (if room then n else 0)).countSat b
        Reg.PLOT_LOAD_STALL.CYCLES load).countSat b Reg.BENCH_BANK_WAIT.CYCLES r.2.1

/-- The same of every plot. -/
def Dev.settleAll (d : Dev) : Dev := d.plots.foldl (fun d e => d.settle (e.1 / 68) (e.1 % 68)) d

end Machine
end Sys2Proof
end

