-- ==== Sys2Proof/Machine/Lattice.lean ====
section
/-! DEFINITION. The geometry of the lattice (01 R18 to R23, R472, 03 R72): the routers that the blocks of a die attach to, the
dies that a packet passes, its hops and latency, and the router port by which it reaches a memory. -/
namespace Sys2Proof
namespace Machine

/-- A router of a die: its column 0 to 16 and its row 0 to 5 (R18). -/
structure Router where
  col : Nat
  row : Nat
  deriving DecidableEq, Repr

/-- The routers of Table 1.5. -/
def Router.ofRill (e : Nat) : Router := ⟨([0, 1, 5, 6, 10, 11, 15, 16][e % 8]?).getD 0, if e < 8 then 0 else 5⟩
def Router.ofPlot (p : Nat) : Router := ⟨p % 17, p / 17 + 1⟩
def Router.ofSieve (s : Nat) : Router := ⟨8, s + 1⟩
def Router.ofBank (b : Nat) : Router := if b < 3 then ⟨7 + b, 0⟩ else if b < 6 then ⟨b - 1, 5⟩ else ⟨b + 6, 5⟩
def Router.shed : Router := ⟨7, 5⟩
def Router.mower : Router := ⟨9, 5⟩
def Router.dieControl : Router := ⟨14, 5⟩
def Router.west : Router := ⟨0, 3⟩
def Router.east : Router := ⟨16, 3⟩
def Router.vertical : Router := ⟨8, 5⟩
/-- The first of the three columns by which HBM controller `k` attaches, in row 0. -/
def ctlColumn (k : Nat) : Nat := if k = 0 then 2 else 12

/-- Router hops between two routers of a die: every route is minimal (R20). -/
def Router.hops (a b : Router) : Nat :=
  (max a.col b.col - min a.col b.col) + (max a.row b.row - min a.row b.row)

/-- The columns entered on the way from one column of dies to another. -/
def colsTo (x y : Nat) : List Nat :=
  if x ≤ y then (List.range (y - x)).map (fun i => x + 1 + i) else (List.range (x - y)).map (fun i => x - 1 - i)

/-- The dies that a packet enters from die `a` to die `b`: along the row of `a`, then across; or across first (R20, R72). -/
def diesEntered (across : Bool) (a b : Nat) : List Nat :=
  let along (row : Nat) : List Nat := (colsTo (a % 4) (b % 4)).map (fun c => row * 4 + c)
  if a / 4 = b / 4 then along (a / 4)
  else if across then (b / 4 * 4 + a % 4) :: along (b / 4)
  else along (a / 4) ++ [b]

/-- A bed's ROUTES section takes its traffic from die `a` to die `b` across first (R72). -/
def BedCfg.across (c : BedCfg) (a b : Nat) : Bool := c.routes.any (fun r => r.src == a && r.dst == b && r.order == 1)

/-- The footbridge port of a die toward its neighbour `n`. -/
def Router.toward (a n : Nat) : Router :=
  if a / 4 ≠ n / 4 then .vertical else if a < n then .east else .west

/-- Where a packet starts or ends: a router of a die, or a lodge. -/
inductive Place where
  | die (d : Nat) (r : Router)
  | lodge (l : Nat)
  deriving DecidableEq, Repr

/-- The place of who asks: an engine at its router, the Trug engine's shares and software at a lodge. -/
def Agent.place (l : Nat) : Option Agent → Place
  | some (.rill d e) => .die d (.ofRill e)
  | some (.plot d p) => .die d (.ofPlot p)
  | some (.sieve d s) => .die d (.ofSieve s)
  | some (.mower d) => .die d .mower
  | some .trug | some .software | none => .lodge l

/-- The end die of a row beside lodge `l`, and its footbridge port toward that lodge (Table 1.2). -/
def lodgeDie (row l : Nat) : Nat := if l = 0 then row * 4 else row * 4 + 3
def lodgePort (l : Nat) : Router := if l = 0 then .west else .east

/-- The dies that a packet enters from a place to die `b`, with the router by which it enters each; a packet of a lodge
enters the row of its destination (R20). -/
def Place.legs (p : Place) (across : Bool) (b : Nat) : List (Nat × Router) :=
  match p with
  | .die a r => (diesEntered across a b).foldl (fun (q : List (Nat × Router) × Nat) n =>
      (q.1 ++ [(n, Router.toward n q.2)], n)) ([(a, r)], a) |>.1
  | .lodge l =>
    let a := lodgeDie (b / 4) l
    (diesEntered false a b).foldl (fun (q : List (Nat × Router) × Nat) n =>
      (q.1 ++ [(n, Router.toward n q.2)], n)) ([(a, lodgePort l)], a) |>.1

/-- The hops of a packet that enters the dies `legs` and ends at the router `dst` of the last (R23). -/
def legHops (dst : Router) : List (Nat × Router) → Nat
  | [] => 0
  | [x] => x.2.hops dst
  | x :: y :: rest => x.2.hops (.toward x.1 y.1) + legHops dst (y :: rest)

/-- The footbridges that a packet from a place crosses into `legs` (R23). -/
def Place.crossings (p : Place) (legs : List (Nat × Router)) : Nat :=
  match p with
  | .die _ _ => legs.length - 1
  | .lodge _ => legs.length

/-- The router by which a packet enters the die of its destination: the requester's own on that die, else the footbridge
port that it crossed (R472). -/
def Place.entry (p : Place) (across : Bool) (b : Nat) : Router := ((p.legs across b).getLast?.map (fun x => x.2)).getD .west

/-- The router port of HBM controller `k` at which a request enters, 0 to 2 from the west: that in the column nearest the
router by which the packet entered the die (R472). -/
def ctlPort (k : Nat) (r : Router) : Nat := min (r.col - ctlColumn k) 2

/-- The router at which a request to controller `k` enters. -/
def ctlRouter (k : Nat) (r : Router) : Router := ⟨ctlColumn k + ctlPort k r, 0⟩

/-- The port of a router by which a packet from router `a` of the die comes to it: column first, then row (R20), so by
its row unless it comes down its column; numbered local 0, north 1, east 2, south 3, west 4 (DESIGN CHOICE, entry 65). -/
def Router.portFrom (a dst : Router) : Nat :=
  if a.col < dst.col then 4 else if dst.col < a.col then 2 else if a.row < dst.row then 1 else if dst.row < a.row then 3 else 0

/-- T_lat from a place to router `dst` of die `b`, in 1/64 ns, at a lattice cycle of `len` (R23). -/
def Place.latency (p : Place) (across : Bool) (b : Nat) (dst : Router) (len : Nat) : Nat :=
  let legs := p.legs across b
  (10 + 2 * legHops dst legs) * len + 30 * 64 * p.crossings legs

/-- The dies whose lattices check a packet between two dies: each that it enters, and the destination's port (18 Table
18.3); a word that more than one check of a die meets counts once (DESIGN CHOICE, entry 66). -/
def checkedDies (across : Bool) (a b : Nat) : List Nat := if a = b then [a] else diesEntered across a b

/-- The same of a packet from die `m` to a place; a lodge has no lattice block. -/
def Place.checked (p : Place) (across : Bool) (m : Nat) : List Nat :=
  match p with
  | .die d _ => checkedDies across m d
  | .lodge l => diesEntered false m (lodgeDie (m / 4) l)

/-- The lattice of a die forwards `n` uncorrectable words (R28). -/
def Dev.latticeBad (n : Nat) (d : Dev) (die : Nat) : Dev :=
  if n = 0 then d
  else (d.setFld (.lattice die) Reg.LAT_STS.UE 1).countSat (.lattice die) Reg.LAT_UE_CNT.COUNT n

/-- The die whose memory holds the word of a key. -/
def wordDie (k : Nat) : Nat := (wordBlk k).dieOf.getD 0

/-- The words `ks` are carried over the lattice from their memories to a place: those that are uncorrectable are forwarded and
counted (R28, 18 Table 18.3). A seed tray lies in its Sieve. -/
def Dev.carry (d : Dev) (cfg : Option BedCfg) (to_ : Place) (ks : List Nat) : Dev :=
  (ks.filter (fun k => decide (k / 2 ^ 44 ≤ 2) && hedgeCheck (d.syndOf k) == .bad)).foldl (fun d k =>
    let across := match cfg, to_ with
      | some c, .die b _ => c.across (wordDie k) b
      | _, _ => false
    (to_.checked across (wordDie k)).foldl (Dev.latticeBad 1) d) d

/-- The words `ks` are read for bed `bed` by a unit at a place: carried there, and met by their checkers (18 R418). -/
def Dev.noteFrom (d : Dev) (bed : Nat) (to_ : Place) (ks : List Nat) : Dev :=
  (d.carry ((d.bed bed).map (fun b => b.cfg)) to_ ks).noteWords bed ks

/-- `n` uncorrectable words written from a place for bed `bed` to a memory of die `b` are forwarded on their way (R28). -/
def Dev.sendBad (d : Dev) (bed : Nat) (from_ : Place) (b n : Nat) : Dev :=
  let dies : List Nat := match from_ with
    | .die a _ => checkedDies (match d.bed bed with | some x => x.cfg.across a b | none => false) a b
    | .lodge _ => (from_.legs false b).map (fun x => x.1)
  dies.foldl (Dev.latticeBad n) d

/-- The words at `a` of which the lanes `ls` carry bytes of uncorrectable ones. -/
def badWords (a : Nat) (ls : List Lane) : Nat :=
  (((List.range ls.length).zip ls).filterMap (fun p => if p.2.synd = 0#8 then none else some ((a + p.1) / 8))).eraseDups.length

/-- Bytes on their way to address `a` of a memory of die `b`: the uncorrectable words among them are forwarded. -/
def Dev.sendLanes (d : Dev) (bed : Nat) (from_ : Place) (b a : Nat) (ls : List Lane) : Dev :=
  d.sendBad bed from_ b (badWords a ls)

end Machine
end Sys2Proof
end

