-- ==== Sys2Proof/Machine/State.lean ====
section
/-! DEFINITION. The state of the model: the commands that wait, first in first out, and the device; its faults and
refusals; and the state after reset. -/
namespace Sys2Proof
namespace Machine

/-- The command stops with a fault of this model. -/
inductive Fault where
  /-- Raised by any command on a block one of whose reserved-live bits differs from its documented value: the manual
  "makes no promise about that block's behaviour" then (04 R100). Safe: the model stops where the device goes on. -/
  | reservedLive
  deriving DecidableEq, Repr

/-- The command has no meaning in this model. -/
inductive Refusal where
  /-- Raised by `exec` alone, for a command that has no meaning yet. Safe: nothing is concluded about it. -/
  | notModelled (mnemonic : String)
  deriving DecidableEq, Repr

/-- The state: the queue of waiting commands, the next one in front, and the device. -/
structure State where
  pending : List Instr
  dev     : Dev
  deriving DecidableEq, Repr

/-- The machine right after reset: no command waits, and every part of the device holds the value that its table
gives for reset or that an entry of the log names. -/
def State.reset : State := ⟨[], Dev.start⟩

end Machine
end Sys2Proof
end

