-- ==== Sys2Proof/Machine/Run.lean ====
section
/-! DEFINITION. The one form that the meanings of commands have: an effect on the device at the instant of the command,
unless a reserved-live bit of the block that runs it is altered (04 R100). -/
namespace Sys2Proof
namespace Machine

/-- The block is without power: every block before VAUX3V3 is applied; all but POWER and SECURITY in OFF, and in DORMANT,
where nothing of the others runs (20 Table 20.1, 21 R465). -/
def Dev.dark (d : Dev) (b : Blk) : Bool :=
  !d.pwr.vaux || ((d.powerState == 5 || d.powerState == 2) && (match b with | .power | .security _ => false | _ => true))

/-- The outcome of a command of block `b` with the effect `f` at instant `t`; nothing happens in a block without power. -/
def State.run (s : State) (t : Nat) (b : Blk) (f : Dev → Dev) : Host.Outcome State Fault Refusal :=
  if s.dev.altered b then .fault .reservedLive
  else if s.dev.dark b then .next { s with dev := s.dev.touch t }
  else .next { s with dev := f (s.dev.touch t) }

/-- The outcome of an event that takes place whatever the reserved-live bits hold: a pin, a supply or a message. -/
def State.go (s : State) (t : Nat) (f : Dev → Dev) : Host.Outcome State Fault Refusal :=
  .next { s with dev := f (s.dev.touch t) }

/-- The outcome of a command that is an access of `src` to block `b`. From a host it wakes a device that is asleep, and the port
keeps it until exit ends: the command then comes again (20 R447, R449; entry 47). -/
def State.access (s : State) (t : Nat) (src : Source) (b : Blk) (f : Dev → Dev) : Host.Outcome State Fault Refusal :=
  if src.isHost && s.dev.asleep then s.go t (fun d => d.wake 0) else s.run t b f

end Machine
end Sys2Proof
end

