-- ==== Sys2Proof/Machine/QueueOps.lean ====
section
/-! DEFINITION. Barrow queues (10 R245 to R251, R478; 15 R365): contexts field by field, slots in ring memory, and the
claim, post, take and release of a slot. -/
namespace Sys2Proof
namespace Machine

/-- A field of a queue context: byte offset and size in bytes. -/
structure CtxFld where
  off  : Nat
  size : Nat
  deriving DecidableEq, Repr

def Ctx.kind : CtxFld := ⟨0x00, 1⟩
def Ctx.state : CtxFld := ⟨0x01, 1⟩
def Ctx.limit : CtxFld := ⟨0x02, 2⟩
def Ctx.depthLog2 : CtxFld := ⟨0x04, 1⟩
def Ctx.sqLog2 : CtxFld := ⟨0x04, 1⟩
def Ctx.bed : CtxFld := ⟨0x05, 1⟩
def Ctx.cqLog2 : CtxFld := ⟨0x05, 1⟩
def Ctx.msix : CtxFld := ⟨0x06, 2⟩
def Ctx.ringAddr : CtxFld := ⟨0x08, 8⟩
def Ctx.sqAddr : CtxFld := ⟨0x08, 8⟩
def Ctx.claim : CtxFld := ⟨0x10, 2⟩
def Ctx.sqHead : CtxFld := ⟨0x10, 2⟩
def Ctx.post : CtxFld := ⟨0x12, 2⟩
def Ctx.sqTail : CtxFld := ⟨0x12, 2⟩
def Ctx.cons : CtxFld := ⟨0x14, 2⟩
def Ctx.cqHead : CtxFld := ⟨0x14, 2⟩
def Ctx.rel : CtxFld := ⟨0x16, 2⟩
def Ctx.cqTail : CtxFld := ⟨0x16, 2⟩
def Ctx.ringLoc : CtxFld := ⟨0x18, 1⟩
def Ctx.priv : CtxFld := ⟨0x18, 1⟩
def Ctx.errCause : CtxFld := ⟨0x19, 1⟩
def Ctx.producer : CtxFld := ⟨0x1A, 2⟩
def Ctx.dbPage : CtxFld := ⟨0x1A, 2⟩
def Ctx.func : CtxFld := ⟨0x1C, 2⟩
def Ctx.staleCnt : CtxFld := ⟨0x1E, 2⟩
def Ctx.outstanding : CtxFld := ⟨0x1E, 2⟩
def Ctx.cqAddr : CtxFld := ⟨0x20, 8⟩
def Ctx.pasid : CtxFld := ⟨0x28, 4⟩
def Ctx.hostBed : CtxFld := ⟨0x2C, 1⟩
def Ctx.errCid : CtxFld := ⟨0x2E, 2⟩

/-- The value of a context field (Tables 10.8, 15.3). -/
def ctxGet (c : BitVec 512) (f : CtxFld) : Nat := bitsOf c.toNat (8 * f.off + 8 * f.size - 1) (8 * f.off)

/-- The context with `v` in a field. -/
def ctxSet (c : BitVec 512) (f : CtxFld) (v : Nat) : BitVec 512 :=
  BitVec.ofNat 512 (putBits c.toNat (8 * f.off + 8 * f.size - 1) (8 * f.off) v)

/-- The context of queue `q`. -/
def Dev.ctx (d : Dev) (q : Nat) : BitVec 512 := Tbl.get (fun _ => 0#512) d.queues q

/-- The device with another context for queue `q`. -/
def Dev.setCtx (d : Dev) (q : Nat) (c : BitVec 512) : Dev := { d with queues := Tbl.set (fun _ => 0#512) d.queues q c }

/-- A field of queue `q`'s context. -/
def Dev.qfld (d : Dev) (q : Nat) (f : CtxFld) : Nat := ctxGet (d.ctx q) f

/-- The device with `v` in a field of queue `q`'s context. -/
def Dev.setQfld (d : Dev) (q : Nat) (f : CtxFld) (v : Nat) : Dev := d.setCtx q (ctxSet (d.ctx q) f v)

/-- `(a − b) mod 2^16`, the distance of two slot counts. -/
def dist16 (a b : Nat) : Nat := (a + 0x10000 - b % 0x10000) % 0x10000

/-- The queue is a barrow queue. -/
def Dev.isBarrowQueue (d : Dev) (q : Nat) : Bool := d.qfld q Ctx.kind == 2

/-- The queue is in ERROR. -/
def Dev.queueInError (d : Dev) (q : Nat) : Bool := d.qfld q Ctx.state == 2

/-- The queue enters ERROR with a cause of Table 10.6. -/
def Dev.queueError (d : Dev) (q cause : Nat) : Dev := (d.setQfld q Ctx.state 2).setQfld q Ctx.errCause cause

/-- The PRODUCER code of a unit (Table 10.8): die in [14:12], kind in [11:9], unit in [8:0]; a plot's unit is its
logical number, given by `lplot`. -/
def Agent.producer (lplot : Nat → Nat → Nat) : Agent → Nat
  | .rill d e => d * 2 ^ 12 + 0 * 2 ^ 9 + e
  | .plot d p => d * 2 ^ 12 + 1 * 2 ^ 9 + lplot d p
  | .sieve d s => d * 2 ^ 12 + 2 * 2 ^ 9 + s
  | .mower d => d * 2 ^ 12 + 3 * 2 ^ 9
  | .trug => 4 * 2 ^ 9
  | .software => 5 * 2 ^ 9

/-- The PRODUCER field names the unit; the Trug engine and software lie on no die, so their die bits do not count
(DEDUCED, entry 15). -/
def producerIs (lplot : Nat → Nat → Nat) (code : Nat) (a : Agent) : Bool :=
  match a with
  | .trug | .software => bitsOf code 11 9 == bitsOf (a.producer lplot) 11 9
  | _ => code == a.producer lplot

/-- A location under the encodings of Table 10.5 for HBM (LOC 0) and glasshouse (LOC 1) as memory and address. -/
def locMem (loc addr : Nat) : Option (Mem × Nat) :=
  match loc with
  | 0 => some (.hbm, addr % 2 ^ 40)
  | 1 => some (.gh, bitsOf addr 42 40 * 2 ^ 26 + addr % 2 ^ 26)
  | _ => none

/-- Where slot `n` of the queue stands in memory: RING_ADDR plus 16 bytes for each slot before `n` mod DEPTH (R249). -/
def Dev.slotAt (d : Dev) (q n : Nat) : Mem × Nat :=
  let a := d.qfld q Ctx.ringAddr + n % 2 ^ d.qfld q Ctx.depthLog2 * 16
  (locMem (d.qfld q Ctx.ringLoc) a).getD (.hbm, a % 2 ^ 40)

/-- The 16 bytes of a barrow (Table 10.7). -/
def Barrow.bytes (b : Barrow) : List Byte :=
  leBytes 8 b.addr ++ leBytes 4 b.length ++ leBytes 1 b.gen
    ++ leBytes 1 (b.loc % 8 + b.path % 4 * 8 + bit b.last * 32)
    ++ leBytes 1 (b.flags.toNat + bit b.void * 32 + bit b.poisoned * 64 + bit b.late * 128)
    ++ leBytes 1 b.cause

/-- The barrow that 16 bytes hold. -/
def Barrow.ofBytes (bs : List Byte) : Barrow :=
  let n := leNat bs
  { addr := bitsOf n 63 0, length := bitsOf n 95 64, gen := bitsOf n 103 96, loc := bitsOf n 106 104,
    path := bitsOf n 108 107, last := n.testBit 109, flags := BitVec.ofNat 5 (bitsOf n 116 112),
    void := n.testBit 117, poisoned := n.testBit 118, late := n.testBit 119, cause := bitsOf n 127 120 }

/-- The generation that slot `n` of the queue holds. -/
def Dev.slotGen (d : Dev) (q n : Nat) : Nat :=
  let s := d.slotAt q n
  (d.readByte s.1 (s.2 + 0x0C)).toNat

/-- A barrow is stored into slot `n`, its GEN one greater than the slot's (R249). -/
def Dev.storeSlot (d : Dev) (q n : Nat) (b : Barrow) : Dev :=
  let s := d.slotAt q n
  d.writeBytes s.1 s.2 ({ b with gen := (d.slotGen q n + 1) % 256 }).bytes

/-- The unit may claim a slot of the queue: a barrow queue whose PRODUCER it is, with fewer than LIMIT slots
outstanding (R250). -/
def Dev.canClaim (d : Dev) (lplot : Nat → Nat → Nat) (a : Agent) (q : Nat) : Bool :=
  d.isBarrowQueue q && producerIs lplot (d.qfld q Ctx.producer) a
    && decide (dist16 (d.qfld q Ctx.claim) (d.qfld q Ctx.rel) < d.qfld q Ctx.limit)

/-- The unit claims slot CLAIM of the queue. -/
def Dev.claimSlot (d : Dev) (a : Agent) (q : Nat) : Dev :=
  let n := d.qfld q Ctx.claim
  { d.setQfld q Ctx.claim ((n + 1) % 0x10000) with claimed := d.claimed ++ [⟨q, n, a, false, false, false⟩] }

/-- The unit's oldest claimed slot of the queue whose barrow is not written. -/
def Dev.firstClaim (d : Dev) (a : Agent) (q : Nat) : Option ClaimedSlot :=
  d.claimed.find? (fun c => c.queue == q && c.agent == a && !c.written)

/-- The record of the slot that the unit claims next. -/
def Dev.newClaim (d : Dev) (a : Agent) (q : Nat) : ClaimedSlot := ⟨q, d.qfld q Ctx.claim, a, false, false, false⟩

/-- The claim record is removed. -/
def Dev.dropClaim (d : Dev) (c : ClaimedSlot) : Dev := { d with claimed := d.claimed.erase c }

/-- One STALE failure of the queue is counted (15 R365). -/
def Dev.countStale (d : Dev) (q : Nat) : Dev :=
  d.setQfld q Ctx.staleCnt (min (d.qfld q Ctx.staleCnt + 1) 0xFFFF)

/-- The message of a post into a queue that held no untaken barrow (R251). -/
def Dev.postMessage (d : Dev) (q : Nat) (wasEmpty : Bool) : Dev :=
  let m := d.qfld q Ctx.msix
  if wasEmpty && m.testBit 15 then d.raiseVector (d.qfld q Ctx.func) (m % 2 ^ 11) else d

/-- POST advances over the written slots that follow it, in claim order (R250), and the record of a slot goes once it
is posted, unless it is VOID and awaits its rewrite; the number bounds the slots. -/
def Dev.advancePost (d : Dev) (q : Nat) : Nat → Dev
  | 0 => d
  | k + 1 =>
    match d.claimed.find? (fun c => c.queue == q && c.count == d.qfld q Ctx.post && c.written && !c.dead) with
    | none => d
    | some c =>
      let was := d.qfld q Ctx.post == d.qfld q Ctx.cons
      let d1 := d.setQfld q Ctx.post ((d.qfld q Ctx.post + 1) % 0x10000)
      Dev.advancePost ((if c.void then d1 else d1.dropClaim c).postMessage q was) q k

/-- The claim record as the device holds it now: it may have become void with an earlier context of its queue. -/
def Dev.claimNow (d : Dev) (c : ClaimedSlot) : ClaimedSlot :=
  (d.claimed.find? (fun x => x.queue == c.queue && x.count == c.count && x.agent == c.agent)).getD { c with dead := true }

/-- A barrow is written into a claimed slot, or over the VOID barrow that stands there, and posted (R247, R249, R250).
`false`: the slot belongs to an earlier context of the queue, so the post fails with STALE and only STALE_CNT changes
(15 R365). -/
def Dev.postAt (d : Dev) (c0 : ClaimedSlot) (b : Barrow) : Dev × Bool :=
  let c := d.claimNow c0
  if c.dead then ((d.dropClaim c).countStale c.queue, false)
  else
    let d1 := d.storeSlot c.queue c.count b
    if c.written then (if b.void then d1 else d1.dropClaim c, true)
    else
      ({ d1 with claimed := d1.claimed.map (fun x => if x = c then { c with written := true, void := b.void } else x)
         }.advancePost c.queue (d1.claimed.length), true)

/-- The unit posts a barrow into its oldest claimed slot of the queue. -/
def Dev.postSlot (d : Dev) (a : Agent) (q : Nat) (b : Barrow) : Dev × Bool :=
  match d.firstClaim a q with
  | none => (d, true)
  | some c => d.postAt c b

/-- A posted barrow stands untaken in the queue. -/
def Dev.hasBarrow (d : Dev) (q : Nat) : Bool := d.isBarrowQueue q && d.qfld q Ctx.post != d.qfld q Ctx.cons

/-- The barrow that stands next in the queue, as it lies in its slot. -/
def Dev.nextBarrow (d : Dev) (q : Nat) : Barrow :=
  let s := d.slotAt q (d.qfld q Ctx.cons)
  Barrow.ofBytes (d.readBytes s.1 s.2 16)

/-- The next slot holds an uncorrectable word (R478). -/
def Dev.nextBad (d : Dev) (q : Nat) : Bool :=
  let s := d.slotAt q (d.qfld q Ctx.cons)
  d.anyBad s.1 s.2 16

/-- The cause UE_CONVERT (Table 10.6). -/
def Cause.ueConvert : Nat := 0x36
def Cause.propagated : Nat := 0x37
def Cause.stale : Nat := 0x38
def Cause.partition : Nat := 0x30
def Cause.unpopulated : Nat := 0x31
def Cause.hostFault : Nat := 0x32
def Cause.virtFault : Nat := 0x33
def Cause.pcieCpl : Nat := 0x34
def Cause.gateClosed : Nat := 0x35
def Cause.cancelled : Nat := 0x3F

/-- The consumer takes the next posted barrow; `none`: there is none to take, or a VOID barrow stands there, which
waits for its rewrite (R247). A slot with an uncorrectable word is taken as a POISONED barrow with cause UE_CONVERT,
the queue enters ERROR and the word is logged (R478). -/
def Dev.takeSlot (d : Dev) (a : Agent) (q : Nat) : Option (Barrow × Dev) :=
  if !d.hasBarrow q then none
  else
    let n := d.qfld q Ctx.cons
    let s := d.slotAt q n
    let d1 := (d.noteFrom (d.qfld q Ctx.bed) (Agent.place d.wardenLodge (some a)) (s.1.wordsOf s.2 16)).setQfld q Ctx.cons ((n + 1) % 0x10000)
    let b := d.nextBarrow q
    if d.nextBad q then
      let p : Barrow := ⟨0, 0, b.gen, 0, 3, b.last, 0#5, false, true, false, Cause.ueConvert⟩
      some (p, { d1.queueError q Cause.ueConvert with taken := d1.taken ++ [⟨q, n, a, p, false⟩] })
    else if b.void then none
    else some (b, { d1 with taken := d1.taken ++ [⟨q, n, a, b, false⟩] })

/-- The oldest barrow that the unit has taken from the queue and not released. -/
def Dev.firstTaken (d : Dev) (a : Agent) (q : Nat) : Option TakenBarrow :=
  d.taken.find? (fun t => t.queue == q && t.agent == a)

/-- The slot still holds the taken barrow's GEN, in the context it was taken under (R249, 15 R365). -/
def Dev.takenFresh (d : Dev) (t : TakenBarrow) : Bool := !t.dead && d.slotGen t.queue t.count == t.barrow.gen

/-- The consumer releases a taken barrow's slot; a slot whose GEN no longer matches is a STALE failure that changes no
other field (R249, R250). -/
def Dev.releaseSlot (d : Dev) (t : TakenBarrow) : Dev × Bool :=
  let d1 := { d with taken := d.taken.erase t }
  if d.takenFresh t then (d1.setQfld t.queue Ctx.rel ((d1.qfld t.queue Ctx.rel + 1) % 0x10000), true)
  else (d1.countStale t.queue, false)

/-- The generation of a slot advances by one and nothing else of it changes (R262). -/
def Dev.bumpGen (d : Dev) (q n : Nat) : Dev :=
  let s := d.slotAt q n
  d.writeBytes s.1 (s.2 + 0x0C) [BitVec.ofNat 8 (d.slotGen q n + 1)]

/-- The slots `n` counts from `from_` on advance their generation. -/
def Dev.bumpGens (d : Dev) (q : Nat) : Nat → Nat → Dev
  | _, 0 => d
  | k, n + 1 => Dev.bumpGens (d.bumpGen q k) q ((k + 1) % 0x10000) n

/-- A cancel recycles every slot of the queue that its producer claimed or posted and that is not released: each GEN
advances by 1, and CLAIM, POST and CONS return to REL (R262). -/
def Dev.recycleQueue (d : Dev) (q : Nat) : Dev :=
  let r := d.qfld q Ctx.rel
  let d1 := d.bumpGens q r (dist16 (d.qfld q Ctx.claim) r)
  let d2 := ((d1.setQfld q Ctx.claim r).setQfld q Ctx.post r).setQfld q Ctx.cons r
  { d2 with claimed := d2.claimed.filter (fun c => c.queue != q) }

/-- A new context makes every claimed or taken barrow of the old one void (15 R365). -/
def Dev.orphanQueue (d : Dev) (q : Nat) : Dev :=
  { d with claimed := d.claimed.map (fun c => if c.queue = q then { c with dead := true } else c),
           taken := d.taken.map (fun t => if t.queue = q then { t with dead := true } else t) }

/-- Every barrow that the unit has taken is released (R262). -/
def Dev.releaseAll (d : Dev) (a : Agent) : Dev :=
  (d.taken.filter (fun t => t.agent == a)).foldl (fun d t => (d.releaseSlot t).1) d

end Machine
end Sys2Proof
end

