-- ==== Sys2Proof/Machine/Repair.lean ====
section
/-! DEFINITION. The repair map: which physical plot serves each logical plot (01 R10, R11, 07 R198 to R200). -/
namespace Sys2Proof
namespace Machine

/-- The physical number of the plot in column `c` of terrace `t` (R10), keyed with its die. -/
def plotKey (die t c : Nat) : Nat := die * 68 + 17 * t + c

/-- The physical columns of a terrace that are bypassed: those whose array failed; and, when no column failed its
array test and the reserve is therefore free, the westmost that failed the defined-summation test (R198). -/
def bypassed (arr def_ : List Nat) (die t : Nat) : List Nat :=
  let fails := (List.range 17).filter (fun c => arr.contains (plotKey die t c))
  if fails.isEmpty then ((List.range 17).filter (fun c => def_.contains (plotKey die t c))).take 1
  else fails

/-- The physical columns of a terrace that logical columns take, west to east (R11, R198). -/
def usedColumns (arr def_ : List Nat) (die t : Nat) : List Nat :=
  let by_ := bypassed arr def_ die t
  ((List.range 17).filter (fun c => !by_.contains c)).take 16

/-- Die, and physical plot of the die, that serve logical plot `L`; `none`: unmapped (R11, R116). -/
def mapPlot (arr def_ : List Nat) (L : Nat) : Option (Nat × Nat) :=
  let die := L / 64
  let t := L % 64 / 16
  ((usedColumns arr def_ die t)[L % 16]?).map (fun c => (die, 17 * t + c))

/-- The physical plot that serves a logical plot by the map in force. -/
def Dev.physOf (d : Dev) (L : Nat) : Option (Nat × Nat) := mapPlot d.arrFail d.defFail L

/-- The logical plot that a physical plot serves by the map in force. -/
def Dev.logicalOf (d : Dev) (die p : Nat) : Option Nat :=
  ((List.range 16).map (fun c => die * 64 + p / 17 * 16 + c)).find? (fun L => d.physOf L == some (die, p))

/-- The logical plot that a physical plot serves, 0x1FF where none, for PRODUCER codes. -/
def Dev.lplot (d : Dev) (die p : Nat) : Nat := (d.logicalOf die p).getD 0x1FF

/-- The number of logical plots that have a physical plot (R116). -/
def Dev.mappedCount (d : Dev) : Nat := ((List.range 512).filter (fun L => (d.physOf L).isSome)).length

/-- The hop between two neighbouring logical columns of a terrace passes a bypassed plot (R199). -/
def Dev.bypassBetween (d : Dev) (L L' : Nat) : Bool :=
  match d.physOf L, d.physOf L' with
  | some (a, p), some (b, q) => a == b && p / 17 == q / 17 && decide (1 < (if p < q then q - p else p - q))
  | _, _ => false

end Machine
end Sys2Proof
end

