-- ==== Sys2Proof/Machine/BedOps.lean ====
section
/-! DEFINITION. Beds and their work items (02 R43 to R58, R475 to R477): look-ups, issue, retirement, the cancel of
rills (10 R262) and the halt of a bed (R53). -/
namespace Sys2Proof
namespace Machine

/-! ### Look-ups -/

/-- The dies that hold plots of a bed, ascending (R475). -/
def Bed.dies (x : Bed) : List Nat := x.slots.map (fun s => s.1)

/-- The bed's lowest-numbered die (R57). -/
def Bed.lowDie (x : Bed) : Nat := match x.slots with | [] => 0 | s :: _ => s.1

/-- The slot of the bed on a die. -/
def Bed.slotOn (x : Bed) (die : Nat) : Option Nat := (x.slots.find? (fun s => s.1 == die)).map (fun s => s.2)

/-- The bed that holds slot `s` of a die. -/
def Dev.bedAtSlot (d : Dev) (die s : Nat) : Option Nat :=
  (d.beds.find? (fun e => match e.2 with | some x => x.slots.contains (die, s) | none => false)).map (fun e => e.1)

/-- The numbers of the beds defined, ascending. -/
def Dev.bedIds (d : Dev) : List Nat := d.beds.map (fun e => e.1)

/-- The bed that holds a logical plot. -/
def Dev.bedOfLplot (d : Dev) (L : Nat) : Option Nat :=
  (d.beds.find? (fun e => match e.2 with
    | some x => x.cfg.ring.any (fun r => r.lplot == L) | none => false)).map (fun e => e.1)

/-- The bed that holds a physical plot. -/
def Dev.bedOfPlot (d : Dev) (die p : Nat) : Option Nat := (d.logicalOf die p).bind d.bedOfLplot

/-- The bed that the engine in bit `i` of a mask belongs to. -/
def Dev.bedOfMask (d : Dev) (mask : BedCfg → Nat) (i : Nat) : Option Nat :=
  (d.beds.find? (fun e => match e.2 with | some x => (mask x.cfg).testBit i | none => false)).map (fun e => e.1)

/-- The bed of rill `e` of a die (R73). -/
def Dev.bedOfRill (d : Dev) (die e : Nat) : Option Nat := d.bedOfMask (fun c => c.rillMask) (die * 16 + e)
/-- The bed of Sieve `s` of a die. -/
def Dev.bedOfSieve (d : Dev) (die s : Nat) : Option Nat := d.bedOfMask (fun c => c.sieveMask) (die * 4 + s)
/-- The bed of a die's Mower. -/
def Dev.bedOfMower (d : Dev) (die : Nat) : Option Nat := d.bedOfMask (fun c => c.mowerMask) die

/-- Units and engines by key. -/
def Dev.rill (d : Dev) (die e : Nat) : RillSt := Tbl.get (fun _ => RillSt.start) d.rills (die * 16 + e)
def Dev.setRill (d : Dev) (die e : Nat) (x : RillSt) : Dev :=
  { d with rills := Tbl.set (fun _ => RillSt.start) d.rills (die * 16 + e) x }
def Dev.sieve (d : Dev) (die s : Nat) : SieveSt := Tbl.get (fun _ => SieveSt.start) d.sieves (die * 4 + s)
def Dev.setSieve (d : Dev) (die s : Nat) (x : SieveSt) : Dev :=
  { d with sieves := Tbl.set (fun _ => SieveSt.start) d.sieves (die * 4 + s) x }
def Dev.mower (d : Dev) (die : Nat) : MowerSt := Tbl.get (fun _ => MowerSt.start) d.mowers die
def Dev.setMower (d : Dev) (die : Nat) (x : MowerSt) : Dev :=
  { d with mowers := Tbl.set (fun _ => MowerSt.start) d.mowers die x }

/-! ### Items -/

/-- The items of record `pc` of a bed on a die. -/
def BedCfg.recordOn (c : BedCfg) (die pc : Nat) : Option RecordCfg :=
  (c.progs.find? (fun p => p.die == die)).bind (fun p => p.records[pc]?)

/-- Record `pc` of a bed, whose NEXT, REPEAT and FLAGS are the same on every die (03 R75). -/
def BedCfg.record (c : BedCfg) (pc : Nat) : Option RecordCfg := match c.progs with
  | [] => none
  | p :: _ => p.records[pc]?

/-- An item retires at its engine at the device's instant (R49). -/
def Dev.retireItem (d : Dev) (seq : Nat) : Dev :=
  match d.items.find? (fun i => i.seq == seq) with
  | none => d
  | some i =>
    ({ d with items := d.items.filter (fun j => j.seq != seq) }).modBed i.bed
      (fun x => x.retiredAt d.now)

/-- The first item sent to an engine and not yet accepted. -/
def Dev.nextItem (d : Dev) (die : Nat) (k : Kind) (u : Nat) : Option Item :=
  d.items.find? (fun i => i.sameEngine die k u && !i.held && !i.accepted)

/-- The first item that an engine has accepted and not retired. -/
def Dev.firstAccepted (d : Dev) (die : Nat) (k : Kind) (u : Nat) : Option Item :=
  d.items.find? (fun i => i.sameEngine die k u && i.accepted)

/-- The item is accepted by its engine. -/
def Dev.acceptItem (d : Dev) (seq : Nat) : Dev :=
  { d with items := d.items.map (fun i => if i.seq = seq then { i with accepted := true, acceptT := d.now } else i) }

/-- The bed that the agent works for, by its run or the image. -/
def Dev.bedOfAgent (d : Dev) : Agent → Nat
  | .rill i e => match (d.rill i e).run with
    | some r => r.bed
    | none => (d.bedOfRill i e).getD 0xFF
  | .plot i p => (d.bedOfPlot i p).getD 0xFF
  | .sieve i s => (d.bedOfSieve i s).getD 0xFF
  | .mower i => (d.bedOfMower i).getD 0xFF
  | .trug | .software => 0xFF

/-! ### Cancelling a rill (10 R262) -/

/-- The descriptor's OUT_QUEUE, `none` for 0xFFFF (Table 10.4). -/
def descOutQueue (desc : List Byte) : Option Nat :=
  let q := leNat ((desc.drop 0x80).take 2)
  if q = 0xFFFF then none else some q

/-- The bench requests of units that stand stalled or retried are withdrawn, and what they lost is waited for no more. -/
def Dev.dropRequestsOf (d : Dev) (p : Agent → Bool) : Dev :=
  let e := d.settleAll
  { e with
    furs := (e.furs.map (fun e => (e.1, { e.2 with
      stalled := e.2.stalled.filter (fun x => !p x.agent)
      retried := e.2.retried.filter (fun x => !p x.1.agent) }))).filter (fun e => e.2 != Furrow.start)
    lost := e.lost.filter (fun a => !p a) }

/-- The same of one unit. -/
def Dev.dropRequests (d : Dev) (a : Agent) : Dev := d.dropRequestsOf (fun x => x == a)

/-- The rill enters CANCELLING: its slots are recycled, its held barrow and pending items are discarded, its input
barrows released; its last cause becomes CANCELLED when a descriptor was running (R262). -/
def Dev.cancelRill (d : Dev) (die e : Nat) : Dev :=
  let r := d.rill die e
  let runs := r.trail ++ r.run.toList
  let d1 := (runs.filterMap (fun x => descOutQueue x.desc)).eraseDups.foldl (fun d q => d.recycleQueue q)
    (if runs.isEmpty then d else d.setFld (.rill die e) Reg.RILL_STS.CAUSE Cause.cancelled)
  let d2 := d1.releaseAll (.rill die e)
  let d3 := { (d2.dropRequests (.rill die e)) with
    items := d2.items.filter (fun i => !(i.sameEngine die .rill e))
    claimed := d2.claimed.filter (fun c => c.agent != Agent.rill die e) }
  (d3.setRill die e { r with run := none, trail := [], cancelT := some d.now }).setFld
    (.rill die e) Reg.RILL_STS.STATE 4

/-- The rill runs a descriptor or holds items pending. -/
def Dev.rillBusy (d : Dev) (die e : Nat) : Bool :=
  (d.rill die e).run.isSome || !(d.rill die e).trail.isEmpty || d.items.any (fun i => i.sameEngine die .rill e)

/-- Every busy rill of a bed is cancelled. -/
def Dev.cancelRills (d : Dev) (c : BedCfg) : Dev :=
  ((List.range 128).filter (fun i => c.rillMask.testBit i)).foldl
    (fun d i => if d.rillBusy (i / 16) (i % 16) then d.cancelRill (i / 16) (i % 16) else d) d

/-! ### Mirrored Mower registers (12 R301) -/

/-- The Mowers of a bed, ascending. -/
def BedCfg.mowers (c : BedCfg) : List Nat := (List.range 8).filter (fun i => c.mowerMask.testBit i)

/-- The mirrored registers' offsets. -/
def mowMirrors : List Nat := [0x14, 0x18] ++ (List.range 13).map (fun i => 0x100 + 4 * i)

/-- The Mower whose mirrored registers a Mower's are copies of: the lowest of its bed, where it is another (R301). -/
def Dev.mirrorOf (d : Dev) (die : Nat) : Option Nat :=
  (((d.bedOfMower die).bind d.bed).bind (fun x => x.cfg.mowers.head?)).filter (fun l => l != die)

/-- The Mowers of a bed that a load or a replant has configured hold the values of its lowest (R301). -/
def Dev.copyMirrors (d : Dev) (c : BedCfg) : Dev :=
  match c.mowers with
  | [] => d
  | l :: ms => ms.foldl (fun d m => mowMirrors.foldl (fun d o => d.setWord (.mower m) o (d.word (.mower l) o))
      (d.setMower m { d.mower m with mirror := [] })) d

/-! ### The halt of a bed (R53) -/

/-- The item's engine has begun it, so that a halt lets it finish: a pass in the array or one that replays, a Sieve or
Mower command in progress; OBOTIL and BARRIER items, whose effect is outside the die (DEDUCED, entry 17). -/
def Dev.begun (d : Dev) (i : Item) : Bool :=
  match i.cfg.kind with
  | .pass => d.plots.any (fun e => e.1 / 68 == i.die && e.2.passes.any (fun p =>
      p.seq == i.seq && (p.stage == .running || p.replay)))
  | .sieve => match (d.sieve i.die i.cfg.unit).run with
      | some r => r.seq == i.seq && r.started
      | none => false
  | .mower => match (d.mower i.die).run with
      | some r => r.seq == i.seq && r.begun
      | none => false
  | .obotil | .barrier => true
  | .rill | .trug | .nop => false

/-- A Sieve or Mower whose accepted command is among the discarded ones has none any more and is IDLE. -/
def Dev.idleSieves (gone : List Nat) (d : Dev) : Dev :=
  d.sieves.foldl (fun d e => match e.2.run with
    | some r => if gone.contains r.seq then
        (d.setSieve (e.1 / 4) (e.1 % 4) { e.2 with run := none }).setFld (.sieve (e.1 / 4) (e.1 % 4)) Reg.SIEVE_STS.STATE 0
      else d
    | none => d) d
def Dev.idleMowers (gone : List Nat) (d : Dev) : Dev :=
  d.mowers.foldl (fun d e => match e.2.run with
    | some r => if gone.contains r.seq then
        (d.setMower e.1 { e.2 with run := none }).setFld (.mower e.1) Reg.MOW_STS.STATE 0
      else d
    | none => d) d

/-- Staging holds the packet. -/
def TrugPkt.held (p : TrugPkt) : Bool := p.staged.isSome

/-- The packets of an instance that staging holds (13 R321). -/
def TrugInst.staged (x : TrugInst) : List TrugPkt := x.pkts.filter (fun p => p.held)

/-- The Trug engine ends the commands of a bed: it sends nothing more for them, closes the instances that they opened and discards
their staged packets (13 R326). -/
def Dev.endTrugs (b : Nat) (d : Dev) : Dev :=
  let mine (x : TrugInst) : Bool := x.run.any (fun r => r.bed == b)
  let gone := d.trugs.filter mine
  ({ d with trugWait := d.trugWait.filter (fun r => r.bed != b), trugs := d.trugs.filter (fun x => !mine x) }.countSat
    .trug Reg.TRUG_DROP_CNT.COUNT (gone.foldl (fun (n : Nat) (x : TrugInst) => n + x.staged.length) 0)).countWrap .trug Reg.TRUG_BUCKETS.COUNT
      (gone.filter (fun (x : TrugInst) => !x.closed)).length

/-- The unit has lost work: a pass or the command it had accepted is among the discarded items. -/
def Dev.losesWork (d : Dev) (gone : List Nat) : Agent → Bool
  | .plot i p => (d.plot i p).passes.any (fun x => gone.contains x.seq)
  | .sieve i s => (d.sieve i s).run.any (fun r => gone.contains r.seq)
  | .mower i => (d.mower i).run.any (fun r => gone.contains r.seq)
  | .rill _ _ | .trug | .software => false

/-- The items of a bed that have not begun are discarded, with the units' records of them and the bench requests that these
had made; nothing of the bed waits any more for what it lost. -/
def Dev.dropUnbegun (d : Dev) (b : Nat) : Dev :=
  let gone := (d.items.filter (fun i => i.bed == b && !d.begun i)).map (fun i => i.seq)
  let d1 := { d.dropRequestsOf (d.losesWork gone) with toIssue := d.toIssue.filter (fun q => q.bed != b), lost := d.lost.filter (fun a => d.bedOfAgent a != b) }
  Dev.endTrugs b (Dev.idleMowers gone (Dev.idleSieves gone { d1 with
    items := d.items.filter (fun i => !gone.contains i.seq)
    plots := (d.plots.map (fun e =>
      (e.1, { e.2 with passes := e.2.passes.filter (fun p => !gone.contains p.seq) }))).filter
        (fun e => e.2 != PlotSt.start) }))

/-- The HALT entry, the bed's fault interrupt and its vector (R53, 18 Table 18.8, 15 R376). -/
def Dev.reportHalt (d : Dev) (b cause : Nat) : Dev :=
  let low := match d.bed b with | some x => x.lowDie | none => 0
  (d.logPush { d.entry (.shed low) Ev.halt 2 with cause := cause, bed := b }).raiseBed b

/-- The loader's LSTATE (03 Table 3.10). -/
def Dev.lstate (d : Dev) : Nat := d.fld .trellis Reg.TRELLIS_STS.LSTATE

/-- A replant of bed `b` is in the phase `l` of Table 3.10. -/
def Dev.replanting (d : Dev) (l b : Nat) : Bool := d.lstate == l && d.loader.op == some .replant && d.loader.bed == b

/-- Bed `b` halts with a cause (R53): no further item; what has begun finishes; its rills are cancelled; the halt is
reported. In REPLANT the cause is reported, once, and nothing halts; a halt while its replant is ARMED takes the replant to
CONFIG at once (R477; entry 35). A bed that is HALTED stays as it is. -/
def Dev.haltBed (d : Dev) (b cause : Nat) : Dev :=
  match d.bed b with
  | none => d
  | some x =>
    if x.state = .halted then d
    else if x.state = .replant then
      if x.haltCause = 3 then d
      else (d.setBed b (some { x with haltCause := 3, poisoned := false })).reportHalt b 3
    else
      let d1 := (d.setBed b (some { x with state := .halted, haltCause := cause, poisoned := false, openT := none,
                                           sample := none })).dropUnbegun b
      let d2 := (d1.cancelRills x.cfg).reportHalt b cause
      if d.replanting 2 b then d2.setFld .trellis Reg.TRELLIS_STS.LSTATE 4 else d2

/-- A POISONED barrow was posted by an engine of bed `b`: the bed halts at the next chime (10 R248); in REPLANT, where no
chime halts it, the cause is reported at once (03 R477; entry 35). -/
def Dev.poisonBed (d : Dev) (b : Nat) : Dev :=
  match d.bed b with
  | none => d
  | some x => if x.state = .replant then d.haltBed b 3 else d.setBed b (some { x with poisoned := true })

/-- HAZARD_TIMEOUT of a bed (R55). -/
def Dev.hazardBed (d : Dev) (b : Nat) : Dev := d.modBed b (fun x => { x with hazard := true })

end Machine
end Sys2Proof
end

