-- ==== Sys2Proof/Machine/Flit.lean ====
section
/-! DEFINITION. Flits on the wire (14 R333 to R336): the hedge check byte, the framing masks, and the coding and decoding
of quarters. -/
namespace Sys2Proof
namespace Machine

/-- The XOR of the columns of the set bits of a number, from column `cs` on. -/
def xorColumns (n : Nat) : List (BitVec 8) → Nat → BitVec 8
  | [], _ => 0#8
  | h :: hs, i => (if n.testBit i then h else 0#8) ^^^ xorColumns n hs (i + 1)

/-- The hedge check byte of a 64-bit word (18 R414). -/
def hedgeByte (w : Nat) : BitVec 8 := xorColumns w (hedgeColumns.take 64) 0

/-- The framing mask of a tag in set A, or in set B (R334). -/
def frameMask (setB : Bool) (tag : Nat) : BitVec 8 :=
  let p := (tag % 2 + tag / 2 % 2 + tag / 4 % 2 + tag / 8 % 2) % 2
  BitVec.ofNat 8 (tag % 16 + p * 16) ^^^ (if setB then 0x60#8 else 0#8)

/-- The nine wire bytes of a word under a mask (R333, R334). -/
def wireWord (setB : Bool) (tag : Nat) (bs : List Byte) : List Byte :=
  leBytes 8 (leNat bs) ++ [hedgeByte (leNat bs) ^^^ frameMask setB tag]

/-- Lists of `n`, `k` of them. -/
def pieces {α : Type} (n : Nat) : Nat → List α → List (List α)
  | 0, _ => []
  | k + 1, xs => xs.take n :: pieces n k (xs.drop n)

/-- The 72 wire bytes of a quarter of 64 data bytes. -/
def wireQuarter (setB : Bool) (tag : Nat) (bs : List Byte) : List Byte := (pieces 8 8 bs).flatMap (wireWord setB tag)

/-- All bytes are 0. -/
def allZero (bs : List Byte) : Bool := bs.all (fun b => b == 0#8)

/-- Bytes completed with zeros to `n`. -/
def padTo (n : Nat) (bs : List Byte) : List Byte := bs ++ List.replicate (n - bs.length) 0#8

/-- The four quarters of a full flit with the tags of its quarters. -/
def wireFlit (tags : List Nat) (data : List Byte) : List (List Byte) :=
  (tags.zip (pieces 64 4 (padTo 256 data))).map (fun p => wireQuarter false p.1 p.2)

/-- The tags of a DATA flit's quarters (R336). -/
def dataTags (f : TxFlit) (seq : Nat) : List Nat :=
  [2 + 2 * f.cls + (if f.start then 0 else 1), bitsOf seq 11 8, bitsOf seq 7 4, bitsOf seq 3 0]

/-- The short flit of a kind with its words 0 and 1. -/
def wireShort (kind w0 w1 : Nat) : List Byte := wireQuarter true kind (padTo 64 (leBytes 8 w0 ++ leBytes 8 w1))

/-! ### Decoding (R335) -/

/-- The syndrome of a received word. -/
def rxSyndrome (bs : List Byte) : BitVec 8 := hedgeByte (leNat (bs.take 8)) ^^^ bs.getD 8 0#8

/-- What a word needs under a pair: `some 0` nothing, `some 1` one correction; `none`: it does not support the pair. -/
def wordCost (bs : List Byte) (m : BitVec 8) : Option Nat :=
  match hedgeCheck (rxSyndrome bs ^^^ m) with
  | .clean => some 0
  | .corrected _ => some 1
  | .bad => none

/-- Corrections that a quarter needs under a mask; `none`: some word does not support it. -/
def quarterCost (m : BitVec 8) : List (List Byte) → Option Nat
  | [] => some 0
  | w :: ws => match wordCost w m, quarterCost m ws with
    | some a, some b => some (a + b)
    | _, _ => none

/-- The pairs (set, tag) in order. -/
def framePairs : List (Bool × Nat) :=
  (List.range 16).map (fun t => (false, t)) ++ (List.range 16).map (fun t => (true, t))

/-- The data bytes of a word under a mask, its wrong bit put right. -/
def rxWord (m : BitVec 8) (bs : List Byte) : List Byte :=
  let n := leNat (bs.take 8)
  match hedgeCheck (rxSyndrome bs ^^^ m) with
  | .corrected b => leBytes 8 (if b < 64 then n ^^^ 2 ^ b else n)
  | _ => leBytes 8 n

/-- A quarter as decoded: its set and tag, its 64 data bytes, and the corrections made. -/
structure RxQuarter where
  setB  : Bool
  tag   : Nat
  data  : List Byte
  fixed : Nat
  deriving DecidableEq, Repr

/-- The receiver settles the pair over the whole quarter, or finds it bad. -/
def rxQuarter (bs : List Byte) : Option RxQuarter :=
  let ws := pieces 9 8 bs
  let ok := framePairs.filterMap (fun p => (quarterCost (frameMask p.1 p.2) ws).map (fun c => (p, c)))
  match ok with
  | [] => none
  | x :: xs =>
    let least := xs.foldl (fun m y => min m y.2) x.2
    match ok.filter (fun y => y.2 == least) with
    | [y] => some ⟨y.1.1, y.1.2, ws.flatMap (rxWord (frameMask y.1.1 y.1.2)), y.2⟩
    | _ => none

end Machine
end Sys2Proof
end

