-- ==== Sys2Proof/Machine/PortOps.lean ====
section
/-! DEFINITION. Obotil ports as operations (14 R337 to R345, R357): queues for sending, routes, violations, and the
messages that leave and arrive. -/
namespace Sys2Proof
namespace Machine

/-! ### Ports -/

/-- Port `p`, and the device with another. -/
def Dev.port (d : Dev) (p : Nat) : PortSt := Tbl.get (fun _ => PortSt.start) d.ports p
def Dev.setPort (d : Dev) (p : Nat) (x : PortSt) : Dev := { d with ports := Tbl.set (fun _ => PortSt.start) d.ports p x }

/-- Port `p` after `f`. -/
def Dev.modPort (d : Dev) (p : Nat) (f : PortSt → PortSt) : Dev := d.setPort p (f (d.port p))

/-- OB_STS.STATE of a port. -/
def Dev.portState (d : Dev) (p : Nat) : Nat := d.fld (.obotil p) Reg.OB_STS.STATE

/-- The port is UP. -/
def Dev.portUp (d : Dev) (p : Nat) : Bool := d.portState p == 2

/-- This device's identifier (OB_DEV_ID.DEV). -/
def Dev.devId (d : Dev) : Nat := d.fld (.obotil 0) Reg.OB_DEV_ID.DEV

/-- A short flit is queued at a port that is UP (R337). -/
def Dev.queueShort (d : Dev) (p : Nat) (f : ShortFlit) : Dev :=
  if d.portUp p then d.modPort p (fun x => { x with short := x.short ++ [f] }) else d

/-- Class `c` of the counts: 0 CONTROL, 1 TRUG, 2 BULK, other short. -/
def Counts.get (n : Counts) (c : Nat) : Nat :=
  match c with
  | 0 => n.control | 1 => n.trug | 2 => n.bulk | _ => n.short

/-- The counts with `k` more of a class. -/
def Counts.add (n : Counts) (c k : Nat) : Counts :=
  match c with
  | 0 => { n with control := n.control + k }
  | 1 => { n with trug := n.trug + k }
  | 2 => { n with bulk := n.bulk + k }
  | _ => { n with short := n.short + k }

/-- Receive buffers of a class (Table 14.3). -/
def classBuffers (c : Nat) : Nat := match c with | 0 => 64 | 1 => 512 | 2 => 512 | _ => 16

/-! ### Routes and messages -/

/-- The route table's address (R340). -/
def Dev.routeBase (d : Dev) : Nat :=
  d.fld (.obotil 0) Reg.OB_ROUTE_BASE_HI.BASE_HI * 2 ^ 32 + d.fld (.obotil 0) Reg.OB_ROUTE_BASE_LO.BASE_LO * 2 ^ 16

/-- The port that the route table names for a device; `none`: no valid entry, or the port is not UP, or the entry lies in
an uncorrectable word (R340). -/
def Dev.route (d : Dev) (dev : Nat) : Option Nat :=
  let a := d.routeBase + dev
  let e := (d.readByte .hbm a).toNat
  if !e.testBit 7 || !d.portUp (e % 8) || d.anyBad .hbm a 1 then none else some (e % 8)

/-- The header of a message (Table 14.4). -/
structure MsgHead where
  type   : Nat
  dst    : Nat
  src    : Nat
  gate   : Nat
  length : Nat
  epoch  : Nat
  offset : Nat
  wtag   : Nat
  reason : Nat
  deriving DecidableEq, Repr

/-- The 32 bytes of a header. -/
def MsgHead.bytes (h : MsgHead) : List Byte :=
  leBytes 1 h.type ++ leBytes 1 0 ++ leBytes 2 h.dst ++ leBytes 2 h.src ++ leBytes 2 h.gate ++ leBytes 4 h.length
    ++ leBytes 4 h.epoch ++ leBytes 4 h.offset ++ leBytes 4 h.wtag ++ leBytes 1 h.reason ++ leBytes 7 0

/-- The number in `n` bytes from an offset on. -/
def numAt (bs : List Byte) (off n : Nat) : Nat := leNat ((bs.drop off).take n)

/-- The header that bytes hold. -/
def MsgHead.ofBytes (b : List Byte) : MsgHead where
  type := numAt b 0 1
  dst := numAt b 2 2
  src := numAt b 4 2
  gate := numAt b 6 2
  length := numAt b 8 4
  epoch := numAt b 0xC 4
  offset := numAt b 0x10 4
  wtag := numAt b 0x14 4
  reason := numAt b 0x18 1

/-- The message types. -/
def Msg.write : Nat := 1
def Msg.ack : Nat := 2
def Msg.nack : Nat := 3
def Msg.trug : Nat := 4

/-- The class in which a type travels. -/
def msgClass (type : Nat) : Nat := if type = 1 then 2 else if type = 4 then 1 else 0

/-- The DATA flits of a message: its start flit with the header and a Trug packet header, then its body (R339). -/
def msgFlits (h : MsgHead) (trugHead body : List Byte) : List TxFlit :=
  ⟨msgClass h.type, true, padTo 256 (h.bytes ++ trugHead)⟩ ::
    (pieces 256 (ceilDiv body.length 256) body).map (fun b => ⟨msgClass h.type, false, padTo 256 b⟩)

/-- A message is queued at a port. -/
def Dev.queueMsg (d : Dev) (p : Nat) (h : MsgHead) (trugHead body : List Byte) : Dev :=
  d.modPort p (fun x => { x with txq := x.txq ++ msgFlits h trugHead body })

/-- A message goes out on the port that its destination's route names; without a route it is not sent. -/
def Dev.sendMsg (d : Dev) (h : MsgHead) (trugHead body : List Byte) : Dev :=
  match d.route h.dst with
  | some p => d.queueMsg p h trugHead body
  | none => d

/-- The answer to a WRITE: WRITE_ACK, or WRITE_NACK with a reason (R347). -/
def MsgHead.answer (h : MsgHead) (me reason : Nat) : MsgHead :=
  { h with type := if reason = 0 then Msg.ack else Msg.nack, dst := h.src, src := me, length := 0, reason := reason }

/-- A WRITE is answered. -/
def Dev.answerWrite (d : Dev) (h : MsgHead) (reason : Nat) : Dev := d.sendMsg (h.answer d.devId reason) [] []

/-! ### Violations (R357) -/

/-- The counter of a violation code. -/
def violCounter : Nat → Fld
  | 1 => Reg.OB_VIOL_MALFORMED.COUNT
  | 2 => Reg.OB_VIOL_CLASS.COUNT
  | 3 => Reg.OB_VIOL_CREDIT.COUNT
  | 4 => Reg.OB_VIOL_SEQ.COUNT
  | 5 => Reg.OB_VIOL_OVERSIZE.COUNT
  | _ => Reg.OB_VIOL_MISROUTE.COUNT

/-- The partner of a port violates the protocol: counted, recorded, and reported in the next LINK flit. -/
def Dev.violation (d : Dev) (p code seq : Nat) : Dev :=
  let b := Blk.obotil p
  ((((d.countSat b (violCounter code) 1).setFld b Reg.OB_VIOL_LAST.CODE code).setFld b Reg.OB_VIOL_LAST.SEQ seq).setFld b
    Reg.OB_STS.VIOL 1).modPort p (fun x => { x with viol := some (code, seq) })

/-! ### The link (R331, R343) -/

/-- The LINK entry of a port: severity 1 for a retrain, 2 for a port that goes down (18 Table 18.8). -/
def Dev.logLink (d : Dev) (p sev : Nat) : Dev :=
  d.logPush { d.entry (.obotil p) Ev.link sev with detail := p }

/-- The port retrains: short flits and the flit in progress are gone, the replay buffer and E survive. -/
def Dev.retrainPort (d : Dev) (p : Nat) : Dev :=
  (((d.logLink p 1).setFld (.obotil p) Reg.OB_STS.STATE 3).setFld (.obotil p) Reg.OB_STS.RETRAIN 1).modPort p (fun x => { x with
    short := [], cur := [], resend := none, replays := 0, gaps := 0, nakSent := false })

/-- A port as it starts afresh; the messages that it had received whole stay, and their buffers are no longer counted (DESIGN CHOICE,
entry 81). -/
def PortSt.anew (x : PortSt) : PortSt :=
  { PortSt.start with rx := (x.rx.filter (fun m => m.whole && !m.dead)).map (fun m => { m with flits := 0 }) }

/-- The port goes DOWN: what it holds unacknowledged is never delivered. -/
def Dev.portGoesDown (d : Dev) (p : Nat) : Dev :=
  ((((d.logLink p 2).setFld (.obotil p) Reg.OB_STS.STATE 4).setFld (.obotil p) Reg.OB_STS.LINK_DOWN 1).setFld (.obotil p)
    Reg.OB_STS.WIDTH 0).modPort p PortSt.anew

/-- A replay begins at a sequence number; after 16 in succession without an advance the port retrains. -/
def Dev.startReplay (d : Dev) (p seq : Nat) : Dev :=
  let d1 := (d.countSat (.obotil p) Reg.OB_RETRY_CNT.COUNT 1).modPort p (fun x => { x with
    resend := some seq, replays := x.replays + 1, timer := d.now })
  if 16 ≤ (d1.port p).replays then d1.retrainPort p else d1

/-! ### Received messages -/

/-- Receive buffers of a class that messages hold. -/
def PortSt.held (x : PortSt) (c : Nat) : Nat := (x.rx.filter (fun m => m.cls == c)).foldl (fun n m => n + m.flits) 0

/-- A message is done with: it goes, and its buffers are free (R344). -/
def PortSt.freeMsg (x : PortSt) (m : RxMsg) : PortSt :=
  { x with rx := x.rx.erase m, freed := x.freed.add m.cls m.flits }

/-- A message in arrival is discarded with what follows of it; its buffers are free. -/
def PortSt.killMsg (x : PortSt) (m : RxMsg) : PortSt :=
  if m.whole then x.freeMsg m
  else { x with rx := x.rx.map (fun y => if y = m then { y with dead := true, body := [], flits := 0 } else y),
                freed := x.freed.add m.cls m.flits }

/-- The oldest message of a class that may be used: whole, or of BULK, whose check needs only its start flit. -/
def PortSt.firstMsg (x : PortSt) (c : Nat) : Option RxMsg :=
  x.rx.find? (fun m => m.cls == c && !m.dead && (m.whole || c == 2))

/-! ### Short flits -/

/-- A NAK is to be sent from E (R342). -/
def Dev.sendNak (d : Dev) (p : Nat) : Dev := d.modPort p (fun x => { x with nak := some x.expect })

/-- A short flit of a kind arrives: its data bytes; `none`: the quarter is bad, counted and discarded, or it is of another
kind. A tag that Table 14.2 does not know is a violation, answered by NAK (R335, R336, R342, R357). Its buffer is free at once
(DESIGN CHOICE, entry 81). -/
def Dev.recvShort (d : Dev) (p kind : Nat) (bytes : List Byte) : Dev × Option (List Byte) :=
  match rxQuarter bytes with
  | none => (d.countSat (.obotil p) Reg.OB_BAD_SHORT_CNT.COUNT 1, none)
  | some q =>
    let d1 := (d.countSat (.obotil p) Reg.OB_CE_CNT.COUNT q.fixed).modPort p (fun x =>
      { x with freed := x.freed.add 3 1 })
    if q.setB && decide (3 ≤ q.tag) then ((d1.violation p 2 0).sendNak p, none)
    else (d1, if q.setB && q.tag == kind then some q.data else none)

end Machine
end Sys2Proof
end

