-- ==== Sys2Proof/Machine/Obotil.lean ====
section
/-! DEFINITION. The Obotil ports (14 R330 to R344, R357): training, the transmit scheduler, the receiver, and the link
retry. -/
namespace Sys2Proof
namespace Machine

/-! ### OB_CTL and training -/

/-- The counters of a port are reset (Table 14.10, CMD = CLEAR). -/
def Dev.clearPortCounters (d : Dev) (p : Nat) : Dev :=
  [Reg.OB_CE_CNT.COUNT, Reg.OB_RETRY_CNT.COUNT, Reg.OB_BAD_SHORT_CNT.COUNT, Reg.OB_VIOL_MALFORMED.COUNT,
    Reg.OB_VIOL_CLASS.COUNT, Reg.OB_VIOL_CREDIT.COUNT, Reg.OB_VIOL_SEQ.COUNT, Reg.OB_VIOL_OVERSIZE.COUNT,
    Reg.OB_VIOL_MISROUTE.COUNT, Reg.OB_TX_FLITS.COUNT, Reg.OB_RX_FLITS.COUNT].foldl
      (fun d f => d.setFld (.obotil p) f 0) d

/-- CMD = RETRAIN: of a port that is UP or DOWN; one that is RETRAINing goes on; elsewhere it is ignored (R343, Table 14.10;
DESIGN CHOICE, entry 23). -/
def Dev.portRetrainCmd (d : Dev) (p : Nat) : Dev :=
  let s := d.portState p
  if s = 2 ∨ s = 4 then d.retrainPort p
  else if s = 3 then d
  else d.setFld (.obotil p) Reg.OB_STS.CMD_IGN 1

/-- CMD = DOWN: of a port that is enabled (Table 14.10). -/
def Dev.portDownCmd (d : Dev) (p : Nat) : Dev :=
  if d.portState p = 0 then d.setFld (.obotil p) Reg.OB_STS.CMD_IGN 1
  else if d.portState p = 4 then d
  else d.portGoesDown p

/-- Setting ENABLE starts training; clearing it disables the port (R331). -/
def Dev.portEnable (d : Dev) (p : Nat) (on : Bool) : Dev :=
  if on && d.portState p == 0 then (d.setFld (.obotil p) Reg.OB_STS.STATE 1).modPort p PortSt.anew
  else if on then d
  else ((d.setFld (.obotil p) Reg.OB_STS.STATE 0).setFld (.obotil p) Reg.OB_STS.WIDTH 0).modPort p PortSt.anew

/-- OB_CTL takes the merged word `new`, and the command in `cmd` starts (Table 14.10). -/
def Dev.obCtlWritten (d : Dev) (p : Nat) (new cmd : Word) : Dev :=
  let d1 := (d.setWord (.obotil p) 0x0 (BitVec.ofNat 32 (putBits new.toNat 7 4 0))).portEnable p (new.toNat.testBit 0)
  match bitsOf cmd.toNat 7 4 with
  | 0 => d1
  | 1 => d1.portRetrainCmd p
  | 2 => d1.portDownCmd p
  | 3 => d1.clearPortCounters p
  | _ => d1.setFld (.obotil p) Reg.OB_STS.CMD_IGN 1

/-- A row that writes OB_CTL with its present fields and a command. -/
def Dev.obCtlRow (d : Dev) (src : Source) (p : Nat) (f : Dev → Dev) : Dev := d.rowWrite src (.obotil p) 0x0 f

/-- LINK_ENABLE: the write, through the SET alias, of ENABLE (R331). -/
def execLinkEnable (t : Nat) (src : Source) (port : Nat) (s : State) : Host.Outcome State Fault Refusal :=
  s.access t src (.obotil port) (fun d => d.obCtlRow src port (fun d =>
    d.obCtlWritten port (d.word (.obotil port) 0x0 ||| 1#32) 0#32))

/-- RETRAIN (R343). -/
def execPortRetrain (t : Nat) (src : Source) (port : Nat) (s : State) : Host.Outcome State Fault Refusal :=
  s.access t src (.obotil port) (fun d => d.obCtlRow src port (fun d => d.portRetrainCmd port))

/-- DOWN (R343). -/
def execPortDown (t : Nat) (src : Source) (port : Nat) (s : State) : Host.Outcome State Fault Refusal :=
  s.access t src (.obotil port) (fun d => d.obCtlRow src port (fun d => d.portDownCmd port))

/-- CLEAR (Table 14.10). -/
def execPortClear (t : Nat) (src : Source) (port : Nat) (s : State) : Host.Outcome State Fault Refusal :=
  s.access t src (.obotil port) (fun d => d.obCtlRow src port (fun d => d.clearPortCounters port))

/-- The width that training settled is possible: eight lanes, or four where X4_ALLOW permits them (R330). -/
def Dev.widthOk (d : Dev) (p width : Nat) : Bool :=
  width == 3 || ((width == 1 || width == 2) && d.isSet (.obotil p) Reg.OB_CTL.X4_ALLOW)

/-- The port is UP: the training has sent the partner this device's identifiers and the port's number and has got the partner's, the
link delay and the width; after a retrain the replay resumes from the oldest unacknowledged flit (R331, R343). -/
def Dev.portComesUp (d : Dev) (p dev node delay width : Nat) : Dev :=
  let b := Blk.obotil p
  ((((((d.emit [.portIdentity p d.devId (d.fld (.obotil 0) Reg.OB_DEV_ID.NODE)]).setFld b Reg.OB_STS.STATE 2).setFld b Reg.OB_STS.WIDTH width).setFld b Reg.OB_LINK_DELAY.DELAY delay).setFld b
    Reg.OB_PEER.DEV dev).setFld b Reg.OB_PEER.NODE node).modPort p (fun x => { x with
      resend := x.replay.head?.map (fun e => e.1), fails := 0, replays := 0, timer := d.now })

/-- LINK_TRAIN_DONE (R331). -/
def execLinkTrainDone (t port dev node delay width : Nat) (s : State) : Host.Outcome State Fault Refusal :=
  s.run t (.obotil port) (fun d =>
    if (d.portState port == 1 || d.portState port == 3) && d.widthOk port width then d.portComesUp port dev node delay width
    else d)

/-- LINK_TRAIN_FAIL: a failed training goes on; the third failed retrain in succession takes the port DOWN (R343). -/
def execLinkTrainFail (t port : Nat) (s : State) : Host.Outcome State Fault Refusal :=
  s.run t (.obotil port) (fun d =>
    if d.portState port = 3 then
      if 3 ≤ (d.port port).fails + 1 then d.portGoesDown port
      else d.modPort port (fun x => { x with fails := x.fails + 1 })
    else d)

/-! ### Lanes (R330) -/

/-- The lanes that a port transmits on, by OB_STS.WIDTH. -/
def portLanes (width : Nat) : List Nat := match width with | 1 => [0, 1, 2, 3] | 2 => [4, 5, 6, 7] | _ => List.range 8

/-- A byte as four PAM4 symbols, the most significant pair first. -/
def pam4 (b : Byte) : List (BitVec 2) := [b.extractLsb' 6 2, b.extractLsb' 4 2, b.extractLsb' 2 2, b.extractLsb' 0 2]

/-- Bytes that begin at a multiple of the lanes' number in the stream, as every quarter does, dealt out to the lanes: byte b to lane
b modulo their number. -/
def onLanes (lanes : List Nat) (bs : List Byte) : List (Nat × List (BitVec 2)) :=
  ((List.range lanes.length).zip lanes).map (fun l =>
    (l.2, (((List.range bs.length).zip bs).filter (fun b => b.1 % lanes.length == l.1)).flatMap (fun b => pam4 b.2)))

/-- The port transmits wire bytes. -/
def Dev.transmit (d : Dev) (p : Nat) (bs : List Byte) : Dev :=
  d.emit [.flit p (onLanes (portLanes (d.fld (.obotil p) Reg.OB_STS.WIDTH)) bs)]

/-! ### The transmit scheduler (R336, R337, R341, R344) -/

/-- Counts of a class still to be freed by the partner: flits sent less its freed count, a counter of 16 bits for full
flits and 8 for short ones. -/
def PortSt.inFlight (x : PortSt) (c : Nat) : Nat :=
  let m := if c = 3 then 2 ^ 8 else 2 ^ 16
  (x.sent.get c + m - x.partner.get c % m) % m

/-- A credit of the class is left (R344). -/
def PortSt.credit (x : PortSt) (c : Nat) : Bool := decide (x.inFlight c < classBuffers c)

/-- The order of short flits (R337). -/
def ShortFlit.rank : ShortFlit → Nat
  | .marker _ _ _ _ => 0
  | .sack _ => 1
  | .token _ => 2

/-- The next short flit: MARKER, SACK, BARRIER, first come first within each. -/
def nextShort (fs : List ShortFlit) : Option ShortFlit :=
  match fs.find? (fun f => f.rank == 0) with
  | some f => some f
  | none => match fs.find? (fun f => f.rank == 1) with
    | some f => some f
    | none => fs.head?

/-- The wire bytes of a short flit scheduled now: a marker carries its lead less the link's delay, in units of 1/16 ns; of one
re-emitted the lead is that left when its first byte leaves, 1.5 ns later (R337, R352, 02 R36, R37). -/
def ShortFlit.wire (f : ShortFlit) (now delay : Nat) : List Byte :=
  match f with
  | .marker num lead srcDev hops =>
    let left : Int := match lead with
      | .fixed n => Int.ofNat n
      | .untilT fire => (fire - Int.ofNat (now + 96)) / 4
    wireShort 0 num.toNat ((BitVec.ofInt 32 (left - Int.ofNat delay)).toNat + srcDev % 2 ^ 16 * 2 ^ 32 + hops % 2 ^ 8 * 2 ^ 48)
  | .sack w0 => wireShort 2 w0 0
  | .token w0 => wireShort 1 w0 0

/-- A token's word 1 holds the sender's device (R353). -/
def ShortFlit.wireFrom (f : ShortFlit) (now delay dev : Nat) : List Byte :=
  match f with
  | .token w0 => wireShort 1 w0 dev
  | f => f.wire now delay

/-- A LINK flit is due (R344). -/
def PortSt.linkDue (x : PortSt) (now : Nat) : Bool :=
  decide (64 ≤ x.since) || (x.since != 0 && decide (x.sinceT + 200 * 64 ≤ now)) || x.nak.isSome || x.viol.isSome ||
    [0, 1, 2, 3].any (fun c => decide (x.linked.get c + 32 ≤ x.freed.get c))

/-- The data of a LINK flit (Table 14.5). -/
def PortSt.linkData (x : PortSt) : List Byte :=
  let w0 := x.expect + (match x.nak with | some n => 2 ^ 12 + n * 2 ^ 16 | none => 0)
  let w1 := x.freed.control % 2 ^ 16 + x.freed.trug % 2 ^ 16 * 2 ^ 16 + x.freed.bulk % 2 ^ 16 * 2 ^ 32 +
    x.freed.short % 2 ^ 8 * 2 ^ 48
  let w2 := match x.viol with | some v => v.1 + v.2 * 2 ^ 8 | none => 0
  padTo 256 (leBytes 8 w0 ++ leBytes 8 w1 ++ leBytes 8 w2)

/-- The DATA flit of the highest class that has one ready and a credit for it, with room in the replay buffer (R337,
R341). -/
def PortSt.nextData (x : PortSt) : Option TxFlit :=
  if 512 ≤ x.replay.length then none
  else
    let of (c : Nat) : Option TxFlit := if x.credit c then x.txq.find? (fun f => f.cls == c) else none
    match of 0 with
    | some f => some f
    | none => match of 1 with
      | some f => some f
      | none => of 2

/-- What the scheduler sends at a full-flit boundary, and the port after it. -/
def PortSt.nextFull (x : PortSt) (now : Nat) : List (List Byte) × PortSt × Bool :=
  if x.linkDue now then
    (wireFlit [1, 0, 0, 0] x.linkData, { x with nak := none, viol := none, since := 0, linked := x.freed }, false)
  else match x.resend.bind (fun n => x.replay.find? (fun e => e.1 == n)) with
    | some e =>
      let rest := (x.replay.dropWhile (fun y => y.1 != e.1)).drop 1
      (wireFlit (dataTags e.2 e.1) e.2.data, { x with resend := rest.head?.map (fun y => y.1) }, false)
    | none => match x.nextData with
      | some f =>
        (wireFlit (dataTags f x.seq) f.data,
          { x with txq := x.txq.erase f, replay := x.replay ++ [(x.seq, f)], seq := (x.seq + 1) % 4096
                   sent := x.sent.add f.cls 1, timer := if x.replay.isEmpty then now else x.timer, resend := none }, true)
      | none => (wireFlit [0, 0, 0, 0] [], { x with resend := none }, false)

/-- FLIT_TRANSMIT: at a quarter boundary a pending short flit goes first; then the next quarter of the flit in progress;
at a full-flit boundary a LINK, DATA or IDLE flit begins (R337). -/
def execFlitTransmit (t port : Nat) (s : State) : Host.Outcome State Fault Refusal :=
  s.run t (.obotil port) (fun d =>
    if !d.portUp port then d
    else
      let x := d.port port
      match (if x.credit 3 then nextShort x.short else none) with
      | some f =>
        (d.setPort port { x with short := x.short.erase f, sent := x.sent.add 3 1 }).transmit port
          (f.wireFrom d.now (d.fld (.obotil port) Reg.OB_LINK_DELAY.DELAY) d.devId)
      | none => match x.cur with
        | q :: rest => (d.setPort port { x with cur := rest }).transmit port q
        | [] =>
          let n := x.nextFull d.now
          match n.1 with
          | [] => d
          | q :: rest =>
            let d1 := (d.setPort port { n.2.1 with cur := rest }).transmit port q
            if n.2.2 then d1.countWrap (.obotil port) Reg.OB_TX_FLITS.COUNT 1 else d1)

/-! ### The receiver: messages (R338, R339, R357) -/

/-- The header of a start flit is well formed for its class; greatest lengths are judged apart (Table 14.4). -/
def headOk (cls : Nat) (b : List Byte) : Bool :=
  let h := MsgHead.ofBytes b
  let type := if cls = 2 then h.type == 1 else if cls = 1 then h.type == 4 else h.type == 2 || h.type == 3
  type && numAt b 1 1 == 0 && decide (h.gate < 4096) && (h.type != 4 || h.gate == 0) &&
    (h.type == 3 || h.reason == 0) && allZero ((b.drop 0x19).take 7) && h.offset % 8 == 0 &&
    allZero (b.drop (if h.type = 4 then 64 else 32)) &&
    (match h.type with
      | 1 => decide (65536 < h.length) || (h.length % 8 == 0 && decide (8 ≤ h.length))
      | 4 => true
      | _ => h.length == 0)

/-- The greatest length of a body. -/
def mostBody (type : Nat) : Nat := if type = 1 then 65536 else 8192

/-- The header of a message received. -/
def RxMsg.fields (m : RxMsg) : MsgHead := MsgHead.ofBytes m.head

/-- A message is discarded for a violation; a WRITE is answered with a reason. -/
def Dev.discardMsg (d : Dev) (p code seq reason : Nat) (m : RxMsg) : Dev :=
  let d1 := (d.violation p code seq).modPort p (fun x => x.killMsg m)
  if m.cls = 2 && m.fields.type == 1 then d1.answerWrite m.fields reason else d1

/-- A message of the class that is in arrival. -/
def PortSt.arriving (x : PortSt) (c : Nat) : Option RxMsg := x.rx.find? (fun m => m.cls == c && !m.whole)

/-- The message in arrival of the class is at its end: one whose start has come before its own flits ended is malformed
(R357). -/
def Dev.endArriving (d : Dev) (p c seq : Nat) : Dev :=
  match (d.port p).arriving c with
  | none => d
  | some m =>
    let d1 := if m.dead then d
      else
        let d1 := d.violation p 1 seq
        if c = 2 then d1.answerWrite m.fields 9 else d1
    d1.modPort p (fun x => { x with rx := x.rx.erase m, freed := x.freed.add c m.flits })

/-- A start flit: the message begins, or is discarded with what follows of it. -/
def Dev.startMsg (d : Dev) (p c seq : Nat) (data : List Byte) : Dev :=
  let d0 := d.endArriving p c seq
  let h := MsgHead.ofBytes data
  let m : RxMsg := ⟨c, data.take 64, [], 1, h.length == 0, none, false, d0.msgId⟩
  let d1 := { d0.modPort p (fun x => { x with rx := x.rx ++ [m] }) with msgId := d0.msgId + 1 }
  if !headOk c data then (d1.modPort p (fun x => { x with rx := x.rx.map (fun y => if y = m then { m with whole := false } else y) })).discardMsg
    p 1 seq 9 { m with whole := false }
  else if c = 2 then d1
  else if h.type = 4 ∧ mostBody 4 < h.length then d1.discardMsg p 5 seq 7 m
  else if h.dst ≠ d.devId then d1.discardMsg p 6 seq 8 m
  else d1

/-- A continuation flit: its bytes join the message in arrival. Bytes after the body's end are zero (R339). -/
def Dev.contMsg (d : Dev) (p c seq : Nat) (data : List Byte) : Dev :=
  let x := d.port p
  let free (d : Dev) : Dev := d.modPort p (fun x => { x with freed := x.freed.add c 1 })
  match x.arriving c with
  | some m =>
    if m.dead then free d
    else
      let need := min (m.fields.length) 65536 - m.body.length
      let y := { m with body := m.body ++ data.take need, flits := m.flits + 1,
                        whole := decide (m.fields.length ≤ m.body.length + 256) }
      let d1 := d.modPort p (fun x => { x with rx := x.rx.map (fun z => if z = m then y else z) })
      if allZero (data.drop need) then d1 else d1.discardMsg p 1 seq 9 y
  | none =>
    match x.rx.reverse.find? (fun m => m.cls == c) with
    | some m => free (d.discardMsg p 5 seq 7 m)
    | none => free (d.violation p 1 seq)

/-! ### The receiver: flits (R336, R342 to R344) -/

/-- A DATA flit whose quarters all decode, judged by its distance from E (R342). -/
def Dev.dataFlit (d : Dev) (p c : Nat) (start : Bool) (seq : Nat) (data : List Byte) : Dev :=
  let x := d.port p
  let dist := (seq + 4096 - x.expect) % 4096
  if dist = 0 then
    if classBuffers c ≤ x.held c then (d.violation p 3 seq).sendNak p
    else
      let d1 := (d.countWrap (.obotil p) Reg.OB_RX_FLITS.COUNT 1).modPort p (fun x => { x with
        expect := (x.expect + 1) % 4096, since := x.since + 1, sinceT := if x.since = 0 then d.now else x.sinceT
        nakSent := false, gaps := 0 })
      if start then d1.startMsg p c seq data else d1.contMsg p c seq data
  else if dist ≤ 511 then
    if x.nakSent then d else (d.sendNak p).modPort p (fun x => { x with nakSent := true })
  else if 3585 ≤ dist then d.modPort p (fun x => { x with nakSent := false })
  else
    let d1 := (d.violation p 4 seq).modPort p (fun x => { x with gaps := x.gaps + 1 })
    if 4 ≤ x.gaps + 1 then d1.retrainPort p else d1

/-- An acknowledgement: every DATA flit before `n` has been accepted (R343). -/
def PortSt.acked (x : PortSt) (n now : Nat) : PortSt :=
  match x.replay with
  | [] => x
  | e :: _ =>
    let k := (n + 4096 - e.1) % 4096
    if k = 0 ∨ x.replay.length < k then x
    else
      let rest := x.replay.drop k
      { x with replay := rest, timer := now, replays := 0
               resend := match x.resend with
                 | some s => if rest.any (fun y => y.1 == s) then some s else rest.head?.map (fun y => y.1)
                 | none => none }

/-- A LINK flit updates acknowledgements and credits, and a NAK begins a replay (R343, R344). -/
def Dev.linkFlit (d : Dev) (p : Nat) (data : List Byte) : Dev :=
  let w0 := numAt data 0 8
  let w1 := numAt data 8 8
  let d1 := d.modPort p (fun x => { (x.acked (bitsOf w0 11 0) d.now) with
    partner := ⟨bitsOf w1 15 0, bitsOf w1 31 16, bitsOf w1 47 32, bitsOf w1 55 48⟩ })
  if w0.testBit 12 && (d1.port p).replay.any (fun e => e.1 == bitsOf w0 27 16) then d1.startReplay p (bitsOf w0 27 16) else d1

/-- A full flit arrives as the 288 wire bytes of its four quarters, which no short flit is among (R335, R336). A bad quarter hides
SEQ, so the flit is taken as the one expected (DESIGN CHOICE, entry 81). -/
def Dev.recvFull (d : Dev) (p : Nat) (bytes : List Byte) : Dev :=
  if !d.portUp p || bytes.length != 288 then d
  else
    let qs := (pieces 72 4 bytes).map rxQuarter
    if qs.any (fun q => q.elim false (fun q => q.setB)) then d
    else
      let ok := qs.filterMap id
      let d1 := d.countSat (.obotil p) Reg.OB_CE_CNT.COUNT (ok.foldl (fun n q => n + q.fixed) 0)
      let data := ok.flatMap (fun q => q.data)
      let bad := ok.length != 4
      let tags := (ok.drop 1).map (fun q => q.tag)
      match qs with
      | some q0 :: _ =>
        if q0.tag = 0 then
          if bad then d1 else if allZero data && tags == [0, 0, 0] then d1 else d1.violation p 1 0
        else if q0.tag = 1 then
          if bad then d1
          else if tags == [0, 0, 0] && bitsOf (numAt data 16 8) 63 20 == 0 && allZero (data.drop 24) then d1.linkFlit p data
          else d1.violation p 1 0
        else if 8 ≤ q0.tag then (d1.violation p 2 0).sendNak p
        else if bad then d1.sendNak p
        else
          match tags with
          | [a, b, c] => d1.dataFlit p ((q0.tag - 2) / 2) (q0.tag % 2 == 0) (a * 256 + b * 16 + c) data
          | _ => d1
      | _ => d1.sendNak p

/-- DATA_FLIT_RECEIVE (R342). -/
def execDataFlitReceive (t port : Nat) (bytes : List Byte) (s : State) : Host.Outcome State Fault Refusal :=
  s.run t (.obotil port) (fun d => d.recvFull port bytes)

/-- LINK_FLIT_RECEIVE (R344). -/
def execLinkFlitReceive (t port : Nat) (bytes : List Byte) (s : State) : Host.Outcome State Fault Refusal :=
  s.run t (.obotil port) (fun d => d.recvFull port bytes)

/-- REPLAY_TIMEOUT: no acknowledgement has advanced for 1 µs while flits are unacknowledged (R343). -/
def execReplayTimeout (t port : Nat) (s : State) : Host.Outcome State Fault Refusal :=
  s.run t (.obotil port) (fun d =>
    let x := d.port port
    match x.replay with
    | [] => d
    | e :: _ => if d.portUp port && decide (x.timer + 1000 * 64 ≤ d.now) then d.startReplay port e.1 else d)

end Machine
end Sys2Proof
end

