-- ==== Sys2Proof/Config.lean ====
section
/-! DEFINITION. What an implementation fixes and the spec leaves open: the free values, as constants without a body
that nothing can evaluate. Each is applied to its operands, or to the model's own counter `Dev.freeCnt` for a fresh
value each time (entry 4 unless another entry is named). -/
namespace Sys2Proof
namespace Config

/-- A correctly rounded elementary function whose enclosures of every precision the model tries still straddle a
grid point: the magnitude at the grid exponent (entry 11). -/
opaque freeHardCase : Nat → Nat

/-- The value of ACT and ACT_B at an infinite input, which 11 R272 and R273 do not state: by FUNC, derivative and
sign (entry 12). -/
opaque freeActInf : Nat → Bool → Bool → BitVec 32

/-- The SM3 digest of a byte string as a number, first digest byte most significant: a standard outside the spec, of
which the model uses only that it is a function (entry 16). -/
opaque sm3 : List Byte → Nat

/-- Whether an SM2 signature (r, s) verifies over a digest under a public key, with the default distinguishing
identifier (entry 16). -/
opaque sm2Verify (key digest r s : Nat) : Bool

/-- The vendor root public key, whose digest the mask ROM holds (19 R435; entry 16). -/
opaque vendorKey : Nat

/-- What a furrow that a replant's image does not list holds, by occasion and furrow (03 R87, 09 Table 9.5): BASE, SIZE,
and the counts HEAD, READ and TAIL. -/
opaque freeFurrow (occasion furrow : Nat) : Nat × Nat × Nat × Nat × Nat

/-- The fill bits of such a furrow, by line from TAIL on. -/
opaque freeFill (occasion furrow line : Nat) : Bool

/-- ADDR of the barrow of a pass that keeps its results and so has no output location, by the item's number (10 Table 10.7;
entry 20). -/
opaque freeAddr (item : Nat) : BitVec 64

/-- An entry of a seed tray that a replant left undefined, by occasion and entry (11 R278). -/
opaque freeTray (occasion entry : Nat) : BitVec 64

/-- The cause code that a Sieve or a Mower reports for an image that 06 R163 has it refuse, which chapters 11 and 12 do not name,
by occasion (entry 22). -/
opaque freeCause (occasion : Nat) : BitVec 8

/-- The binary64 code of the square norm that an UPDATE takes from a global image that 06 R162 makes invalid, which 12 R295 does not
state, by occasion (entry 22). -/
opaque freeNorm (occasion : Nat) : BitVec 64

/-- The draw of a stochastic rounding whose TENSOR_ID and coordinates no command gives: the Trug engine's final
conversion (05 R133, 13 R318), by occasion and element (entry 27). -/
opaque freeDraw (occasion element : Nat) : BitVec 32

/-- What a read of PCIe configuration space returns, whose layout the spec does not give (15 R359). -/
opaque freeConfigWord : Nat → BitVec 32

/-- The digest of a window's echo records, whose encoding 16 R392 does not state, by occasion (entry 30). -/
opaque echoDigest (occasion : Nat) : BitVec 64

/-- The gatehouse's answer to an SPDM request, by occasion and request: SPDM 1.2 and the certificates lie outside the spec
(19 R440; entry 33). -/
opaque spdmAnswer (occasion : Nat) (request : List Byte) : List Byte

/-- An ERROR answer of the gatehouse to an SPDM request, by occasion and request (19 R439). -/
opaque spdmError (occasion : Nat) (request : List Byte) : List Byte

/-- A signature with the lodge identity key, by occasion (19 R434). -/
opaque identSignature (occasion : Nat) : List Byte

end Config
end Sys2Proof
end

