-- ==== Sys2Proof/Machine/Image.lean ====
section
/-! DEFINITION. The trellis image: reading a staged image, the checks of 03 R78 steps 1, 2 and 6 in their order with the
codes of Table 3.8, and the ring geometry of R67. An image is read through a function from offsets to bytes. -/
namespace Sys2Proof
namespace Machine

/-- The first failure of an image: directory index (0x3FF: header or none), code of Table 3.8 and byte offset. -/
structure LErr where
  sec  : Nat
  code : Nat
  off  : Nat
  deriving DecidableEq, Repr

def LCode.badMagic : Nat := 0x01
def LCode.member : Nat := 0x02
def LCode.layout : Nat := 0x03
def LCode.sectionSet : Nat := 0x04
def LCode.key : Nat := 0x05
def LCode.sigFail : Nat := 0x06
def LCode.rollback : Nat := 0x07
def LCode.digest : Nat := 0x08
def LCode.plot : Nat := 0x10
def LCode.ringLink : Nat := 0x11
def LCode.ringDir : Nat := 0x12
def LCode.turnstile : Nat := 0x13
def LCode.partition : Nat := 0x14
def LCode.route : Nat := 0x15
def LCode.engine : Nat := 0x16
def LCode.furrow : Nat := 0x17
def LCode.program : Nat := 0x18
def LCode.storeFull : Nat := 0x19
def LCode.slots : Nat := 0x1A
def LCode.bedsRunning : Nat := 0x20
def LCode.loaderBusy : Nat := 0x21
def LCode.resource : Nat := 0x22
def LCode.badCmd : Nat := 0x23
def LCode.aborted : Nat := 0x24
def LCode.abortWarden : Nat := 0x25

/-- The check passes, or fails with the error. -/
def must (c : Bool) (sec code off : Nat) : Except LErr Unit := if c then .ok () else .error ⟨sec, code, off⟩

/-- The check of every element in order; the first failure. -/
def mustAll {α : Type} (f : α → Except LErr Unit) : List α → Except LErr Unit
  | [] => .ok ()
  | x :: xs => match f x with
    | .ok _ => mustAll f xs
    | .error e => .error e

/-- The results of every element in order, or the first failure. -/
def mapAll {α β : Type} (f : α → Except LErr β) : List α → Except LErr (List β)
  | [] => .ok []
  | x :: xs => match f x with
    | .ok y => (mapAll f xs).map (fun ys => y :: ys)
    | .error e => .error e

/-- Two checks in order. -/
def both (a : Except LErr Unit) (b : Except LErr Unit) : Except LErr Unit :=
  match a with
  | .ok _ => b
  | .error e => .error e

/-- `n` bytes of the image from an offset on. -/
def imgBytes (img : Nat → Byte) (off n : Nat) : List Byte := (List.range n).map (fun i => img (off + i))

/-- The little-endian number of `n` bytes at an offset. -/
def imgNum (img : Nat → Byte) (off n : Nat) : Nat := leNat (imgBytes img off n)

/-- The big-endian number of `n` bytes at an offset (R63). -/
def imgBig (img : Nat → Byte) (off n : Nat) : Nat := leNat (imgBytes img off n).reverse

/-- The bytes are zero, or LAYOUT at the first that is not. -/
def mustZero (img : Nat → Byte) (sec code off n : Nat) : Except LErr Unit :=
  mustAll (fun i => must (img (off + i) == 0#8) sec code (off + i)) (List.range n)

/-- The image names no section: the header, or none (Table 3.11). -/
def noSec : Nat := 0x3FF

/-- The header of an image (Table 3.1). -/
structure Header where
  replant : Bool
  remove  : Bool
  len     : Nat
  imageId : Nat
  secVer  : Nat
  keyId   : Nat
  bedCount : Nat
  replantBed : Nat
  sections : Nat
  deriving DecidableEq, Repr

/-- Step 1 of R78: the header, for a LOAD or a REPLANT of bed `bed`, staged with length `len` at `src` (R59, R60, R77,
R82), in ascending offset. A REPLANT_BED unlike TRELLIS_CTL.BED is a LAYOUT error at its own offset (DESIGN CHOICE, entry
71). -/
def readHeader (img : Nat → Byte) (isReplant : Bool) (bed src len : Nat) : Except LErr Header :=
  let flags := imgNum img 6 2
  let h : Header :=
    { replant := flags.testBit 0, remove := flags.testBit 1, len := imgNum img 0x0C 4, imageId := imgNum img 0x10 8,
      secVer := imgNum img 0x18 4, keyId := imgNum img 0x1C 2, bedCount := imgNum img 0x1E 1,
      replantBed := imgNum img 0x1F 1, sections := imgNum img 0x20 2 }
  (both (must (decide (64 ≤ len ∧ len % 64 = 0 ∧ src % 0x1000 = 0)) noSec LCode.layout 0x0C) <|
   both (must (imgNum img 0 4 == 0x4E545254) noSec LCode.badMagic 0) <|
   both (must (imgNum img 4 2 == 1) noSec LCode.badMagic 4) <|
   both (must (decide (flags / 4 = 0) && h.replant == isReplant && (h.replant || !h.remove)) noSec LCode.layout 6) <|
   both (must (imgNum img 8 4 == 8) noSec LCode.member 8) <|
   both (must (h.len == len && decide (h.len % 64 = 0 ∧ h.len ≤ 0x2000000)) noSec LCode.layout 0x0C) <|
   both (must (if isReplant then h.bedCount == 1 else decide (1 ≤ h.bedCount ∧ h.bedCount ≤ 64))
     noSec LCode.layout 0x1E) <|
   both (must (if isReplant then h.replantBed == bed else h.replantBed == 0) noSec LCode.layout 0x1F) <|
   both (must (if h.remove then h.sections == 1 else decide (2 ≤ h.sections ∧ h.sections ≤ 1024))
     noSec LCode.layout 0x20) <|
   mustZero img noSec LCode.layout 0x22 30).map (fun _ => h)

/-- A directory entry (Table 3.2). -/
structure DirEntry where
  index  : Nat
  typ    : Nat
  bed    : Nat
  die    : Nat
  off    : Nat
  len    : Nat
  digest : Nat
  deriving DecidableEq, Repr

/-- Directory entry `i`. -/
def readEntry (img : Nat → Byte) (i : Nat) : DirEntry :=
  let a := 0x40 + 48 * i
  ⟨i, imgNum img a 1, imgNum img (a + 1) 1, imgNum img (a + 2) 1, imgNum img (a + 4) 4, imgNum img (a + 8) 4,
   imgBig img (a + 0x10) 32⟩

/-- The layout of one directory entry, the section before it ending at `prev` (R61); nonzero padding before a section is
found here, in step 2 (DESIGN CHOICE, entry 71). -/
def checkEntry (img : Nat → Byte) (h : Header) (prev : Nat) (e : DirEntry) : Except LErr Unit :=
  let a := 0x40 + 48 * e.index
  let lay := LCode.layout
  let last := e.index + 1 == h.sections
  both (must (decide (1 ≤ e.typ ∧ e.typ ≤ 7) && ((e.typ == 7) == last)) e.index lay a) <|
  both (must (if e.typ = 7 then e.bed == 0xFF else decide (e.bed < 64)) e.index lay (a + 1)) <|
  both (must (if e.typ = 6 then decide (e.die < 8) else e.die == 0xFF) e.index lay (a + 2)) <|
  both (must (img (a + 3) == 0#8) e.index lay (a + 3)) <|
  both (must (decide (e.off % 64 = 0 ∧ prev ≤ e.off ∧ e.off + e.len ≤ h.len)) e.index lay (a + 4)) <|
  both (must (e.typ != 7 || e.len == 64) e.index lay (a + 8)) <|
  both (mustZero img e.index lay (a + 0x0C) 4) <|
  both (must (e.typ != 7 || e.digest == 0) e.index lay (a + 0x10)) <|
  mustZero img e.index lay prev (e.off - prev)

/-- The layout of the directory in order, and the zero padding between sections (R59, R61); the bytes after the last section
are padding too (DESIGN CHOICE, entry 71). -/
def checkEntries (img : Nat → Byte) (h : Header) : Nat → List DirEntry → Except LErr Unit
  | prev, [] => mustZero img (h.sections - 1) LCode.layout prev (h.len - prev)
  | prev, e :: es => both (checkEntry img h prev e) (checkEntries img h (e.off + e.len) es)

/-- The bed numbers that the directory names, in order of first appearance. -/
def dirBeds (es : List DirEntry) : List Nat :=
  ((es.filter (fun e => e.typ != 7)).map (fun e => e.bed)).eraseDups

/-- SECTION_SET as far as the directory alone decides it (R62, R78, R82). A duplicated or foreign section is reported at
its own TYPE or BED; a missing one, or a wrong number of beds, at BED_COUNT (DESIGN CHOICE, entry 18). -/
def checkSectionSet (h : Header) (es : List DirEntry) : Except LErr Unit :=
  let body := es.filter (fun e => e.typ != 7)
  let same (x y : DirEntry) : Bool := x.bed == y.bed && x.typ == y.typ && x.die == y.die
  both (mustAll (fun e => must (!(body.any (fun x => decide (x.index < e.index) && same x e)))
    e.index LCode.sectionSet (0x40 + 48 * e.index)) body) <|
  both (mustAll (fun e => must (!h.replant || e.bed == h.replantBed) e.index LCode.sectionSet
    (0x41 + 48 * e.index)) body) <|
  both (must (if h.remove then body.isEmpty else (dirBeds es).length == h.bedCount) noSec LCode.sectionSet 0x1E) <|
  mustAll (fun b => mustAll (fun t => must (body.any (fun e => e.bed == b && e.typ == t))
    noSec LCode.sectionSet 0x1E) [1, 2, 3, 4, 5, 6]) (dirBeds es)

/-! ### The contents of sections (step 6 of R78) -/

/-- A BED_MAP section (R65, Tables 3.3, 3.4). -/
structure BedMap where
  rings      : Nat
  turnstiles : List TurnstileCfg
  ring       : List RingCfg
  deriving DecidableEq, Repr

/-- The BED_ID of a section matches its directory entry (R62). -/
def mustBed (img : Nat → Byte) (e : DirEntry) : Except LErr Unit :=
  must (imgNum img e.off 1 == e.bed) e.index LCode.layout e.off

/-- Reads and checks a BED_MAP section (R65, R67, R68). -/
def readBedMap (img : Nat → Byte) (phys : Nat → Option (Nat × Nat)) (e : DirEntry) : Except LErr BedMap :=
  let o := e.off
  let lay := LCode.layout
  let nr := imgNum img (o + 1) 1
  let np := imgNum img (o + 2) 2
  let nt := imgNum img (o + 4) 1
  let ts := (List.range nt).map (fun i => let a := o + 16 + 8 * i
    (⟨imgNum img a 1, imgNum img (a + 1) 1, imgNum img (a + 2) 2⟩ : TurnstileCfg))
  let rs := (List.range np).map (fun i => let a := o + 16 + 8 * nt + 4 * i
    (⟨imgNum img a 2, imgNum img (a + 2) 1 % 16, imgNum img (a + 2) 1 / 16⟩ : RingCfg))
  let perRing (r : Nat) : Nat := (ts.filter (fun t => t.ring == r)).length
  (both (mustBed img e) <|
   both (must (decide (nr = 1 ∨ nr = 2)) e.index lay (o + 1)) <|
   both (must (decide (2 ≤ np ∧ np ≤ 512)) e.index lay (o + 2)) <|
   both (must (decide (1 ≤ nt ∧ nt ≤ 16) && decide (perRing 0 ≤ 8 ∧ perRing 1 ≤ 8)
     && (List.range nr).all (fun r => decide (1 ≤ perRing r))) e.index lay (o + 4)) <|
   both (mustZero img e.index lay (o + 5) 11) <|
   both (must (e.len == 16 + 8 * nt + 4 * np) e.index lay (0x48 + 48 * e.index)) <|
   both (mustAll (fun i => let a := o + 16 + 8 * i
     match ts[i]? with
     | none => .ok ()
     | some t =>
       both (must (decide (t.ring < nr)) e.index lay a) <|
       both (must (decide (t.rill < 16)) e.index lay (a + 1)) <|
       both (must (rs.any (fun r => r.lplot == t.lplot)
         && !((ts.take i).any (fun u => u.ring == t.ring && u.lplot == t.lplot)))
         e.index LCode.turnstile (a + 2)) <|
       mustZero img e.index lay (a + 4) 4) (List.range nt)) <|
   mustAll (fun i => let a := o + 16 + 8 * nt + 4 * i
     match rs[i]? with
     | none => .ok ()
     | some r =>
       both (must (decide (r.lplot < 512) && (phys r.lplot).isSome
         && !((rs.take i).any (fun q => q.lplot == r.lplot))) e.index LCode.plot a) <|
       both (must (decide (1 ≤ r.seg1 ∧ r.seg1 ≤ 5 ∧ r.seg2 ≤ 5)) e.index lay (a + 2)) <|
       mustZero img e.index lay (a + 3) 1) (List.range np)).map (fun _ => ⟨nr, ts, rs⟩)

/-- An ARITH section (R69, Table 3.5). -/
structure Arith where
  exact      : Bool
  unchecked  : Bool
  policyStop : Bool
  round      : Nat
  ieee       : Bool
  jobSeed    : DWord
  deriving DecidableEq, Repr

/-- Reads and checks an ARITH section. -/
def readArith (img : Nat → Byte) (e : DirEntry) : Except LErr Arith :=
  let o := e.off
  let lay := LCode.layout
  let f := imgNum img (o + 2) 1
  (both (mustBed img e) <|
   both (must (decide (imgNum img (o + 1) 1 ≤ 1)) e.index lay (o + 1)) <|
   both (must (decide (f / 4 = 0)) e.index lay (o + 2)) <|
   both (must (decide (imgNum img (o + 3) 1 ≤ 5)) e.index lay (o + 3)) <|
   both (must (decide (imgNum img (o + 4) 1 ≤ 1)) e.index lay (o + 4)) <|
   both (mustZero img e.index lay (o + 5) 3) <|
   must (e.len == 16) e.index lay (0x48 + 48 * e.index)).map (fun _ =>
     ⟨imgNum img (o + 1) 1 == 1, f.testBit 0, f.testBit 1, imgNum img (o + 3) 1, imgNum img (o + 4) 1 == 1,
      BitVec.ofNat 64 (imgNum img (o + 8) 8)⟩)

/-- A MEMORY section (R71, Table 3.6), region sizes in bytes for HBM and in 64 KiB units for glasshouse. -/
structure MemPart where
  pcMask : Nat
  hbm    : List HbmRegion
  gh     : List GhRegion
  deriving DecidableEq, Repr

/-- The 16 bits of PC_MASK that a half-stack's 2 MiB units need, all set (R71, 10 R235). -/
def halfMasked (mask half : Nat) : Bool := bitsOf mask (16 * half + 15) (16 * half) == 0xFFFF

/-- The half-stacks, 2^35 bytes each, that a region touches (10 Table 10.2). -/
def halvesOf (base size : Nat) : List Nat :=
  (List.range ((base + size - 1) / 2 ^ 35 - base / 2 ^ 35 + 1)).map (fun i => base / 2 ^ 35 + i)

/-- Reads and checks a MEMORY section; `stackOk`: the stack is not FAILED and its controller's clock is enabled
(17 R411, 19 R432). -/
def readMemory (img : Nat → Byte) (stackOk : Nat → Bool) (e : DirEntry) : Except LErr MemPart :=
  let o := e.off
  let lay := LCode.layout
  let nh := imgNum img (o + 1) 1
  let ng := imgNum img (o + 2) 1
  let mask := imgNum img (o + 8) 64
  let region (i : Nat) : HbmRegion := let a := o + 72 + 16 * i
    ⟨imgNum img a 8, imgNum img (a + 8) 4 * 2 ^ 21, (imgNum img (a + 12) 1).testBit 0,
     (imgNum img (a + 12) 1).testBit 1, (imgNum img (a + 12) 1).testBit 2⟩
  let ghr (i : Nat) : GhRegion := let a := o + 72 + 16 * nh + 8 * i
    ⟨imgNum img a 1, imgNum img (a + 2) 2, imgNum img (a + 4) 2⟩
  (both (mustBed img e) <|
   both (must (decide (1 ≤ nh ∧ nh ≤ 16)) e.index lay (o + 1)) <|
   both (must (decide (ng ≤ 16)) e.index lay (o + 2)) <|
   both (mustZero img e.index lay (o + 3) 5) <|
   both (must ((List.range 16).all (fun s => bitsOf mask (32 * s + 31) (32 * s) == 0 || stackOk s))
     e.index LCode.partition (o + 8)) <|
   both (must (e.len == 72 + 16 * nh + 8 * ng) e.index lay (0x48 + 48 * e.index)) <|
   both (mustAll (fun i => let a := o + 72 + 16 * i
     let r := region i
     both (must (decide (r.base % 2 ^ 21 = 0)) e.index LCode.partition a) <|
     both (must (decide (1 ≤ r.size ∧ r.base + r.size ≤ 2 ^ 40)) e.index LCode.partition (a + 8)) <|
     both (must ((halvesOf r.base r.size).all (halfMasked mask)) e.index LCode.partition a) <|
     both (must (decide (imgNum img (a + 12) 1 / 8 = 0)) e.index lay (a + 12)) <|
     mustZero img e.index lay (a + 13) 3) (List.range nh)) <|
   mustAll (fun i => let a := o + 72 + 16 * nh + 8 * i
     let r := ghr i
     both (must (decide (r.die < 8)) e.index LCode.partition a) <|
     both (mustZero img e.index lay (a + 1) 1) <|
     both (must (decide (r.base ≤ 767)) e.index LCode.partition (a + 2)) <|
     both (must (decide (1 ≤ r.size ∧ r.base + r.size ≤ 768)) e.index LCode.partition (a + 4)) <|
     mustZero img e.index lay (a + 6) 2) (List.range ng)).map (fun _ =>
       ⟨mask, (List.range nh).map region, (List.range ng).map ghr⟩)

/-- A ROUTES section (R72, Table 3.7). -/
structure Routes where
  rills  : Nat
  sieves : Nat
  mowers : Nat
  routes : List RouteCfg
  deriving DecidableEq, Repr

/-- Reads and checks a ROUTES section. -/
def readRoutes (img : Nat → Byte) (e : DirEntry) : Except LErr Routes :=
  let o := e.off
  let lay := LCode.layout
  let n := imgNum img (o + 1) 1
  let route (i : Nat) : RouteCfg := let a := o + 32 + 4 * i
    ⟨imgNum img a 1, imgNum img (a + 1) 1, imgNum img (a + 2) 1⟩
  (both (mustBed img e) <|
   both (must (decide (n ≤ 32)) e.index LCode.route (o + 1)) <|
   both (mustZero img e.index lay (o + 2) 2) <|
   both (mustZero img e.index lay (o + 0x19) 7) <|
   both (must (e.len == 32 + 4 * n) e.index lay (0x48 + 48 * e.index)) <|
   mustAll (fun i => let a := o + 32 + 4 * i
     let r := route i
     both (must (decide (r.src < 8 ∧ r.dst < 8 ∧ r.src / 4 ≠ r.dst / 4)
       && !((List.range i).any (fun j => (route j).src == r.src && (route j).dst == r.dst)))
       e.index LCode.route a) <|
     both (must (decide (r.order ≤ 1)) e.index LCode.route (a + 2)) <|
     mustZero img e.index lay (a + 3) 1) (List.range n)).map (fun _ =>
       ⟨imgNum img (o + 4) 16, imgNum img (o + 0x14) 4, imgNum img (o + 0x18) 1, (List.range n).map route⟩)

/-- Two furrows of one bench overlap. -/
def FurCfg.clash (x y : FurCfg) : Bool :=
  x.lplot == y.lplot && (x.fur == y.fur || decide (x.base < y.base + y.size ∧ y.base < x.base + x.size))

/-- Reads and checks a FURROWS section (R74), the bed's plots given. -/
def readFurrows (img : Nat → Byte) (plots : List Nat) (e : DirEntry) : Except LErr (List FurCfg) :=
  let o := e.off
  let lay := LCode.layout
  let n := imgNum img (o + 2) 2
  let fur (i : Nat) : FurCfg := let a := o + 8 + 8 * i
    ⟨imgNum img a 2, imgNum img (a + 2) 1, imgNum img (a + 4) 2, imgNum img (a + 6) 2⟩
  (both (mustBed img e) <|
   both (mustZero img e.index lay (o + 1) 1) <|
   both (mustZero img e.index lay (o + 4) 4) <|
   both (must (e.len == 8 + 8 * n) e.index lay (0x48 + 48 * e.index)) <|
   mustAll (fun i => let a := o + 8 + 8 * i
     let f := fur i
     both (must (plots.contains f.lplot) e.index LCode.furrow a) <|
     both (must (decide (f.fur < 32)) e.index LCode.furrow (a + 2)) <|
     both (mustZero img e.index lay (a + 3) 1) <|
     both (must (decide (1 ≤ f.size ∧ f.base + f.size ≤ 6144)) e.index LCode.furrow (a + 6)) <|
     must (!((List.range i).any (fun j => (fur j).clash f))) e.index LCode.furrow (a + 4)) (List.range n)).map
       (fun _ => (List.range n).map fur)

/-! ### Chime programs (R42, R75) -/

/-- The kind that a KIND byte names (Table 2.3). -/
def Kind.ofCode : Nat → Option Kind
  | 1 => some .rill | 2 => some .pass | 3 => some .sieve | 4 => some .mower
  | 5 => some .trug | 6 => some .obotil | 7 => some .barrier | 8 => some .nop
  | _ => none

/-- The UNIT of an item is in the range of its kind (Table 2.3, 10 R233, 11 R281, 12 R302, 13 R310, 14 R350, R353). -/
def Kind.unitOk : Kind → Nat → Bool
  | .rill, u => decide (u < 16)
  | .pass, u => decide (u < 64)
  | .sieve, u => decide (u < 4)
  | .mower, u | .trug, u | .obotil, u | .barrier, u | .nop, u => u == 0

/-- The length that an extended command of the kind has (07 R180, 10 R233, 11 R281, 12 R302, 13 R310). -/
def Kind.extLen : Kind → Option Nat
  | .rill => some 160 | .pass => some 40 | .sieve => some 128 | .mower => some 128 | .trug => some 64
  | .obotil | .barrier | .nop => none

/-- The kind's items must carry an extended command. -/
def Kind.mustExt : Kind → Bool
  | .rill | .sieve | .mower | .trug => true
  | _ => false

/-- The payload of an OBOTIL, BARRIER or NOP item is as R42, R350 and R353 require: OP and GATE, GROUP, or zeros. -/
def plainPayloadOk (k : Kind) (p : List Byte) : Bool :=
  match k with
  | .obotil =>
    let op := leNat (p.take 1)
    let gate := leNat ((p.drop 2).take 2)
    decide (1 ≤ op ∧ op ≤ 4 ∧ gate < 4096) && (op != 4 || gate == 0) && (p.drop 1).take 1 == [0#8]
      && (p.drop 4).all (fun b => b == 0#8)
  | .barrier => decide (leNat (p.take 1) < 16) && (p.drop 1).all (fun b => b == 0#8)
  | .nop => p.all (fun b => b == 0#8)
  | _ => true

/-- Reads and checks one work item at offset `a` of a PROGRAM section whose body lies at `body` with length `blen`, on
the bed's lowest die or not (R42). -/
def readItem (img : Nat → Byte) (e : DirEntry) (lowest : Bool) (body blen a : Nat) : Except LErr ItemCfg :=
  let pr := LCode.program
  let flags := imgNum img (a + 2) 1
  let ext := flags.testBit 0
  let eo := imgNum img (a + 4) 4
  let el := imgNum img (a + 8) 2
  match Kind.ofCode (imgNum img a 1) with
  | none => .error ⟨e.index, pr, a⟩
  | some k =>
    let u := imgNum img (a + 1) 1
    let payload := imgBytes img (a + 4) 28
    (both (must (k.unitOk u) e.index pr (a + 1)) <|
     both (must (decide (flags ≤ 1) && (ext || !k.mustExt) && (!ext || k.extLen.isSome)) e.index pr (a + 2)) <|
     both (mustZero img e.index pr (a + 3) 1) <|
     both (must (!ext || k.extLen == some el) e.index pr (a + 8)) <|
     both (must (!ext || decide (eo + el ≤ blen)) e.index pr (a + 4)) <|
     both (if ext && k.mustExt then mustZero img e.index pr (a + 0x0A) 22 else .ok ()) <|
     both (must (plainPayloadOk k payload) e.index pr (a + 4)) <|
     must (lowest || !(k == .trug || k == .obotil || k == .barrier)) e.index pr a).map (fun _ =>
       ⟨k, u, ext, if ext then imgBytes img (body + eo) el else payload⟩)

/-- No engine of a record is named in more items than its limit: 16 of one plot, rill, Sieve or Mower, 64 TRUG items
(07 R182, 10 R233, 11 R281, 12 R302, 13 R310). -/
def engineLimitsOk (items : List ItemCfg) : Bool :=
  items.all (fun i => match i.kind with
    | .trug => decide ((items.filter (fun j => j.kind == .trug)).length ≤ 64)
    | .rill | .pass | .sieve | .mower =>
      decide ((items.filter (fun j => j.kind == i.kind && j.unit == i.unit)).length ≤ 16)
    | _ => true)

/-- Reads `n` window records from offset `a` on, each followed by its items (Table 2.2); `total` records in all. -/
def readRecords (img : Nat → Byte) (e : DirEntry) (lowest : Bool) (body blen total : Nat) :
    Nat → Nat → Except LErr (List RecordCfg)
  | 0, _ => .ok []
  | n + 1, a =>
    let pr := LCode.program
    let cnt := imgNum img a 2
    let next := imgNum img (a + 2) 2
    let rep := imgNum img (a + 4) 2
    let flags := imgNum img (a + 6) 2
    match both (must (decide (a + 16 ≤ body + blen)) e.index pr a) <|
      both (must (decide (cnt ≤ 1024) && decide (a + 16 + 32 * cnt ≤ body + blen)) e.index pr a) <|
      both (must (decide (next < total)) e.index pr (a + 2)) <|
      both (must (rep != 0) e.index pr (a + 4)) <|
      both (must (decide (flags / 4 = 0)) e.index pr (a + 6)) <|
      mustZero img e.index pr (a + 8) 8 with
    | .error er => .error er
    | .ok _ =>
      match mapAll (fun i => readItem img e lowest body blen (a + 16 + 32 * i)) (List.range cnt) with
      | .error er => .error er
      | .ok items =>
        match must (engineLimitsOk items) e.index pr a with
        | .error er => .error er
        | .ok _ => (readRecords img e lowest body blen total n (a + 16 + 32 * cnt)).map (fun rs =>
            ⟨next, rep, flags.testBit 0, flags.testBit 1, items⟩ :: rs)

/-- A PROGRAM section: START and its records with the bytes its body takes of the store (R75). -/
def readProgram (img : Nat → Byte) (lowest : Bool) (e : DirEntry) : Except LErr (Nat × ProgCfg) :=
  let o := e.off
  let n := imgNum img (o + 4) 4
  let start := imgNum img (o + 8) 4
  match both (mustBed img e) <|
    both (must (imgNum img (o + 1) 1 == e.die) e.index LCode.layout (o + 1)) <|
    both (mustZero img e.index LCode.layout (o + 2) 2) <|
    both (must (decide (1 ≤ n ∧ n ≤ 65536)) e.index LCode.program (o + 4)) <|
    both (must (decide (start < n)) e.index LCode.program (o + 8)) <|
    both (mustZero img e.index LCode.layout (o + 12) 4) <|
    must (decide (16 ≤ e.len)) e.index LCode.program o with
  | .error er => .error er
  | .ok _ => (readRecords img e lowest (o + 16) (e.len - 16) n n (o + 16)).map (fun rs => (start, ⟨e.die, e.len - 16, rs⟩))

/-! ### Ring geometry (R66, R67, 01 R16) -/

/-- A direction of a physical ring link: the kind of link (Table 1.4), its place, and the direction. -/
structure LinkDir where
  kind  : Nat
  place : Nat
  up    : Bool
  deriving DecidableEq, Repr

/-- Die, terrace and column of a logical plot (R11). -/
def plotDie (L : Nat) : Nat := L / 64
def plotTerrace (L : Nat) : Nat := L % 64 / 16
def plotColumn (L : Nat) : Nat := L % 16

/-- The plot is an end-most plot of its terrace, west or east. -/
def isEnd (L : Nat) : Bool := plotColumn L == 0 || plotColumn L == 15

/-- The horizontal footbridge crossing between the dies of two plots, with the facing columns: `(place, A's, B's)`. -/
def horizontal (a b : Nat) : Option (Nat × Nat × Nat) :=
  if a / 4 ≠ b / 4 then none
  else if b = a + 1 then some (a, 15, 0)
  else if a = b + 1 then some (b, 0, 15)
  else none

/-- The directed links that a one-segment link from `A` to `B` takes; `none`: no such link (Table 1.4). -/
def oneSegment (seg A B : Nat) : Option (List LinkDir) :=
  let dA := plotDie A; let dB := plotDie B
  let tA := plotTerrace A; let tB := plotTerrace B
  let cA := plotColumn A; let cB := plotColumn B
  match seg with
  | 1 => if dA = dB ∧ tA = tB ∧ (cB = cA + 1 ∨ cA = cB + 1) then
      some [⟨1, (dA * 4 + tA) * 16 + min cA cB, decide (cA < cB)⟩] else none
  | 2 => if dA = dB ∧ (tB = tA + 1 ∨ tA = tB + 1) ∧ cA = cB ∧ isEnd A then
      some [⟨2, (dA * 4 + min tA tB) * 16 + cA, decide (tA < tB)⟩] else none
  | 3 => if dA = dB ∧ tA = tB ∧ cA ≠ cB then some [⟨3, dA * 4 + tA, decide (cA < cB)⟩] else none
  | 4 => if dA = dB ∧ cA = cB ∧ isEnd A ∧ (tA = 0 ∧ tB = 3 ∨ tA = 3 ∧ tB = 0) then
      some [⟨4, dA * 16 + cA, decide (tA < tB)⟩] else none
  | 5 => match horizontal dA dB with
    | some (p, x, y) => if cA = x ∧ cB = y then some [⟨5, p, decide (dA < dB)⟩] else none
    | none => if (dB = dA + 4 ∨ dA = dB + 4) ∧ tA = 3 ∧ tB = 3 ∧ isEnd A ∧ isEnd B then
        some [⟨6, min dA dB, decide (dA < dB)⟩] else none
  | _ => none

/-- The directed links of a two-segment link: a return wire and a crossing in either order (R67). The wire runs to the
facing edge for a horizontal crossing, and to the end that the other plot stands at for a vertical one. -/
def twoSegment (wireFirst : Bool) (A B : Nat) : Option (List LinkDir) :=
  let dA := plotDie A; let dB := plotDie B
  let tA := plotTerrace A; let tB := plotTerrace B
  let cA := plotColumn A; let cB := plotColumn B
  match horizontal dA dB with
  | some (p, x, y) =>
    if wireFirst then
      if cB = y then some [⟨3, dA * 4 + tA, x == 15⟩, ⟨5, p, decide (dA < dB)⟩] else none
    else if cA = x then some [⟨5, p, decide (dA < dB)⟩, ⟨3, dB * 4 + tB, y == 0⟩] else none
  | none =>
    if (dB = dA + 4 ∨ dA = dB + 4) ∧ tA = 3 ∧ tB = 3 then
      if wireFirst then
        if isEnd B then some [⟨3, dA * 4 + tA, cB == 15⟩, ⟨6, min dA dB, decide (dA < dB)⟩] else none
      else if isEnd A then some [⟨6, min dA dB, decide (dA < dB)⟩, ⟨3, dB * 4 + tB, cA == 0⟩] else none
    else none

/-- The directed links of a link of a ring list; `none`: RING_LINK (R67). -/
def linkDirs (r : RingCfg) (B : Nat) : Option (List LinkDir) :=
  if r.seg2 = 0 then oneSegment r.seg1 r.lplot B
  else if r.seg1 = 3 ∧ r.seg2 = 5 then twoSegment true r.lplot B
  else if r.seg1 = 5 ∧ r.seg2 = 3 then twoSegment false r.lplot B
  else none

/-- The entry that follows entry `i` of a ring list, the first after the last. -/
def ringNext (rs : List RingCfg) (i : Nat) : Nat :=
  match rs[(i + 1) % rs.length]? with
  | some r => r.lplot
  | none => 0

/-- The directed links of ring 0, and of ring 1 in the opposite directions when the bed has two rings (R66). -/
def bedLinks (rings : Nat) (rs : List RingCfg) : List LinkDir :=
  let l0 := (List.range rs.length).flatMap (fun i => match rs[i]? with
    | some r => (linkDirs r (ringNext rs i)).getD []
    | none => [])
  if rings = 2 then l0 ++ l0.map (fun l => { l with up := !l.up }) else l0

/-- The plot that follows (`ring` 0) or precedes (`ring` 1) a plot in its bed's list: the next in that ring's order. -/
def ringSucc (rs : List RingCfg) (ring L : Nat) : Option Nat :=
  match rs.findIdx? (fun r => r.lplot == L) with
  | none => none
  | some i => (rs[if ring = 0 then (i + 1) % rs.length else (i + rs.length - 1) % rs.length]?).map (fun r => r.lplot)

/-- The plot ends an arc of the ring: the next plot in the ring's order is a turnstile's (08 R200). -/
def endsArc (ts : List TurnstileCfg) (rs : List RingCfg) (ring L : Nat) : Bool :=
  match ringSucc rs ring L with
  | some n => ts.any (fun t => t.ring == ring && t.lplot == n)
  | none => false

end Machine
end Sys2Proof
end

