-- ==== Sys2Proof/Machine/Operands.lean ====
section
/-! DEFINITION. How engines read and write the data they work on: bytes with the marks of their words, elements and
block scales within them, and the tiles in which a stream holds rows (05 R118 to R123, 07 R170, 18 R418). -/
namespace Sys2Proof
namespace Machine

/-! ### Bytes with the marks of their words -/

/-- A byte that an engine produced: nothing is wrong with it. -/
def Lane.ofByte (b : Byte) : Lane := ⟨b, 0#8, 8⟩

/-- Bytes that an engine produced. -/
def lanesOf (bs : List Byte) : List Lane := bs.map Lane.ofByte

/-- The byte belongs to an uncorrectable word. -/
def Lane.bad (l : Lane) : Bool := l.synd != 0#8

/-- Some byte belongs to an uncorrectable word. -/
def anyBadLane (ls : List Lane) : Bool := ls.any Lane.bad

/-- The bytes alone. -/
def laneBytes (ls : List Lane) : List Byte := ls.map (fun l => l.val)

/-- The byte at an address of a memory as its checker delivers it. -/
def Dev.readLane (d : Dev) (m : Mem) (a : Nat) : Lane :=
  let s := d.syndOf (m.word a)
  ⟨d.readByte m a, if hedgeCheck s = .bad then s else 0#8, a % 8⟩

/-- `n` bytes from an address on. -/
def Dev.readLanes (d : Dev) (m : Mem) (a : Nat) : Nat → List Lane
  | 0 => []
  | n + 1 => d.readLane m a :: Dev.readLanes d m (a + 1) n

/-- The bytes are one whole word as it was read, in order, so that its check bits go with it (18 R418). -/
def wholeWord (ls : List Lane) : Bool :=
  ls.map (fun l => l.lane) == [0, 1, 2, 3, 4, 5, 6, 7] &&
    (match ls with
      | [] => false
      | l :: r => r.all (fun x => x.synd == l.synd))

/-- The syndrome with which the bytes of one word are written: that of the word they are, or poison where the word is
formed anew and a byte of it is bad (18 R416, R418). -/
def chunkSynd (ls : List Lane) : BitVec 8 :=
  match ls with
  | [] => 0#8
  | l :: _ => if wholeWord ls then l.synd else if anyBadLane ls then poison else 0#8

/-- The bytes of one word are written from address `a` on. -/
def Dev.writeChunk (d : Dev) (m : Mem) (a : Nat) (ls : List Lane) : Dev :=
  d.writeWith m a (laneBytes ls) (chunkSynd ls)

/-- Bytes are written word by word; `fuel` bounds the words. -/
def Dev.writeLanesFuel (m : Mem) : Nat → Dev → Nat → List Lane → Dev
  | 0, d, _, _ => d
  | fuel + 1, d, a, ls =>
    if ls.isEmpty then d
    else
      let n := 8 - a % 8
      Dev.writeLanesFuel m fuel (d.writeChunk m a (ls.take n)) (a + n) (ls.drop n)

/-- Bytes with their marks are written from address `a` on. -/
def Dev.writeLanes (d : Dev) (m : Mem) (a : Nat) (ls : List Lane) : Dev :=
  Dev.writeLanesFuel m (ls.length / 8 + 2) d a ls

/-! ### Elements and tiles -/

/-- Byte `i` of a list, 0 beyond its end. -/
def byteAt (bs : List Byte) (i : Nat) : Byte := bs.getD i 0#8

/-- Element `i` of packed elements as an exact value without any scale. -/
def Fmt.elem (f : Fmt) (bs : List Byte) (i : Nat) : Val := f.decode (f.elemAt (byteAt bs) i)

/-- The layout of rows in a stream of bytes: elements to a row, bytes of a row's elements, and block-scale bytes to a
row (R121, R123, R170). -/
structure RowShape where
  elems  : Nat
  ebytes : Nat
  sbytes : Nat
  deriving DecidableEq, Repr

/-- Rows of `n` elements of a format; rows of an MX or BS24 format are completed to whole 32-element blocks (R123). -/
def rowShape (f : Fmt) (n : Nat) : RowShape :=
  if f.blockScaled then ⟨(n + 31) / 32 * 32, f.packedBytes ((n + 31) / 32 * 32), (n + 31) / 32⟩
  else ⟨n, f.packedBytes n, 0⟩

/-- The next multiple of 64. -/
def round64 (n : Nat) : Nat := (n + 63) / 64 * 64

/-- Bytes of a tile of `m` rows: their elements, their scales, padded to a multiple of 64 (R170). The rows of a format
whose elements do not fill whole bytes are packed together (R121). -/
def tileBytes (f : Fmt) (n m : Nat) : Nat :=
  let s := rowShape f n
  round64 (f.packedBytes (s.elems * m) + s.sbytes * m)

/-- Bytes of `k` rows in tiles of `t` rows, the last one short. -/
def streamBytes (f : Fmt) (n t k : Nat) : Nat :=
  if t = 0 then 0 else k / t * tileBytes f n t + (if k % t = 0 then 0 else tileBytes f n (k % t))

/-- Element `j` of row `i` in a tile of `m` rows, under its block scale or the per-tensor scale `ts` (R122, R123). -/
def tileElem (f : Fmt) (n m ts : Nat) (bs : List Byte) (i j : Nat) : Val :=
  let s := rowShape f n
  let v := f.elem bs (i * s.elems + j)
  if f.blockScaled then v.underScale (byteAt bs (f.packedBytes (s.elems * m) + i * s.sbytes + j / 32)).toNat
  else if f.tensorScaled then v.underScale ts
  else v

/-- The rows of a tile of `m` rows as exact values. -/
def tileRows (f : Fmt) (n m ts : Nat) (bs : List Byte) : List (List Val) :=
  (List.range m).map (fun i => (List.range n).map (fun j => tileElem f n m ts bs i j))

/-- The rows of a stream of `k` rows in tiles of `t`, tile by tile. -/
def streamRowsFuel (f : Fmt) (n t ts : Nat) : Nat → Nat → List Byte → List (List Val)
  | 0, _, _ => []
  | fuel + 1, k, bs =>
    if k = 0 then []
    else
      let m := min t k
      tileRows f n m ts bs ++ streamRowsFuel f n t ts fuel (k - m) (bs.drop (tileBytes f n m))

/-- The rows of a stream of `k` rows in tiles of `t` rows. -/
def streamRows (f : Fmt) (n t k ts : Nat) (bs : List Byte) : List (List Val) := streamRowsFuel f n t ts k k bs

/-! ### Delivering rows -/

/-- How a command delivers elements: destination format, its per-tensor scale, rounding, overflow, and the draws of
R133 with the coordinates of the first element. -/
structure Delivery where
  fmt    : Fmt
  tscale : Nat
  rnd    : Rnd
  ieee   : Bool
  key    : DrawKey
  row0   : Nat
  col0   : Nat
  deriving DecidableEq, Repr

/-- One element at row `r` and column `c` of the destination, outside any block. -/
def Delivery.one (y : Delivery) (r c : Nat) (v : Val) : Nat × FlagSet :=
  y.fmt.deliverScaled (if y.fmt.tensorScaled then y.tscale else 0x7F) y.rnd y.ieee
    (y.key.draw (y.row0 + r) (y.col0 + c)) v

/-- The values of a row with their draws; a block-scaled row is completed with +0 (R123). -/
def Delivery.drawn (y : Delivery) (r : Nat) (vs : List Val) : List (Val × Nat) :=
  (List.range vs.length).zip vs |>.map (fun p => (p.2, y.key.draw (y.row0 + r) (y.col0 + p.1)))

/-- A row padded with +0 to whole blocks. -/
def padBlocks (vs : List Val) : List Val := vs ++ List.replicate ((vs.length + 31) / 32 * 32 - vs.length) Val.zero

/-- A delivered row: its element codes, its scale bytes and its flags (R126 to R138). -/
def Delivery.row (y : Delivery) (r : Nat) (vs : List Val) : List Nat × List Nat × FlagSet :=
  if y.fmt.blockScaled then
    let bs := (chunks 32 (y.drawn r (padBlocks vs))).map (fun b => y.fmt.deliverBlock y.rnd b)
    (bs.flatMap (fun b => b.2.1), bs.map (fun b => b.1), bs.foldl (fun a b => a ||| b.2.2) 0#5)
  else
    let es := ((List.range vs.length).zip vs).map (fun p => y.one r p.1 p.2)
    (es.map (fun e => e.1), [], es.foldl (fun a e => a ||| e.2) 0#5)

/-- Rows numbered from `r` on. -/
def Delivery.rows (y : Delivery) : Nat → List (List Val) → List (List Nat × List Nat × FlagSet)
  | _, [] => []
  | r, v :: vs => y.row r v :: Delivery.rows y (r + 1) vs

/-- Delivered rows as a tile: elements in row order, then scales, padded with zero to a multiple of 64 bytes (R170). -/
def packTile (f : Fmt) (rs : List (List Nat × List Nat × FlagSet)) : List Byte :=
  let b := f.pack (rs.flatMap (fun r => r.1)) ++ (rs.flatMap (fun r => r.2.1)).map (fun x => BitVec.ofNat 8 x)
  b ++ List.replicate (round64 b.length - b.length) 0#8

/-- Delivered rows as tiles of `t` rows. -/
def packTiles (f : Fmt) (t : Nat) (rs : List (List Nat × List Nat × FlagSet)) : List Byte :=
  (chunks t rs).flatMap (packTile f)

/-- The flags of delivered rows. -/
def rowFlags (rs : List (List Nat × List Nat × FlagSet)) : FlagSet := rs.foldl (fun a r => a ||| r.2.2) 0#5

end Machine
end Sys2Proof
end

