-- ==== Sys2Proof/Machine/Furrow.lean ====
section
/-! DEFINITION. Furrows and their scoreboard (09 R218 to R227): claims, fill bits and releases, and reading and writing
a range of a furrow. -/
namespace Sys2Proof
namespace Machine

/-! ### Pointers -/

/-- The furrow's bytes. -/
def Furrow.bytes (f : Furrow) : Nat := f.size * 64

/-- A write of `n` bytes may claim its range where TAIL is `tail`: it does not run over an undrained range (R219). -/
def Furrow.hasRoom (f : Furrow) (tail n : Nat) : Bool := decide (f.head + round64 n ≤ tail + f.bytes)

/-- A write claims its range (R219). -/
def Furrow.claimWrite (f : Furrow) (n : Nat) : Furrow := { f with head := f.head + round64 n }

/-- The lines of a range, as numbers of the byte count divided by 64. -/
def rangeLines (start n : Nat) : List Nat := (List.range (round64 n / 64)).map (fun i => start / 64 + i)

/-- Every line of a range is filled (R220). -/
def Furrow.filled (f : Furrow) (start n : Nat) : Bool := (rangeLines start n).all (fun l => f.fill.contains l)

/-- A read claims its range (R221). -/
def Furrow.claimRead (f : Furrow) (n : Nat) : Furrow := { f with read := f.read + round64 n }

/-- The lines are marked filled. -/
def Furrow.fillLines (f : Furrow) (ls : List Nat) : Furrow :=
  { f with fill := f.fill ++ ls.filter (fun l => !f.fill.contains l) }

/-- The lines of a range are marked filled (Table 9.4). -/
def Furrow.fillRange (f : Furrow) (start n : Nat) : Furrow := f.fillLines (rangeLines start n)

/-- TAIL advances over the released ranges that follow it, and the fill bits of the lines it passes are cleared; the
number bounds the ranges. -/
def Furrow.advance (f : Furrow) : Nat → Furrow
  | 0 => f
  | k + 1 =>
    match f.freed.find? (fun r => r.1 == f.tail) with
    | some r => Furrow.advance { f with tail := f.tail + r.2, freed := f.freed.erase r,
                                        fill := f.fill.filter (fun l => decide ((f.tail + r.2) / 64 ≤ l)) } k
    | none => f

/-- A reader releases its range (R221). -/
def Furrow.release (f : Furrow) (start n : Nat) : Furrow :=
  if round64 n = 0 then f
  else { f with freed := f.freed ++ [(start, round64 n)] }.advance (f.freed.length + 1)

/-- All pointers go to the base and all fill bits are cleared (Table 9.5). -/
def Furrow.resetPointers (f : Furrow) : Furrow := { Furrow.start with base := f.base, size := f.size }

/-! ### Contents -/

/-- The bench address of a byte count of a furrow (R218). -/
def Dev.furAddr (d : Dev) (die p f c : Nat) : Nat :=
  let x := d.fur die p f
  (die * 68 + p) * 2 ^ 19 + (x.base * 64 + c % x.bytes) % 2 ^ 19

/-- `n` bytes of a furrow from a byte count on, as the bench delivers them. -/
def Dev.furLanes (d : Dev) (die p f c n : Nat) : List Lane :=
  (List.range n).map (fun i => d.readLane .bench (d.furAddr die p f (c + i)))

/-- The keys of the words that `n` bytes from a byte count on touch. -/
def Dev.furWords (d : Dev) (die p f c n : Nat) : List Nat :=
  if n = 0 then []
  else (List.range ((c + n - 1) / 8 - c / 8 + 1)).map (fun i => Mem.bench.word (d.furAddr die p f (c / 8 * 8 + 8 * i)))

/-- Some word among `n` bytes from a byte count on is uncorrectable. -/
def Dev.furBad (d : Dev) (die p f c n : Nat) : Bool :=
  (d.furWords die p f c n).any (fun k => hedgeCheck (d.syndOf k) == .bad)

/-- Bytes are written from a byte count on, round the end of the furrow to its base. -/
def Dev.furWrite (d : Dev) (die p f c : Nat) (ls : List Lane) : Dev :=
  let n := (d.fur die p f).bytes - c % (d.fur die p f).bytes
  let d1 := d.writeLanes .bench (d.furAddr die p f c) (ls.take n)
  if ls.length ≤ n then d1 else d1.writeLanes .bench (d.furAddr die p f (c + n)) (ls.drop n)

/-- Bytes and the zero bytes that complete them to whole lines are written from a byte count on (R219). -/
def Dev.furStore (d : Dev) (die p f c : Nat) (ls : List Lane) : Dev :=
  d.furWrite die p f c (ls ++ lanesOf (List.replicate (round64 ls.length - ls.length) 0#8))

/-- The lines of a bench that `n` bytes of a furrow from a byte count on lie in; a line that a write covers only in part of a word
comes twice, since its merge takes a second cycle of the bank (R216). -/
def Dev.furLines (d : Dev) (die p f c n : Nat) (write : Bool) : List Nat :=
  if n = 0 then []
  else
    let cut := [c, c + n].filter (fun e => write && e % 8 != 0)
    ((List.range ((c + n - 1) / 64 - c / 64 + 1)).map (fun i => c / 64 + i)).flatMap (fun l =>
      let k := d.furAddr die p f (l * 64) % 2 ^ 19 / 64
      k :: (cut.filter (fun e => e / 64 == l)).map (fun _ => k))

/-- The data of an access that has issued crosses a port of a bench: its lines address their banks from the next core cycle on, four
a core cycle, or one a lattice cycle at the lattice port (R214, R215, R217). -/
def Dev.useLines (d : Dev) (die p f c n cls : Nat) (write : Bool) : Dev :=
  let d1 := d.settle die p
  let len := d1.coreLen
  let at_ (i : Nat) : Nat := d1.now + len + (if cls = clsLattice then 2 * i else i / 4) * len
  let ls := d1.furLines die p f c n write
  d1.setPlot die p { d1.plot die p with
    lines := (d1.plot die p).lines ++ ((List.range ls.length).zip ls).map (fun x => ⟨lineBank x.2, cls, at_ x.1, 0⟩) }

/-! ### Requests -/

/-- The scoreboard condition of an access is clear in the cycle of which `f` is the furrow: room for a write, filled lines for a
read, by TAIL and the fill bits as the cycle found them, HEAD and READ as its claims so far left them (R219, R221 to R223). -/
def Furrow.clear (f : Furrow) (a : BenchAccess) : Bool :=
  if a.write then f.hasRoom f.seen.tail a.n else (rangeLines f.read a.n).all (fun l => f.seen.fill.contains l)

/-- A read stalls on the furrow, which a later one does not pass (R221). -/
def Furrow.readStalled (f : Furrow) : Bool := f.stalled.any (fun x => !x.write)

/-- An earlier read than this stalls on the furrow (R221). -/
def Furrow.readAhead (f : Furrow) (a : BenchAccess) : Bool :=
  !a.write && (match f.stalled.find? (fun x => !x.write) with
    | some x => x != a
    | none => false)

/-- A port may claim in this cycle: those that have are before it in the order of R223, so that each claims once at most. -/
def Furrow.portFree (f : Furrow) (port : Nat) : Bool := f.seen.ports.all (fun q => decide (q < port))

/-- The access may issue in this cycle, and none that stalls at an earlier port may (R222, R223). -/
def Furrow.mayIssue (f : Furrow) (a : BenchAccess) : Bool :=
  f.clear a && !f.readAhead a && f.portFree a.port &&
    f.stalled.all (fun x => !(decide (x.port < a.port) && f.clear x && !f.readAhead x))

/-- A port has claimed in this cycle. -/
def Furrow.byPort (f : Furrow) (port : Nat) : Furrow := { f with seen := { f.seen with ports := f.seen.ports ++ [port] } }

/-- The access claims its range through its port (R219, R221, R223). -/
def Furrow.claim (f : Furrow) (a : BenchAccess) : Furrow :=
  (if a.write then f.claimWrite a.n else f.claimRead a.n).byPort a.port

/-- Where the access's range begins. -/
def Furrow.claimAt (f : Furrow) (a : BenchAccess) : Nat := if a.write then f.head else f.read

/-! ### Neighbours on the ring -/

/-- The physical plot whose bench a bench code names: 0 the own plot's, 1 the ring-0 predecessor's, 2 the ring-0
successor's (07 R180). -/
def Dev.benchOf (d : Dev) (die p code : Nat) : Option (Nat × Nat) :=
  if code = 0 then some (die, p)
  else
    ((d.logicalOf die p).bind (fun L => (d.bedOfLplot L).bind (fun b => (d.bed b).bind (fun x =>
      ringSucc x.cfg.ring (if code = 1 then 1 else 0) L)))).bind d.physOf

/-- The port by which an access with a bench code reaches that bench (Table 9.1): the own plot's by the array port; the
predecessor's by its successor link. -/
def benchPort (code : Nat) : Nat := if code = 0 then 0 else if code = 1 then 2 else 1

/-- The plot that follows on a ring. -/
def Dev.nextPlot (d : Dev) (die p ring : Nat) : Option (Nat × Nat) :=
  ((d.logicalOf die p).bind (fun L => (d.bedOfLplot L).bind (fun b => (d.bed b).bind (fun x =>
    ringSucc x.cfg.ring ring L)))).bind d.physOf

end Machine
end Sys2Proof
end

