-- ==== Sys2Proof/Machine/PassArith.lean ====
section
/-! DEFINITION. The PASS work item (07 R180, Table 7.6): its fields, the sizes of its operands and results (07 R167 to
R170), and the values it delivers (06, 07 R168, R169, R178). -/
namespace Sys2Proof
namespace Machine

/-- The fields of a PASS item; `zeros` says that its must-be-0 fields are 0 apart from those of FUR_O and FUR_I. -/
structure PassCmd where
  flow : Nat
  acc  : Nat
  load : Bool
  fwd  : Bool
  ring : Nat
  fmtS : Nat
  fmtM : Nat
  fmtO : Nat
  round : Nat
  k    : Nat
  rows : Nat
  cols : Nat
  scS  : Nat
  scM  : Nat
  scO  : Nat
  opt  : Nat
  furS : Nat
  furM : Nat
  furO : Nat
  furI : Nat
  queue : Nat
  tensor : Nat
  step : Nat
  row0 : Nat
  col0 : Nat
  zeros : Bool
  deriving DecidableEq, Repr

/-- The number in `n` bytes of a command from an offset on. -/
def cmdNum (c : List Byte) (off n : Nat) : Nat := leNat ((c.drop off).take n)

/-- The fields of a PASS item's command bytes: payload bytes, or the extended command (Table 7.6, R180). -/
def PassCmd.ofBytes (c : List Byte) : PassCmd where
  flow := bitsOf (cmdNum c 0 1) 1 0
  acc := bitsOf (cmdNum c 0 1) 3 2
  load := (cmdNum c 0 1).testBit 4
  fwd := (cmdNum c 0 1).testBit 5
  ring := bitsOf (cmdNum c 0 1) 6 6
  fmtS := bitsOf (cmdNum c 1 1) 4 0
  fmtM := bitsOf (cmdNum c 2 1) 4 0
  fmtO := bitsOf (cmdNum c 3 1) 4 0
  round := bitsOf (cmdNum c 3 1) 7 5
  k := cmdNum c 4 2
  rows := bitsOf (cmdNum c 6 1) 4 0
  cols := bitsOf (cmdNum c 7 1) 6 0
  scS := cmdNum c 8 1
  scM := cmdNum c 9 1
  scO := cmdNum c 0x0A 1
  opt := bitsOf (cmdNum c 0x0B 1) 1 0
  furS := cmdNum c 0x0C 1
  furM := cmdNum c 0x0D 1
  furO := cmdNum c 0x0E 1
  furI := cmdNum c 0x0F 1
  queue := cmdNum c 0x10 2
  tensor := cmdNum c 0x14 4
  step := cmdNum c 0x18 4
  row0 := cmdNum c 0x1C 4
  col0 := cmdNum c 0x20 4
  zeros := cmdNum c 0 1 < 128 && cmdNum c 1 1 < 32 && cmdNum c 2 1 < 32 && cmdNum c 6 1 < 32 && cmdNum c 7 1 < 128 &&
    cmdNum c 0x0B 1 < 4 && cmdNum c 0x0C 1 < 128 && cmdNum c 0x0D 1 < 128 && cmdNum c 0x12 2 == 0 &&
    cmdNum c 0x24 4 == 0

/-- Furrow and bench code of a furrow byte. -/
def furNo (f : Nat) : Nat := bitsOf f 4 0
def furBench (f : Nat) : Nat := bitsOf f 6 5

/-- The pass keeps its results in the file (Table 7.5). -/
def PassCmd.keeps (c : PassCmd) : Bool := c.acc == 1 || c.acc == 2

/-- The pass continues kept accumulators or images. -/
def PassCmd.continues (c : PassCmd) : Bool := c.acc == 2 || c.acc == 3

/-- The formats, valid by the checks of R181. -/
def PassCmd.fS (c : PassCmd) : Fmt := (Fmt.ofCode c.fmtS).getD .bfloat16
def PassCmd.fM (c : PassCmd) : Fmt := (Fmt.ofCode c.fmtM).getD .bfloat16
def PassCmd.fO (c : PassCmd) : Fmt := (Fmt.ofCode c.fmtO).getD .bfloat16

/-- Elements per cell in a dense bed (Table 0.1): 1, 2 or 4. -/
def denseRate (f : Fmt) : Nat :=
  match f with
  | .e4m3 | .e5m2 | .int8 | .mxE4m3 | .mxE5m2 | .mxInt8 => 2
  | .e3m2 | .e2m3 | .e2m1 | .mxE3m2 | .mxE2m3 | .mxE2m1 => 4
  | _ => 1

/-- Core cycles per vector in an exact bed (Table 0.1): 2, 4 or 16. -/
def exactCycles (f : Fmt) : Nat :=
  match f with
  | .binary64 => 16 | .binary32 => 4 | _ => 2

/-- Elements that each cell holds, at the lower rate of the pair (R142, R167). -/
def PassCmd.perCell (c : PassCmd) (exact : Bool) : Nat :=
  if exact then 1 else min (denseRate c.fS) (denseRate c.fM)

/-- Core cycles from one vector to the next (R167). -/
def PassCmd.cyc (c : PassCmd) (exact : Bool) : Nat := if exact then max (exactCycles c.fS) (exactCycles c.fM) else 1

/-- Elements of a moving vector. -/
def PassCmd.movElems (c : PassCmd) (exact : Bool) : Nat := 64 * c.perCell exact

/-- Elements of a west vector of an O-flow pass (Table 7.1). -/
def PassCmd.westElems (c : PassCmd) (exact : Bool) : Nat := 16 * c.perCell exact

/-- Bytes of a stationary tile: 16 rows, each its elements and then its scales, padded to 64 (R170). -/
def statBytes (f : Fmt) (n rows : Nat) : Nat := round64 (rows * ((rowShape f n).ebytes + (rowShape f n).sbytes))

/-- Bytes of the pass's stationary tile; none in O-flow. -/
def PassCmd.tileBytes (c : PassCmd) (exact : Bool) : Nat :=
  if c.flow = 2 then 0 else statBytes c.fS (c.movElems exact) 16

/-- Bytes of the pass's moving stream, and of an O-flow pass's west stream. -/
def PassCmd.movBytes (c : PassCmd) (exact : Bool) : Nat := streamBytes c.fM (c.movElems exact) 64 c.k
def PassCmd.westBytes (c : PassCmd) (exact : Bool) : Nat :=
  if c.flow = 2 then streamBytes c.fS (c.westElems exact) 64 c.k else 0

/-- Rows of the output layout and elements in each (Table 7.1). -/
def PassCmd.outRows (c : PassCmd) : Nat := if c.flow = 1 then c.k else c.rows
def PassCmd.outLen (c : PassCmd) : Nat := if c.flow = 0 then c.k else if c.flow = 1 then c.rows else c.cols

/-- The results take the 4,352-bit accumulator. -/
def PassCmd.wide (c : PassCmd) : Bool := wideSet c.fS c.fM

/-- Bytes of the output range (R170); none of a pass that keeps. -/
def PassCmd.outBytes (c : PassCmd) : Nat :=
  if c.keeps then 0
  else if c.fO = .longImage then c.outRows * c.outLen * imageBytes c.wide
  else if c.fO.isMx then streamBytes c.fO c.outLen 64 c.outRows
  else c.fO.packedBytes (c.outRows * c.outLen)

/-- Bytes of the input images of a CONT_FINAL pass of an exact bed. -/
def PassCmd.imgBytes (c : PassCmd) (exact : Bool) : Nat :=
  if exact && c.acc == 3 then c.outRows * c.outLen * imageBytes c.wide else 0

/-! ### Arithmetic -/

/-- Row `i` of a stationary tile as exact values (R170). -/
def statRow (f : Fmt) (n ts : Nat) (bs : List Byte) (i : Nat) : List Val :=
  let s := rowShape f n
  let row := bs.drop (i * (s.ebytes + s.sbytes))
  (List.range n).map (fun j =>
    let v := f.elem row j
    if f.blockScaled then v.underScale (byteAt row (s.ebytes + j / 32)).toNat
    else if f.tensorScaled then v.underScale ts
    else v)

/-- The products of two rows of values in order. -/
def products (a b : List Val) : List (Option Val) := (a.zip b).map (fun p => some (p.1.mul p.2))

/-- The products of one result: of row `i` of the stationary tile with moving vector `v` over the used columns
(R168), or of cell (i, v) of an O-flow pass in increasing reduction index (R169). -/
def PassCmd.resultProducts (c : PassCmd) (exact : Bool) (stat mov west : List (List Val)) (i v : Nat) :
    List (Option Val) :=
  let r := c.perCell exact
  if c.flow = 2 then
    (west.zip mov).flatMap (fun p => products ((p.1.drop (r * i)).take r) ((p.2.drop (r * v)).take r))
  else products (((stat[i]?).getD []).take (c.cols * r)) (((mov[v]?).getD []).take (c.cols * r))

/-- The results of a pass in output order: array row and vector (or cell column), with the entry of the accumulator
file (Table 7.1, R178). -/
def PassCmd.results (c : PassCmd) : List (Nat × Nat × Nat) :=
  (List.range c.outRows).flatMap (fun q => (List.range c.outLen).map (fun e =>
    let i := if c.flow = 1 then e else q
    let v := if c.flow = 1 then q else e
    (i, v, if c.flow = 2 then 64 * i + v else 256 * i + v)))

/-- The number of vectors of the moving tile in which vector `v` of `k` lies. -/
def tileLen (k v : Nat) : Nat := min 64 (k - v / 64 * 64)

/-- What a pass delivers: bytes of the output range, new entries of the file, flags, and the code of its path (R159). -/
structure PassResult where
  bytes : List Byte
  file  : List (Nat × DWord)
  flags : FlagSet
  path  : Nat
  deriving DecidableEq, Repr

/-- The dense accumulators of a pass's results. -/
def PassCmd.denseResults (c : PassCmd) (aligned : Bool) (file : Nat → DWord) (stat mov west : List (List Val)) :
    List (Nat × Dense) :=
  c.results.map (fun x =>
    (x.2.2, Dense.addGroups aligned (chunks (groupSize c.fS c.fM) (c.resultProducts false stat mov west x.1 x.2.1))
      (if c.continues then Dense.ofWord (file x.2.2) else Dense.start)))

/-- The long accumulators of a pass's results, each from its image or empty. -/
def PassCmd.longResults (c : PassCmd) (imgs : List Byte) (stat mov west : List (List Val)) : List Long :=
  ((List.range c.results.length).zip c.results).map (fun x =>
    let n := imageBytes c.wide
    let start := if c.acc = 3 then (Long.ofBytes ((imgs.drop (x.1 * n)).take n)).getD (Long.start c.wide)
      else Long.start c.wide
    start.add ((c.resultProducts true stat mov west x.2.1 x.2.2.1).filterMap id))

/-- Rows of results delivered and packed (R170): as moving tiles in an MX format, else as one run. -/
def PassCmd.deliver (c : PassCmd) (y : Delivery) (vs : List Val) : List Byte × FlagSet :=
  let rs := y.rows 0 (chunks c.outLen vs)
  (if c.fO.isMx then packTiles c.fO 64 rs else packTile c.fO rs, rowFlags rs)

/-- The delivery of a pass in a bed (R130, R133, R134). -/
def PassCmd.delivery (c : PassCmd) (b : BedCfg) : Delivery where
  fmt := c.fO
  tscale := c.scO
  rnd := (Rnd.ofCode c.round ((Rnd.ofCode b.round .nearest).getD .nearest)).getD .nearest
  ieee := (ieeeMode c.fO c.opt b.ieee).getD false
  key := ⟨b.jobSeed, c.tensor, c.step⟩
  row0 := c.row0
  col0 := c.col0

/-- What a pass delivers from its operands (06, 07). -/
def PassCmd.compute (c : PassCmd) (b : BedCfg) (aligned : Bool) (file : Nat → DWord)
    (tile mov west imgs : List Byte) : PassResult :=
  let y := c.delivery b
  let stat := if c.flow = 2 then [] else
    (List.range c.rows).map (statRow c.fS (c.movElems b.exact) c.scS tile)
  let movs := streamRows c.fM (c.movElems b.exact) 64 c.k c.scM mov
  let wests := if c.flow = 2 then streamRows c.fS (c.westElems b.exact) 64 c.k c.scS west else []
  if b.exact then
    let as := c.longResults imgs stat movs wests
    let fl := as.foldl (fun f a => f ||| a.flags) 0#5
    if c.fO = .longImage then ⟨as.flatMap (fun a => a.bytes), [], fl, 2⟩
    else
      let o := c.deliver y (as.map (fun a => a.result y.rnd))
      ⟨o.1, [], fl ||| o.2, 2⟩
  else
    let as := c.denseResults aligned file stat movs wests
    let fl := as.foldl (fun f a => f ||| a.2.flags) 0#5
    let path := if as.any (fun a => a.2.aligned) then 1 else 0
    if c.keeps then ⟨[], as.map (fun a => (a.1, a.2.word)), fl, path⟩
    else
      let o := c.deliver y (as.map (fun a => a.2.result y.rnd))
      ⟨o.1, [], fl ||| o.2, path⟩

/-- The bytes are no image of the pass's operand set's KIND (R481). -/
def PassCmd.badImage (c : PassCmd) (bs : List Byte) : Bool :=
  match Long.ofBytes bs with
  | some a => a.wide != c.wide
  | none => true

/-- The input images that the array reads with vector `v`, by their place in output order (R178, Table 7.5). -/
def PassCmd.vecImages (c : PassCmd) (exact : Bool) (v : Nat) : List Nat :=
  if exact && c.acc == 3 then (List.range c.rows).map (fun row => if c.flow = 1 then v * c.rows + row else row * c.k + v) else []

/-- The entries of the accumulator file that it reads with vector `v`: those of the vector's results, or in O-flow those of every
result with the first (R178). -/
def PassCmd.vecEntries (c : PassCmd) (exact : Bool) (v : Nat) : List Nat :=
  if exact || !c.continues then []
  else if c.flow = 2 then (if v = 0 then c.results.map (fun r => r.2.2) else [])
  else (List.range c.rows).map (fun row => 256 * row + v)

end Machine
end Sys2Proof
end

