-- ==== Sys2Proof/Machine/PlotOps.lean ====
section
/-! DEFINITION. What a plot does, as operations (07 R171 to R190, 08 R200 to R203, 09 R219 to R226): the checks of a PASS
item, the entry of vectors with their forwarding, retirement, abandonment and replay. -/
namespace Sys2Proof
namespace Machine

/-! ### Looking at a plot -/

/-- The plot is FAILED (PLOT_STS.FAILED): its array failed BIST or a retest (R189, R190). -/
def Dev.plotFailed (d : Dev) (die p : Nat) : Bool := d.arrFail.contains (die * 68 + p) || d.arrNew.contains (die * 68 + p)

/-- The plot is DEGRADED: it sums by the aligned path (Table 6.4). -/
def Dev.plotDegraded (d : Dev) (die p : Nat) : Bool :=
  !d.plotFailed die p && (d.defFail.contains (die * 68 + p) || d.defNew.contains (die * 68 + p))

/-- PLOT_STS.STATE: a plot with passes is in RUN unless its state says otherwise. -/
def Dev.plotState (d : Dev) (die p : Nat) : Nat :=
  let s := d.fld (.plot die p) Reg.PLOT_STS.STATE
  if s = 0 && !(d.plot die p).passes.isEmpty then 1 else s

/-- The configuration of a pass's bed. -/
def Dev.passCfg (d : Dev) (x : Pass) : Option BedCfg := (d.bed x.bed).map (fun b => b.cfg)

/-- The fields of a pass. -/
def Pass.fields (x : Pass) : PassCmd := PassCmd.ofBytes x.cmd

/-- The plot after `g`. -/
def Dev.modPlot (d : Dev) (die p : Nat) (g : PlotSt → PlotSt) : Dev := d.setPlot die p (g (d.plot die p))

/-- Pass `seq` of a plot after `g`. -/
def Dev.modPass (d : Dev) (die p seq : Nat) (g : Pass → Pass) : Dev :=
  d.modPlot die p (fun s => { s with passes := s.passes.map (fun x => if x.seq = seq then g x else x) })

/-- The pass runs in the array. -/
def Pass.running (x : Pass) : Bool := x.stage == .running

/-! ### The checks of a PASS item (R181) -/

/-- A furrow of a bench code is too short for `n` bytes, or there is no such bench. -/
def Dev.furShort (d : Dev) (die p fur n : Nat) : Bool :=
  match d.benchOf die p (furBench fur) with
  | some b => decide ((d.fur b.1 b.2 (furNo fur)).bytes < round64 n)
  | none => true

/-- A queue that a unit may name as its output: a barrow queue of its bed whose PRODUCER it is, not in ERROR. -/
def Dev.queueOk (d : Dev) (a : Agent) (bed q : Nat) : Bool :=
  d.isBarrowQueue q && d.qfld q Ctx.bed == bed && producerIs d.lplot (d.qfld q Ctx.producer) a && !d.queueInError q

/-- Whether kept accumulators stand, and their record, once the listed passes have retired (R179). -/
def accAfter (v : Bool) (r : Nat × Nat × Nat × Nat) : List Pass → Bool × (Nat × Nat × Nat × Nat)
  | [] => (v, r)
  | x :: xs =>
    let c := x.fields
    if c.keeps then accAfter true (c.flow, c.k, c.rows, c.cols) xs
    else if c.acc = 3 then accAfter false r xs
    else accAfter v r xs

/-- FMT_O is allowed (R152, R164). -/
def outFormatOk (exact : Bool) (f : Fmt) : Bool :=
  if exact then f == .longImage || (f.convertible && f != .bs24)
  else f.convertible && f != .binary64 && f != .bs24

/-- The bytes FUR_O and FUR_I are well formed where they are used, and 0 where FUR_I is not (Table 7.6). -/
def PassCmd.furrowsOk (c : PassCmd) (exact : Bool) : Bool :=
  furBench c.furS != 3 && furBench c.furM == 0 && (c.keeps || (decide (c.furO < 128) && furBench c.furO != 3)) &&
    (if exact && c.acc == 3 then decide (c.furI < 128) && furBench c.furI != 3 else c.furI == 0)

/-- The code of Table 7.8 of the first check of R181 that a pass fails on a plot, 0 if none. -/
def Dev.passRefusal (d : Dev) (die p bed : Nat) (b : BedCfg) (c : PassCmd) : Nat :=
  let s := d.plot die p
  let ex := b.exact
  let acc := accAfter (d.isSet (.plot die p) Reg.PLOT_STS.ACC_VALID) s.record s.passes
  let r := c.perCell ex
  if d.plotFailed die p then 0x17
  else if ex && d.plotDegraded die p then 0x16
  else if !c.zeros || c.flow == 3 || !c.furrowsOk ex then 0x11
  else if (Fmt.ofCode c.fmtS).isNone || (Fmt.ofCode c.fmtM).isNone || (Fmt.ofCode c.fmtO).isNone ||
      !allowedPair ex c.fS c.fM || (c.flow == 2 && (c.fS.isMx || c.fM.isMx)) || !outFormatOk ex c.fO then 0x10
  else if c.round == 6 || c.opt == 2 then 0x11
  else if c.k == 0 || decide (4096 / c.cyc ex < c.k) || c.rows == 0 || decide (16 < c.rows) || c.cols == 0 ||
      decide (64 < c.cols) then 0x12
  else if ex && (c.flow == 2 || c.keeps) then 0x11
  else if c.keeps && (if c.flow = 2 then c.k * r % groupSize c.fS c.fM != 0
      else decide (256 < c.k) || c.cols * r % groupSize c.fS c.fM != 0) then 0x12
  else if !ex && c.continues && !(acc.1 && acc.2 == (c.flow, c.k, c.rows, c.cols)) then 0x14
  else if !c.load && !d.isSet (.plot die p) Reg.PLOT_STS.LIVE_VALID && !s.passes.any (fun x => x.loads) then 0x13
  else if (c.load && c.flow != 2 && d.furShort die p c.furS (c.tileBytes ex)) ||
      d.furShort die p c.furM (c.movBytes ex) || (c.flow == 2 && d.furShort die p c.furS (c.westBytes ex)) ||
      (c.outBytes != 0 && d.furShort die p c.furO c.outBytes) ||
      (c.imgBytes ex != 0 && d.furShort die p c.furI (c.imgBytes ex)) then 0x15
  else if c.queue != 0xFFFF && !d.queueOk (.plot die p) bed c.queue then 0x19
  else 0

/-- A pass is refused: REFUSED and CAUSE, the item goes, and its bed halts (R181). -/
def Dev.refusePass (d : Dev) (die p bed seq code : Nat) : Dev :=
  let d1 := (d.setFld (.plot die p) Reg.PLOT_STS.REFUSED 1).setFld (.plot die p) Reg.PLOT_STS.CAUSE code
  let d2 := d1.modPlot die p (fun s => { s with passes := s.passes.filter (fun x => x.seq != seq) })
  ({ d2 with items := d2.items.filter (fun i => i.seq != seq) }).haltBed bed 3

/-! ### Bench requests of a plot -/

/-- A request at the scoreboard of a furrow: it claims its range, or stands stalled there (R219, R221). With the
device, where the claim begins. -/
def Dev.request (d0 : Dev) (a : BenchAccess) : Dev × Option Nat :=
  let d := d0.settle a.die a.plot
  let f := d.furNow a.die a.plot a.fur
  if f.mayIssue a then
    (d.setFur a.die a.plot a.fur { f.claim a with stalled := f.stalled.erase a }, some (f.claimAt a))
  else if f.stalled.contains a then (d, none)
  else (d.setFur a.die a.plot a.fur { f with stalled := f.stalled ++ [a] }, none)

/-- The access by which a plot's pass reaches a furrow named by a furrow byte. -/
def Dev.passAccess (d : Dev) (die p fur : Nat) (write : Bool) (n : Nat) : Option BenchAccess :=
  (d.benchOf die p (furBench fur)).map (fun b =>
    ⟨.plot die p, b.1, b.2, furNo fur, benchPort (furBench fur), write, n⟩)

/-! ### The entry of a vector (R172, R174, R480, 08 R203) -/

/-- Where vector `v` of a stream of `k` vectors lies, as offset and length from the stream's start: its elements, and
its block scales (R170). -/
def vecRanges (f : Fmt) (n k v : Nat) : (Nat × Nat) × (Nat × Nat) :=
  let s := rowShape f n
  let t := v / 64 * tileBytes f n 64
  ((t + v % 64 * s.ebytes, s.ebytes), (t + tileLen k v * s.ebytes + v % 64 * s.sbytes, s.sbytes))

/-- The lines that a byte range of a furrow touches. -/
def touchedLines (start n : Nat) : List Nat :=
  if n = 0 then [] else (List.range ((start + n - 1) / 64 - start / 64 + 1)).map (fun i => start / 64 + i)

/-- The lines of vector `v` are filled. -/
def Furrow.vecFilled (x : Furrow) (base : Nat) (f : Fmt) (n k v : Nat) : Bool :=
  let r := vecRanges f n k v
  (touchedLines (base + r.1.1) r.1.2 ++ touchedLines (base + r.2.1) r.2.2).all (fun l => x.fill.contains l)

/-- How far a stream is claimed once vector `v` has entered or been written: line by line, and to the end of a tile with
the tile's last vector (R170, R221). -/
def streamClaim (f : Fmt) (n k v : Nat) : Nat :=
  let m := tileLen k v
  v / 64 * tileBytes f n 64 + (if v % 64 + 1 = m then tileBytes f n m else round64 ((v % 64 + 1) * (rowShape f n).ebytes))

/-- What a forwarding write claims with vector `v` of a tile beyond what earlier vectors claimed: an MX tile whole with
its first vector, since its scale lines follow its elements; else line by line (R174, R219). -/
def forwardClaim (f : Fmt) (n k v : Nat) : Nat :=
  if f.isMx then (if v % 64 = 0 then tileBytes f n (tileLen k v) else 0)
  else streamClaim f n k v - (if v % 64 = 0 then v / 64 * tileBytes f n 64 else streamClaim f n k (v - 1))

/-- The lines of a tile of `m` vectors, counted from its start, of which every byte is written once its vectors 0 to
`i` are (Table 9.4). -/
def tileWritten (f : Fmt) (n m i : Nat) : List Nat :=
  let s := rowShape f n
  (List.range (tileBytes f n m / 64)).filter (fun l =>
    (i + 1 == m) ||
      (decide (min (64 * l + 64) (m * s.ebytes) ≤ (i + 1) * s.ebytes ∨ m * s.ebytes ≤ 64 * l) &&
       decide (min (64 * l + 64) (m * (s.ebytes + s.sbytes)) ≤ m * s.ebytes + (i + 1) * s.sbytes ∨
         64 * l + 64 ≤ m * s.ebytes) && decide (64 * l + 64 ≤ m * (s.ebytes + s.sbytes))))

/-- An entry of the committed copy of the file: the partial word and its syndrome. An entry that no pass has written
holds zeros (DESIGN CHOICE, entry 5). -/
def PlotSt.entry (s : PlotSt) (e : Nat) : DWord × BitVec 8 := Tbl.get (fun _ => (0#64, 0#8)) s.file e

/-- The partial word of an entry as its checker delivers it (18 R415). -/
def PlotSt.fileWord (s : PlotSt) (e : Nat) : DWord :=
  checkedWord (s.entry e)

/-- A forwarding plot writes vector `v`, whose bytes lie in its own furrow at `base`, into the furrow of the same number
of the next plot; `none`: that range is not drained, and the array holds (R174, R203). -/
def Dev.forwardVec (d : Dev) (die p ring fur base : Nat) (f : Fmt) (n k v : Nat) : Option Dev :=
  match d.nextPlot die p ring with
  | none => some d
  | some nx =>
    let x := d.furNow nx.1 nx.2 fur
    let c := forwardClaim f n k v
    let port := ring + 1
    if c ≠ 0 && (!x.hasRoom x.tail c || !x.portFree port) then none
    else
      let m := tileLen k v
      let start := if v % 64 = 0 then x.head else (x.stream.getD (x.head, 0)).1
      let r := vecRanges f n k v
      let t := v / 64 * tileBytes f n 64
      let used := m * ((rowShape f n).ebytes + (rowShape f n).sbytes)
      let pad := if v % 64 + 1 = m then tileBytes f n m - used else 0
      let put (d : Dev) (at_ : Nat) (ls : List Lane) : Dev :=
        (d.furWrite nx.1 nx.2 fur at_ ls).useLines nx.1 nx.2 fur at_ ls.length clsForward true
      let d1 := d.setFur nx.1 nx.2 fur { (if c = 0 then x else (x.claimWrite c).byPort port) with stream := some (start, v % 64 + 1) }
      let d2 := put d1 (start + (r.1.1 - t)) (d.furLanes die p fur (base + r.1.1) r.1.2)
      let d3 := put d2 (start + (r.2.1 - t)) (d.furLanes die p fur (base + r.2.1) r.2.2)
      let d4 := put d3 (start + used) (lanesOf (List.replicate pad 0#8))
      let d5 := d4.modFur nx.1 nx.2 fur (fun y => y.fillLines ((tileWritten f n m (v % 64)).map (fun l => start / 64 + l)))
      some ((d5.modPlot die p (fun s => { s with fwdBytes :=
        if ring = 0 then (s.fwdBytes.1 + r.1.2 + r.2.2, s.fwdBytes.2) else (s.fwdBytes.1, s.fwdBytes.2 + r.1.2 + r.2.2)
        })).countWrap (.plot die p) Reg.PLOT_FWD_CNT.COUNT 1)

/-- The bytes forwarded so far over the link direction in which a neighbour's bench is read: ring 0 from the predecessor, ring 1
from the successor (08 R204). -/
def Dev.linkBytes (d : Dev) (die p code : Nat) : Option Nat :=
  if code = 0 then none
  else (d.benchOf die p code).map (fun b =>
    let w := (d.plot b.1 b.2).fwdBytes
    if code = 1 then w.1 else w.2)

/-- The input images of a pass may be read: it has claimed them, or their lines are filled and no earlier read stalls (R221). -/
def Dev.imagesHere (d : Dev) (die p : Nat) (x : Pass) (c : PassCmd) (ex : Bool) : Bool :=
  c.imgBytes ex == 0 || x.iBase.isSome || (match d.passAccess die p c.furI false (c.imgBytes ex) with
    | some a => (d.furNow a.die a.plot a.fur).mayIssue a
    | none => false)

/-- What the next vector of a pass waits for, with the furrow byte that names where: its lines of the moving furrow, its west
operand, its images; no read passes one that stalls on its furrow (R172, R221). -/
def Dev.vectorNeeds (d : Dev) (die p : Nat) (x : Pass) (c : PassCmd) (ex : Bool) (v : Nat) : Option (HoldFor × Nat) :=
  let m := d.fur die p (furNo c.furM)
  let far (fur : Nat) : HoldFor × Nat := (if furBench fur = 0 then .line else .farLine, fur)
  if m.readStalled || !m.vecFilled (x.mBase.getD m.read) c.fM (c.movElems ex) c.k v then some (.line, c.furM)
  else if c.flow == 2 && !(match d.benchOf die p (furBench c.furS) with
    | some b =>
      let w := d.fur b.1 b.2 (furNo c.furS)
      !w.readStalled && w.vecFilled (x.wBase.getD w.read) c.fS (c.westElems ex) c.k v
    | none => false) then some (far c.furS)
  else if !d.imagesHere die p x c ex then some (far c.furI)
  else none

/-- The bytes of image number `q` of a pass. -/
def Dev.passImage (d : Dev) (die p : Nat) (x : Pass) (q : Nat) : List Lane :=
  let c := x.fields
  let n := imageBytes c.wide
  match x.iBase, d.benchOf die p (furBench c.furI) with
  | some i, some b => d.furLanes b.1 b.2 (furNo c.furI) (i + q * n) n
  | _, _ => []

/-- A byte range of a furrow named by a furrow byte is read by the array: its words meet their checkers, and its lines use their
banks (R215, R216). -/
def Dev.arrayRead (d : Dev) (die p bed fur : Nat) (c n : Nat) : Dev :=
  match d.benchOf die p (furBench fur) with
  | some b => (d.noteWords bed (d.furWords b.1 b.2 (furNo fur) c n)).useLines b.1 b.2 (furNo fur) c n
      (if furBench fur = 0 then clsRead else clsNeighbour) false
  | none => d

/-- The accumulator file delivers entry `e` to a pass: a corrected word is counted, logged once a chime, and put right; an
uncorrectable one is counted and logged (R178, 18 R418, R421). -/
def Dev.noteEntry (d : Dev) (die p bed e : Nat) : Dev :=
  let w := (d.plot die p).entry e
  let d1 := d.noteStore (.plot die p) bed e w.2
  match hedgeCheck w.2 with
  | .corrected _ => d1.modPlot die p (fun s => { s with
      file := Tbl.set (fun _ => (0#64, 0#8)) s.file e (s.fileWord e, 0#8) })
  | _ => d1

/-- What vector `v` of a pass reads meets the checkers: its elements and scales, its west operand, its images, the accumulators
that it continues (R187, 18 R418). -/
def Dev.noteVector (d : Dev) (die p : Nat) (x : Pass) (c : PassCmd) (ex : Bool) (v : Nat) : Dev :=
  let rd (fur base : Nat) (r : (Nat × Nat) × (Nat × Nat)) (d : Dev) : Dev :=
    (d.arrayRead die p x.bed fur (base + r.1.1) r.1.2).arrayRead die p x.bed fur (base + r.2.1) r.2.2
  let d1 := match x.mBase with
    | some m => rd (furNo c.furM) m (vecRanges c.fM (c.movElems ex) c.k v) d
    | none => d
  let d2 := match x.wBase with
    | some w => if c.flow = 2 then rd c.furS w (vecRanges c.fS (c.westElems ex) c.k v) d1 else d1
    | none => d1
  let d3 := match x.iBase with
    | some i => (c.vecImages ex v).foldl (fun d q => d.arrayRead die p x.bed c.furI (i + q * imageBytes c.wide) (imageBytes c.wide)) d2
    | none => d2
  (c.vecEntries ex v).foldl (fun d e => d.noteEntry die p x.bed e) d3

/-- READ of a furrow reaches the count `c` (R221). -/
def Furrow.readTo (f : Furrow) (c : Nat) : Furrow := { f with read := max f.read c }

/-- A vector that no earlier run of the pass has fed is claimed and forwarded; `none`: the array holds (R172, R174,
R203). A replay forwards nothing that has gone before (R188). -/
def Dev.feedVector (d : Dev) (die p : Nat) (x : Pass) (ex : Bool) : Option Dev :=
  let c := x.fields
  let v := x.fed
  if (d.vectorNeeds die p x c ex v).isSome then none
  else
    let mb := x.mBase.getD (d.fur die p (furNo c.furM)).read
    match (if c.fwd then d.forwardVec die p c.ring (furNo c.furM) mb c.fM (c.movElems ex) c.k v else some d) with
    | none => none
    | some d1 =>
      let d2 := d1.modFur die p (furNo c.furM) (fun f => f.readTo (mb + streamClaim c.fM (c.movElems ex) c.k v))
      let w := if c.flow = 2 then d.benchOf die p (furBench c.furS) else none
      let wb := match w with
        | some b => some (x.wBase.getD (d.fur b.1 b.2 (furNo c.furS)).read)
        | none => none
      let d3 := match w, wb with
        | some b, some wb => d2.modFur b.1 b.2 (furNo c.furS)
            (fun f => f.readTo (wb + streamClaim c.fS (c.westElems ex) c.k v))
        | _, _ => d2
      some (d3.modPass die p x.seq (fun y => { y with fed := v + 1, mBase := some mb, wBase := wb }))

/-- The array of a plot goes on: its stages have stood still since its hold began, if a pass in the array waited (R172). -/
def Dev.endHold (d : Dev) (die p : Nat) : Dev :=
  match (d.plot die p).holding with
  | none => d
  | some h => d.modPlot die p (fun s =>
      let n := if s.passes.any (fun x => x.seq == h.seq && x.stage == .running) then d.now - h.since else 0
      { s.standStill n with hold := none })

/-- The array of a plot holds for what vector `v` of a pass needs, or for room at the successor (R172, R203). -/
def Dev.holdArray (d : Dev) (die p : Nat) (x : Pass) (ex : Bool) (v : Nat) : Dev :=
  let what := ((d.vectorNeeds die p x x.fields ex v).map (fun w => w.1)).getD .room
  d.modPlot die p (fun s => match s.holding with
    | some h => { s with hold := some { h with what := what } }
    | none => { s with hold := some ⟨x.seq, d.now, what⟩ })

/-- The next vector of a pass enters the array of a plot, or the array holds. -/
def Dev.enterVector (d : Dev) (die p : Nat) (x : Pass) (ex : Bool) : Dev :=
  let c := x.fields
  match (if x.entered = x.fed then d.feedVector die p x ex else some d) with
  | none => d.holdArray die p x ex x.fed
  | some d1 =>
    match ((d1.endHold die p).plot die p).passes.find? (fun y => y.seq == x.seq) with
    | none => d1
    | some y => ((((d1.endHold die p).noteVector die p y c ex x.entered).modPass die p x.seq
        (fun z => { z with entered := x.entered + 1 })).modPlot die p
          (fun s => { s with lastEnter := some d1.now, lastFlow := c.flow }))

/-! ### Uncorrectable words -/

/-- The bytes of a pass's streams and images as the benches deliver them. -/
def Dev.passMov (d : Dev) (die p : Nat) (x : Pass) (ex : Bool) : List Lane :=
  let c := x.fields
  match x.mBase with
  | some b => d.furLanes die p (furNo c.furM) b (c.movBytes ex)
  | none => []
def Dev.passWest (d : Dev) (die p : Nat) (x : Pass) (ex : Bool) : List Lane :=
  let c := x.fields
  match x.wBase, d.benchOf die p (furBench c.furS) with
  | some w, some b => d.furLanes b.1 b.2 (furNo c.furS) w (c.westBytes ex)
  | _, _ => []
def Dev.passImgs (d : Dev) (die p : Nat) (x : Pass) (ex : Bool) : List Lane :=
  let c := x.fields
  match x.iBase, d.benchOf die p (furBench c.furI) with
  | some i, some b => d.furLanes b.1 b.2 (furNo c.furI) i (c.imgBytes ex)
  | _, _ => []

/-- The words that a pass has read with the vectors that have entered: those of its operands, and of the accumulators and
images that it continues (R187). -/
def Dev.passOperandBad (d : Dev) (die p : Nat) (x : Pass) (ex : Bool) : Bool :=
  let c := x.fields
  let n := x.entered
  let upTo (f : Fmt) (k e : Nat) : Nat := if n = 0 then 0 else streamBytes f e 64 (min n k)
  anyBadLane x.tile || anyBadLane ((d.passMov die p x ex).take (upTo c.fM c.k (c.movElems ex))) ||
    (c.flow == 2 && anyBadLane ((d.passWest die p x ex).take (upTo c.fS c.k (c.westElems ex))))
def Dev.passAccBad (d : Dev) (die p : Nat) (x : Pass) (ex : Bool) : Bool :=
  (List.range x.entered).any (fun v =>
    (x.fields.vecEntries ex v).any (fun e => hedgeCheck ((d.plot die p).entry e).2 == .bad) ||
      (x.fields.vecImages ex v).any (fun q => anyBadLane (d.passImage die p x q)))

/-- A CONT_FINAL pass of an exact bed has read an image that R481 rejects. -/
def Dev.passImageBad (d : Dev) (die p : Nat) (x : Pass) (ex : Bool) : Bool :=
  x.iBase.isSome && (List.range x.entered).any (fun v =>
    (x.fields.vecImages ex v).any (fun q => x.fields.badImage (laneBytes (d.passImage die p x q))))

/-! ### Retirement (R173) -/

/-- The barrow of a pass: its output range in Table 10.5's encoding, its path and flags (R159, 10 R245). A pass that
keeps its results has claimed none: LENGTH 0 and a free ADDR (DESIGN CHOICE, entry 20). -/
def Dev.passBarrow (d : Dev) (die p : Nat) (x : Pass) (path : Nat) (fl : FlagSet) (void : Bool) (cause : Nat) : Barrow :=
  let c := x.fields
  let at_ := match x.oBase, d.benchOf die p (furBench c.furO) with
    | some o, some b => (d.lplot b.1 b.2 * 2 ^ 48 + furNo c.furO * 2 ^ 32 + o % (d.fur b.1 b.2 (furNo c.furO)).bytes,
        round64 c.outBytes)
    | _, _ => ((Config.freeAddr x.seq).toNat, 0)
  ⟨at_.1, at_.2, 0, 2, path, true, fl, void, false, false, cause⟩

/-- A pass posts a barrow into the slot it has claimed, if any. -/
def Dev.postPass (d : Dev) (x : Pass) (b : Barrow) : Dev :=
  match x.slot with
  | some c => (d.postAt c b).1
  | none => d

/-- A released range of a furrow named by a furrow byte. -/
def Dev.releasePass (d : Dev) (die p fur : Nat) (base : Option Nat) (n : Nat) : Dev :=
  match base, d.benchOf die p (furBench fur) with
  | some s, some b => d.modFur b.1 b.2 (furNo fur) (fun f => f.release s n)
  | _, _ => d

/-- The range that a pass's stationary tile was read from: its own, that of the last LOAD = 1 pass before it, or that of
the last one retired (R173, R189). -/
def Dev.tileRange (d : Dev) (die p : Nat) (x : Pass) (ex : Bool) : Option (Nat × Nat × Nat × Nat × Nat) :=
  let s := d.plot die p
  let own (y : Pass) : Option (Nat × Nat × Nat × Nat × Nat) :=
    match y.sBase, d.benchOf die p (furBench y.fields.furS) with
    | some b, some q => some (q.1, q.2, furNo y.fields.furS, b, y.fields.tileBytes ex)
    | _, _ => none
  match (s.passes.filter (fun y => decide (y.seq ≤ x.seq) && y.loads)).getLast? with
  | some y => own y
  | none => s.loadFrom

/-- The range of the stationary tile that the plot's LOAD = 1 pass before this one read is released, and this one's is
held (R173). -/
def Dev.releaseTile (d : Dev) (die p : Nat) (x : Pass) (ex : Bool) : Dev :=
  if x.loads then
    let d1 := match (d.plot die p).loadFrom with
      | some r => d.modFur r.1 r.2.1 r.2.2.1 (fun f => f.release r.2.2.2.1 r.2.2.2.2)
      | none => d
    d1.modPlot die p (fun s => { s with loadFrom := d.tileRange die p x ex })
  else d

/-- The output of a pass is written and its lines marked filled (Table 9.4). -/
def Dev.storeOutput (d : Dev) (die p : Nat) (x : Pass) (bs : List Byte) : Dev :=
  let c := x.fields
  match x.oBase, d.benchOf die p (furBench c.furO) with
  | some o, some b => ((d.furStore b.1 b.2 (furNo c.furO) o (lanesOf bs)).useLines b.1 b.2 (furNo c.furO) o (round64 bs.length)
      (if furBench c.furO = 0 then clsWrite else clsNeighbour) true).modFur b.1 b.2 (furNo c.furO)
        (fun f => f.fillRange o c.outBytes)
  | _, _ => d

/-- The file after a pass: a keeping pass's other copy becomes the committed copy and its record stands; CONT_FINAL leaves
ACC_VALID at 0; START_FINAL changes nothing (R178, R179, 08 R209). -/
def Dev.commitFile (d : Dev) (die p : Nat) (c : PassCmd) (ex : Bool) (es : List (Nat × DWord)) : Dev :=
  if c.keeps then
    (d.modPlot die p (fun s => { s with
      file := es.foldl (fun t e => Tbl.set (fun _ => (0#64, 0#8)) t e.1 (e.2, 0#8)) s.fileOther
      fileOther := s.file, record := (c.flow, c.k, c.rows, c.cols) })).setFld
        (.plot die p) Reg.PLOT_STS.ACC_VALID 1
  else if !ex && c.acc == 3 then d.setFld (.plot die p) Reg.PLOT_STS.ACC_VALID 0
  else d

/-- A pass retires (R173). -/
def Dev.retirePass (d : Dev) (die p : Nat) (x : Pass) (b : BedCfg) : Dev :=
  let c := x.fields
  let ex := b.exact
  let r := c.compute b (d.plotDegraded die p) (d.plot die p).fileWord (laneBytes x.tile)
    (laneBytes (d.passMov die p x ex)) (laneBytes (d.passWest die p x ex)) (laneBytes (d.passImgs die p x ex))
  let d1 := (d.storeOutput die p x r.bytes).releasePass die p (furNo c.furM) x.mBase (c.movBytes ex)
  let d2 := if c.flow = 2 then d1.releasePass die p c.furS x.wBase (c.westBytes ex) else d1
  let d3 := ((d2.releasePass die p c.furI x.iBase (c.imgBytes ex)).releaseTile die p x ex).commitFile die p c ex r.file
  let d4 := (d3.modPlot die p (fun s => { s with passes := s.passes.filter (fun y => y.seq != x.seq) })).countWrap
    (.plot die p) Reg.PLOT_PASS_CNT.COUNT 1
  let d5 := if d4.fld (.plot die p) Reg.PLOT_STS.STATE = 1 then d4.setFld (.plot die p) Reg.PLOT_STS.STATE 0 else d4
  (d5.postPass x (d.passBarrow die p x r.path r.flags false 0)).retireItem x.seq

/-! ### Abandonment and replay (R187 to R189) -/

/-- The passes that an abandonment of pass `seq` takes: it and every pass behind it in the array. -/
def PlotSt.abandoned (s : PlotSt) (seq : Nat) : List Pass := s.passes.filter (fun x => decide (seq ≤ x.seq) && x.running)

/-- The code FLUSH. -/
def plotFlush : Nat := 0x05

/-- A pass of a plot is abandoned with a cause, and those behind it with FLUSH: each posts a VOID barrow and waits to
replay (R187). -/
def Dev.abandonPasses (d : Dev) (die p seq cause : Nat) (ex : Bool) : Dev :=
  let gone := (d.plot die p).abandoned seq
  let d1 := gone.foldl (fun d x =>
    let c := if x.seq = seq then cause else plotFlush
    (d.postPass x (d.passBarrow die p x (if ex then 2 else 0) 0#5 true c)).modPass die p x.seq (fun y =>
      { y with stage := .ready, entered := 0, replay := true, abandons := y.abandons + 1 })) d
  (((d1.modPlot die p (fun s => { s with hold := none })).setFld (.plot die p) Reg.PLOT_STS.ABANDON 1).setFld (.plot die p) Reg.PLOT_STS.CAUSE
    (if gone.length = 1 then cause else plotFlush)).countSat (.plot die p) Reg.PLOT_ABANDON_CNT.COUNT gone.length

/-- Some pass has been abandoned more than REPLAY_LIMIT times in succession (R188). -/
def Dev.replayExhausted (d : Dev) (die p : Nat) : Bool :=
  (d.plot die p).passes.any (fun x => x.replay && decide (d.fld (.plot die p) Reg.PLOT_CTL.REPLAY_LIMIT < x.abandons))

/-- The passes that wait to replay end without a replay, and their items with them. -/
def Dev.dropReplays (d : Dev) (die p : Nat) : Dev :=
  let gone := ((d.plot die p).passes.filter (fun x => x.replay && !x.running)).map (fun x => x.seq)
  { d.modPlot die p (fun s => { s with passes := s.passes.filter (fun x => !gone.contains x.seq) }) with
    items := d.items.filter (fun i => !gone.contains i.seq) }

/-- The bed halts because of its plot, with the plot's CAUSE; what waits to replay ends (R188, R189). -/
def Dev.plotHalt (d : Dev) (die p code : Nat) : Dev :=
  let d1 := (d.setFld (.plot die p) Reg.PLOT_STS.CAUSE code).dropReplays die p
  match d.bedOfPlot die p with
  | some b => d1.haltBed b 3
  | none => d1

/-- A retest begins: it overwrites both banks and the uncommitted copy of the file (R189). -/
def Dev.startRetest (d : Dev) (die p : Nat) (replay exhausted : Bool) : Dev :=
  let st := d.fld (.plot die p) Reg.PLOT_STS.STATE
  let d1 := d.modPlot die p (fun s => { s with
    liveTile := [], shadowTile := [], fileOther := [], retestReplay := replay, back := if st = 4 then s.back else st
    exhausted := exhausted
    passes := s.passes.map (fun x => if x.running then x
      else if x.replay then { x with tile := [] }
      else if x.stage = .loading ∨ x.stage = .ready then { x with stage := .accepted } else x) })
  ((d1.setFld (.plot die p) Reg.PLOT_STS.LIVE_VALID 0).setFld (.plot die p) Reg.PLOT_STS.SHADOW_VALID 0).setFld
    (.plot die p) Reg.PLOT_STS.STATE 4

end Machine
end Sys2Proof
end

