-- ==== Sys2Proof/Machine/RillCmd.lean ====
section
/-! DEFINITION. The rill descriptor (10 R237, Table 10.4): its fields, the checks of Table 10.6, its walk (R239), and the
layout of its data at each endpoint (R240). -/
namespace Sys2Proof
namespace Machine

/-- A signed number of `n` bytes in a command. -/
def cmdInt (c : List Byte) (off n : Nat) : Int := (BitVec.ofNat (8 * n) (cmdNum c off n)).toInt

/-- The fields of a descriptor; `zeros`: its must-be-0 bits are 0. -/
structure RillDesc where
  srcLoc : Nat
  dstLoc : Nat
  convert : Bool
  transpose : Bool
  srcVirt : Bool
  dstVirt : Bool
  stat   : Bool
  rnd    : Nat
  ovf    : Nat
  srcCode : Nat
  dstCode : Nat
  srcTs  : Nat
  dstTs  : Nat
  srcAddr : Nat
  dstAddr : Nat
  srcScale : Nat
  dstScale : Nat
  sizes  : List Nat
  pasid  : Nat
  pasidEn : Bool
  port   : Nat
  srcStr : List Int
  dstStr : List Int
  outQ   : Nat
  inQ    : Nat
  barrowRows : Nat
  dryNs  : Nat
  tensor : Nat
  step   : Nat
  row0   : Nat
  col0   : Nat
  dryStep : Nat
  zeros  : Bool
  deriving DecidableEq, Repr

/-- The fields of a descriptor's 160 bytes (Table 10.4). -/
def RillDesc.ofBytes (c : List Byte) : RillDesc where
  srcLoc := cmdNum c 0 1
  dstLoc := cmdNum c 1 1
  convert := (cmdNum c 2 1).testBit 0
  transpose := (cmdNum c 2 1).testBit 1
  srcVirt := (cmdNum c 2 1).testBit 2
  dstVirt := (cmdNum c 2 1).testBit 3
  stat := (cmdNum c 2 1).testBit 4
  rnd := bitsOf (cmdNum c 3 1) 2 0
  ovf := bitsOf (cmdNum c 3 1) 4 3
  srcCode := bitsOf (cmdNum c 4 1) 4 0
  dstCode := bitsOf (cmdNum c 5 1) 4 0
  srcTs := cmdNum c 6 1
  dstTs := cmdNum c 7 1
  srcAddr := cmdNum c 8 8
  dstAddr := cmdNum c 0x10 8
  srcScale := cmdNum c 0x18 8
  dstScale := cmdNum c 0x20 8
  sizes := (List.range 5).map (fun i => cmdNum c (0x28 + 4 * i) 4)
  pasid := bitsOf (cmdNum c 0x3C 4) 19 0
  pasidEn := (cmdNum c 0x3C 4).testBit 20
  port := bitsOf (cmdNum c 0x3C 4) 21 21
  srcStr := (List.range 4).map (fun i => cmdInt c (0x40 + 8 * i) 8)
  dstStr := (List.range 4).map (fun i => cmdInt c (0x60 + 8 * i) 8)
  outQ := cmdNum c 0x80 2
  inQ := cmdNum c 0x82 2
  barrowRows := cmdNum c 0x84 4
  dryNs := cmdNum c 0x88 4
  tensor := cmdNum c 0x8C 4
  step := cmdNum c 0x90 4
  row0 := cmdNum c 0x94 4
  col0 := cmdNum c 0x98 4
  dryStep := cmdNum c 0x9C 4
  zeros := decide (cmdNum c 2 1 < 32 ∧ cmdNum c 3 1 < 32 ∧ cmdNum c 4 1 < 32 ∧ cmdNum c 5 1 < 32 ∧
    cmdNum c 0x3C 4 < 2 ^ 22)

/-- The formats, valid by the checks of Table 10.6. -/
def RillDesc.fS (r : RillDesc) : Fmt := (Fmt.ofCode r.srcCode).getD .bfloat16
def RillDesc.fD (r : RillDesc) : Fmt := (Fmt.ofCode r.dstCode).getD .bfloat16

/-- SIZE0 and the numbers of rows. -/
def RillDesc.size (r : RillDesc) (i : Nat) : Nat := r.sizes.getD i 0
def RillDesc.elems (r : RillDesc) : Nat := r.size 0
def RillDesc.rows (r : RillDesc) : Nat := r.size 1 * r.size 2 * r.size 3 * r.size 4

/-- Some extent is 0 (R265). -/
def RillDesc.empty (r : RillDesc) : Bool := r.sizes.any (fun n => n == 0)

/-- Rows to a barrow, the number of barrows, the first row of barrow `b`, and its rows (R239, R243). -/
def RillDesc.perBarrow (r : RillDesc) : Nat :=
  if r.srcLoc = 7 then 1 else if r.barrowRows = 0 then r.rows else r.barrowRows
def RillDesc.barrows (r : RillDesc) : Nat :=
  if r.empty then 1 else if r.srcLoc = 7 then r.elems else ceilDiv r.rows r.perBarrow
def RillDesc.firstRow (r : RillDesc) (b : Nat) : Nat := b * r.perBarrow
def RillDesc.rowsOf (r : RillDesc) (b : Nat) : Nat :=
  if r.empty then 0 else min r.perBarrow (r.rows - r.firstRow b)

/-- The endpoint is addressed as memory with strides: HBM, glasshouse, host or gate (R240). -/
def isMemLoc (l : Nat) : Bool := l == 0 || l == 1 || l == 3 || l == 5

/-- The endpoint is a bench furrow, itself or behind a turnstile. -/
def isBenchLoc (l : Nat) : Bool := l == 2 || l == 4

/-- Bytes of `n` elements; for images, of the KIND that the descriptor names (R241). -/
def eltBytes (f : Fmt) (kind n : Nat) : Nat := if f = .longImage then n * imageBytes (kind == 2) else f.packedBytes n

/-- The bits of an address that its endpoint uses; all others are 0 (Table 10.5). -/
def addrOk (loc a : Nat) : Bool :=
  match loc with
  | 0 => decide (a < 2 ^ 40)
  | 1 => bitsOf a 63 43 == 0 && bitsOf a 39 26 == 0
  | 2 => bitsOf a 63 57 == 0 && bitsOf a 47 37 == 0 && bitsOf a 31 0 == 0
  | 3 => true
  | 4 => bitsOf a 63 57 == 0 && bitsOf a 47 41 == 0 && bitsOf a 39 37 == 0 && bitsOf a 31 0 == 0
  | 5 => bitsOf a 47 44 == 0
  | _ => a == 0

/-- A bench or turnstile address satisfies R238: its plot belongs to the bed and is mapped, and a turnstile of the named
ring at that plot has this engine. -/
def Dev.benchAddrOk (d : Dev) (b : BedCfg) (die e loc a : Nat) : Bool :=
  let L := bitsOf a 56 48
  if loc = 2 then b.ring.any (fun x => x.lplot == L) && (d.physOf L).isSome
  else if loc = 4 then b.ring.any (fun x => x.lplot == L) && (d.physOf L).isSome &&
    b.turnstiles.any (fun t => t.ring == bitsOf a 40 40 && t.lplot == L && t.rill == e && L / 64 == die)
  else true

/-- SIZE0 is whole packing units of a format (R121). -/
def unitsOk (f : Fmt) (n : Nat) : Bool :=
  match f.bits with
  | 4 => n % 2 == 0
  | 6 => n % 4 == 0
  | _ => true

/-- A scale address is well formed for its location where the format has scales; SRC_SCALE_ADDR is 0 otherwise, and
DST_SCALE_ADDR is not looked at (Table 10.4). -/
def srcScaleOk (f : Fmt) (loc a : Nat) : Bool := if f.blockScaled then addrOk loc a else a == 0
def dstScaleOk (f : Fmt) (loc a : Nat) : Bool := !f.blockScaled || addrOk loc a

/-- Elements with which a row of `n` is stored in memory: the last block of a row in an MX format is completed (05 R123). -/
def storedElems (f : Fmt) (n : Nat) : Nat := if f.isMx then (n + 31) / 32 * 32 else n

/-- Source elements per side of a transposition block: 64 · r (08 R206). -/
def RillDesc.turnElems (r : RillDesc) (exact : Bool) : Nat := 64 * (if exact then 1 else denseRate r.fD)

/-- Column blocks in a transposed row, and row blocks in `m` rows. -/
def RillDesc.colBlocks (r : RillDesc) (exact : Bool) : Nat := ceilDiv r.elems (r.turnElems exact)
def RillDesc.blocksOf (r : RillDesc) (exact : Bool) (m : Nat) : Nat := ceilDiv m 64 * r.colBlocks exact

/-- Bytes of `m` rows in a bench stream of format `f` (R240). -/
def streamLen (f : Fmt) (kind n m : Nat) (stat : Bool) (size1 : Nat) : Nat :=
  if f.blockScaled || f.tensorScaled then
    if stat then (if size1 = 0 then 0 else m / size1 * statBytes f n size1 +
      (if m % size1 = 0 then 0 else statBytes f n (m % size1)))
    else streamBytes f n 64 m
  else round64 (eltBytes f kind n * m)

/-- Bytes that a barrow takes at a bench destination and at a bench source. -/
def RillDesc.dstStream (r : RillDesc) (exact : Bool) (b : Nat) : Nat :=
  let m := r.rowsOf b
  if r.transpose then r.blocksOf exact m * streamBytes r.fD (r.turnElems exact) 64 64
  else streamLen r.fD r.dstTs r.elems m r.stat (r.size 1)
def RillDesc.srcStream (r : RillDesc) (b : Nat) : Nat := streamLen r.fS r.srcTs r.elems (r.rowsOf b) r.stat (r.size 1)

/-- Element and scale bytes of a barrow at a memory destination (Table 10.7, LENGTH). -/
def RillDesc.memBytes (r : RillDesc) (b : Nat) : Nat :=
  r.rowsOf b * (eltBytes r.fD r.dstTs (storedElems r.fD r.elems) + (if r.fD.blockScaled then (r.elems + 31) / 32 else 0))

/-- The bytes of a barrow at its destination. -/
def RillDesc.barrowBytes (r : RillDesc) (exact : Bool) (b : Nat) : Nat :=
  if isBenchLoc r.dstLoc then r.dstStream exact b else r.memBytes b

/-- The code of the first check of Table 10.6 that a descriptor fails, 0 if none (R244). A stride and an address are
judged by the endpoints that use them. -/
def Dev.rillRefusal (d : Dev) (die e bed : Nat) (b : BedCfg) (r : RillDesc) : Nat :=
  let dOk := decide (r.dstLoc ≤ 5)
  let sOk := decide (r.srcLoc ≤ 3) || r.srcLoc == 6 || r.srcLoc == 7
  if !r.zeros || !sOk || !dOk || !addrOk r.srcLoc r.srcAddr || !addrOk r.dstLoc r.dstAddr ||
      !srcScaleOk r.fS r.srcLoc r.srcScale || !dstScaleOk r.fD r.dstLoc r.dstScale ||
      !d.benchAddrOk b die e r.srcLoc r.srcAddr || !d.benchAddrOk b die e r.dstLoc r.dstAddr then 0x20
  else if (Fmt.ofCode r.srcCode).isNone || (Fmt.ofCode r.dstCode).isNone || r.rnd == 6 || r.ovf == 2 ||
      (!r.convert && r.srcCode != r.dstCode) || (r.convert && !(r.fS.convertible && r.fD.convertible)) ||
      ((r.fS == .longImage || r.fD == .longImage) && !(r.srcTs == r.dstTs && (r.srcTs == 1 || r.srcTs == 2))) then 0x21
  else if (isMemLoc r.srcLoc && !unitsOk r.fS r.elems) || (isMemLoc r.dstLoc && !unitsOk r.fD r.elems && r.srcLoc != 7) ||
      (isMemLoc r.dstLoc && (List.range 4).any (fun i => r.dstStr.getD i 0 == 0 && decide (1 < r.size (i + 1)))) ||
      (r.srcLoc == 7 && !r.empty && (List.range 4).any (fun i => r.size (i + 1) != 1)) ||
      (r.srcLoc != 7 && decide (2 ^ 32 ≤ r.barrowBytes b.exact 0)) then 0x22
  else if r.transpose && r.dstLoc != 4 then 0x23
  else if (r.outQ != 0xFFFF && !d.queueOk (.rill die e) bed r.outQ) ||
      (r.inQ != 0xFFFF && !(d.isBarrowQueue r.inQ && d.qfld r.inQ Ctx.bed == bed && !d.queueInError r.inQ)) ||
      (r.srcLoc == 7 && !r.empty && r.inQ == 0xFFFF) then 0x24
  else 0

/-! ### The walk (R239) -/

/-- The indices i1 to i4 of row `r` of the walk. -/
def RillDesc.index (r : RillDesc) (row : Nat) : List Nat :=
  let a := r.size 1
  let b := r.size 2
  let c := r.size 3
  [row % a, row / a % b, row / (a * b) % c, row / (a * b * c)]

/-- The byte offset of a row from its base address. -/
def rowOffset (ix : List Nat) (str : List Int) : Int :=
  (ix.zip str).foldl (fun s p => s + Int.ofNat p.1 * p.2) 0

/-- The address of a row at the source, and at the destination, modulo 2^64. -/
def RillDesc.srcRow (r : RillDesc) (row : Nat) : Nat :=
  ((Int.ofNat r.srcAddr + rowOffset (r.index row) r.srcStr) % (2 ^ 64 : Int)).toNat
def RillDesc.dstRow (r : RillDesc) (row : Nat) : Nat :=
  ((Int.ofNat r.dstAddr + rowOffset (r.index row) r.dstStr) % (2 ^ 64 : Int)).toNat

/-- Where the scale of element `i0` of a row lies, from the scale address (R240). -/
def scaleAt (base n row i0 : Nat) : Nat := (base + row * ((n + 31) / 32) + i0 / 32) % 2 ^ 64

/-- Byte offset of element `i` in a packed row, down to whole bytes, and the end of its last byte. -/
def eltStart (f : Fmt) (kind i : Nat) : Nat := if f = .longImage then i * imageBytes (kind == 2) else i * f.bits / 8
def eltEnd (f : Fmt) (kind i : Nat) : Nat :=
  if f = .longImage then (i + 1) * imageBytes (kind == 2) else ((i + 1) * f.bits + 7) / 8

/-- The delivery of a descriptor's conversions (R241). -/
def RillDesc.delivery (r : RillDesc) (b : BedCfg) : Delivery where
  fmt := r.fD
  tscale := r.dstTs
  rnd := (Rnd.ofCode r.rnd ((Rnd.ofCode b.round .nearest).getD .nearest)).getD .nearest
  ieee := (ieeeMode r.fD r.ovf b.ieee).getD false
  key := ⟨b.jobSeed, r.tensor, r.step⟩
  row0 := r.row0
  col0 := r.col0

end Machine
end Sys2Proof
end

