-- ==== Sys2Proof/Machine/RillMove.lean ====
section
/-! DEFINITION. How a rill moves a barrow's data (10 R232 to R243, R256, 08 R206, R207): translation and the checks of
each element's addresses, the rows that it reads, converts and writes, and the element at which it stops. -/
namespace Sys2Proof
namespace Machine

/-! ### Addresses (R71, R235, R236) -/

/-- Why an element stops the walk: an unrecoverable cause, with the die whose glasshouse refuses it; or a device-virtual address of
a side whose entry does not serve. -/
inductive RErr where
  | cause (c : Nat) (refuser : Option Nat)
  | page (addr : Nat) (write : Bool)
  deriving DecidableEq, Repr

/-- The translation table's address. -/
def Dev.vtBase (d : Dev) (die e : Nat) : Nat :=
  d.fld (.rill die e) Reg.RILL_VT_BASE_HI.BASE_HI * 2 ^ 32 + d.fld (.rill die e) Reg.RILL_VT_BASE_LO.BASE_LO * 2 ^ 12

/-- The entry of virtual page `v` as it lies in the table; an uncorrectable word holds no valid entry. -/
def Dev.vtTable (d : Dev) (die e v : Nat) : Nat :=
  let a := (d.vtBase die e + 8 * v) % 2 ^ 40
  if d.anyBad .hbm a 8 then 0 else leNat (d.readBytes .hbm a 8)

/-- The entry of virtual page `v` as the rill sees it: a cached translation stands until INVAL (R236). -/
def Dev.vtEntry (d : Dev) (die e v : Nat) : Nat :=
  match (d.rill die e).cache.find? (fun c => c.1 == v) with
  | some c => c.2
  | none => d.vtTable die e v

/-- The physical HBM address of an address of one side of a descriptor. -/
def Dev.rillPhys (d : Dev) (die e : Nat) (virt write : Bool) (a : Nat) : Except RErr Nat :=
  if !virt || !d.isSet (.rill die e) Reg.RILL_VT_BASE_LO.EN then .ok (a % 2 ^ 40)
  else
    let x := d.vtEntry die e (a % 2 ^ 40 / 2 ^ 21)
    if !x.testBit 0 || (write && !x.testBit 1) then .error (.page a write)
    else .ok (bitsOf x 39 21 * 2 ^ 21 + a % 2 ^ 21)

/-- The fault of an access to a physical HBM address by an engine of a bed: outside its regions or without permission,
unpopulated, or at a gated controller (R71, R235, 17 R413). -/
def Dev.hbmFault (d : Dev) (c : BedCfg) (write : Bool) (a : Nat) : Option Nat :=
  if !c.hbm.any (fun g => decide (g.base ≤ a ∧ a < g.base + g.size) && (if write then g.write else g.read)) then
    some Cause.partition
  else if 0x430000000 ≤ a % 2 ^ 35 then some Cause.unpopulated
  else if !d.clockOn (.hbmCtl (a / 2 ^ 37) (a / 2 ^ 36 % 2)) then some Cause.partition
  else none

/-- Offset `g` of a die's glasshouse lies in a region of the bed (03 R71). -/
def BedCfg.inGh (c : BedCfg) (die g : Nat) : Bool :=
  c.gh.any (fun r => r.die == die && decide (r.base * 65536 ≤ g ∧ g < (r.base + r.size) * 65536))

/-- The same at that offset (09 R230). -/
def Dev.ghFault (d : Dev) (c : BedCfg) (die g : Nat) : Option Nat :=
  if !c.inGh die g then some Cause.partition
  else if !d.clockOn (.gh die) then some Cause.partition
  else none

/-- The error of one byte's address at an endpoint; a barrow at a gate has none that a rill could read: it lies in no region of the
bed (R232; DESIGN CHOICE, entry 80). -/
def Dev.byteErr (d : Dev) (c : BedCfg) (die e loc : Nat) (virt write : Bool) (a : Nat) : Option RErr :=
  match loc with
  | 0 => match d.rillPhys die e virt write a with
    | .ok p => (d.hbmFault c write p).map (fun k => .cause k none)
    | .error x => some x
  | 1 => (d.ghFault c (bitsOf a 42 40) (a % 2 ^ 26)).map (fun k =>
      .cause k (if c.inGh (bitsOf a 42 40) (a % 2 ^ 26) then none else some (bitsOf a 42 40)))
  | 5 => if write then none else some (.cause Cause.partition none)
  | _ => none

/-- The error of the bytes from `lo` up to `hi`, by the first and the last: no boundary of a page or region lies
between two bytes of one element and neither of them. -/
def Dev.spanErr (d : Dev) (c : BedCfg) (die e loc : Nat) (virt write : Bool) (lo hi : Nat) : Option RErr :=
  match d.byteErr c die e loc virt write lo with
  | some x => some x
  | none => if lo + 1 < hi then d.byteErr c die e loc virt write (hi - 1) else none

/-! ### Rows -/

/-- A row of a barrow: its number in the walk, its elements, and the addresses of its elements and scales at source and
destination. -/
structure RowPlan where
  row    : Nat
  n      : Nat
  sAddr  : Nat
  sScale : Nat
  dAddr  : Nat
  dScale : Nat
  deriving DecidableEq, Repr

/-- What a barrow is to do: formats, the image kind, conversion, where the data comes from, and its rows. -/
structure Plan where
  fS   : Fmt
  fD   : Fmt
  kind : Nat
  conv : Bool
  sLoc : Nat
  rows : List RowPlan
  deriving DecidableEq, Repr

/-- The data of a row: its elements' bytes and its scales' bytes. -/
structure RowData where
  elts   : List Lane
  scales : List Lane
  deriving DecidableEq, Repr

/-- Whole elements in `len` bytes of elements followed by their scales; `none`: they do not hold whole elements. -/
def elemsIn (f : Fmt) (kind len : Nat) : Option Nat :=
  if f = .longImage then (if len % imageBytes (kind == 2) = 0 then some (len / imageBytes (kind == 2)) else none)
  else if f.blockScaled then
    let b := f.packedBytes 32 + 1
    let r := len % b
    if r = 0 then some (len / b * 32)
    else if 2 ≤ r ∧ (r - 1) * 8 % f.bits = 0 then some (len / b * 32 + (r - 1) * 8 / f.bits)
    else none
  else if len * 8 % f.bits = 0 then some (len * 8 / f.bits)
  else none

/-- The plan of barrow `b` of a descriptor; with SRC_LOC 7 that of its input barrow, whose bytes are copied as they are
unless CONVERT or TRANSPOSE asks for its elements (R243). -/
def RillDesc.plan (r : RillDesc) (b outBytes : Nat) (input : Option Barrow) : Plan :=
  if r.srcLoc = 7 then
    match input with
    | none => ⟨r.fS, r.fD, r.srcTs, r.convert, 7, []⟩
    | some x =>
      if r.convert || r.transpose then
        let n := (elemsIn r.fS r.srcTs x.length).getD 0
        ⟨r.fS, r.fD, r.srcTs, r.convert, x.loc,
          [⟨b, n, x.addr, x.addr + eltBytes r.fS r.srcTs n, (r.dstAddr + outBytes) % 2 ^ 64,
            scaleAt r.dstScale n b 0⟩]⟩
      else ⟨.e8m0, .e8m0, 0, false, x.loc, [⟨b, x.length, x.addr, 0, (r.dstAddr + outBytes) % 2 ^ 64, 0⟩]⟩
  else ⟨r.fS, r.fD, r.srcTs, r.convert, r.srcLoc,
    (List.range (r.rowsOf b)).map (fun i =>
      let row := r.firstRow b + i
      ⟨row, r.elems, r.srcRow row, scaleAt r.srcScale r.elems row 0, r.dstRow row,
        scaleAt r.dstScale r.elems row 0⟩)⟩

/-- The error of element `i` of a row: at its source, in its scale, at its destination, in the scale it goes under. An element
that completes a row's last block has no source. -/
def Dev.eltErr (d : Dev) (c : BedCfg) (die e : Nat) (r : RillDesc) (p : Plan) (w : RowPlan) (i : Nat) : Option RErr :=
  let s := d.spanErr c die e p.sLoc r.srcVirt false
  let t := d.spanErr c die e r.dstLoc r.dstVirt true
  let e1 := if w.n ≤ i then none else s (w.sAddr + eltStart p.fS p.kind i) (w.sAddr + eltEnd p.fS p.kind i)
  let e2 := if p.fS.blockScaled && decide (i < w.n) then s (w.sScale + i / 32) (w.sScale + i / 32 + 1) else none
  let e3 := t (w.dAddr + eltStart p.fD p.kind i) (w.dAddr + eltEnd p.fD p.kind i)
  let e4 := if p.fD.blockScaled then t (w.dScale + i / 32) (w.dScale + i / 32 + 1) else none
  match e1, e2, e3 with
  | some x, _, _ => some x
  | none, some x, _ => some x
  | none, none, some x => some x
  | none, none, none => e4

/-- Bytes of memory from an address on, as one side of the rill reads them. -/
def Dev.rillRead (d : Dev) (die e loc : Nat) (virt : Bool) (a n : Nat) : List Lane :=
  (List.range n).map (fun i =>
    match loc with
    | 0 => match d.rillPhys die e virt false (a + i) with
      | .ok p => d.readLane .hbm p
      | .error _ => Lane.ofByte 0#8
    | _ => d.readLane .gh (bitsOf (a + i) 42 40 * 2 ^ 26 + (a + i) % 2 ^ 26))

/-- The keys of the words that a rill reads there. -/
def Dev.rillWords (d : Dev) (die e loc : Nat) (virt : Bool) (a n : Nat) : List Nat :=
  if n = 0 then []
  else (List.range ((a + n - 1) / 8 - a / 8 + 1)).filterMap (fun i =>
    let x := a / 8 * 8 + 8 * i
    match loc with
    | 0 => (d.rillPhys die e virt false x).toOption.map Mem.hbm.word
    | 1 => some (Mem.gh.word (bitsOf x 42 40 * 2 ^ 26 + x % 2 ^ 26))
    | _ => none)

/-- Bytes of a stream's `n` elements from element `i` on, packed from a byte boundary. -/
def eltSlice (f : Fmt) (kind : Nat) (ls : List Lane) (i n : Nat) : List Lane :=
  if f = .longImage ∨ i * f.bits % 8 = 0 then (ls.drop (eltStart f kind i)).take (eltBytes f kind n)
  else
    let bs := laneBytes ls
    let bad := anyBadLane ((ls.drop (eltStart f kind i)).take (eltBytes f kind n + 1))
    (f.pack ((List.range n).map (fun j => f.elemAt (byteAt bs) (i + j)))).map
      (fun b => ⟨b, if bad then poison else 0#8, 8⟩)

/-- The rows of a tile of `m` rows in a bench stream, moving layout or stationary layout (R240). -/
def tileData (f : Fmt) (kind n m : Nat) (stat : Bool) (ls : List Lane) : List RowData :=
  let s := rowShape f n
  (List.range m).map (fun i =>
    if stat then
      let r := ls.drop (i * (s.ebytes + s.sbytes))
      ⟨r.take (eltBytes f kind n), (r.drop s.ebytes).take s.sbytes⟩
    else ⟨eltSlice f kind ls (i * s.elems) n, (ls.drop (f.packedBytes (s.elems * m) + i * s.sbytes)).take s.sbytes⟩)

/-- The rows of a bench stream of `k` rows, tile by tile of `t` rows. -/
def streamData (f : Fmt) (kind n t : Nat) (stat : Bool) : Nat → Nat → List Lane → List RowData
  | 0, _, _ => []
  | fuel + 1, k, ls =>
    if k = 0 then []
    else
      let m := if t = 0 then k else min t k
      tileData f kind n m stat ls ++
        streamData f kind n t stat fuel (k - m) (ls.drop (if stat then statBytes f n m else tileBytes f n m))

/-- The rows of a barrow's stream at a bench source. -/
def benchRows (p : Plan) (stat : Bool) (size1 : Nat) (ls : List Lane) : List RowData :=
  let n := match p.rows with | [] => 0 | w :: _ => w.n
  if p.fS.blockScaled || p.fS.tensorScaled then
    streamData p.fS p.kind n (if stat then size1 else 64) stat (p.rows.length + 1) p.rows.length ls
  else (List.range p.rows.length).map (fun i => ⟨eltSlice p.fS p.kind ls (i * n) n, []⟩)

/-- Bytes of the scales, and of elements and scales, of `n` elements read in memory; and of a row stored there. -/
def memScale (f : Fmt) (n : Nat) : Nat := if f.blockScaled then (n + 31) / 32 else 0
def memRow (f : Fmt) (kind n : Nat) : Nat := eltBytes f kind n + memScale f n
def memStored (f : Fmt) (kind n : Nat) : Nat := eltBytes f kind (storedElems f n) + memScale f n

/-- The rows of host data that have come in walk order, each its elements and then its scales. -/
def hostRows (p : Plan) : List RowPlan → List Lane → List RowData
  | [], _ => []
  | w :: ws, ls =>
    ⟨ls.take (eltBytes p.fS p.kind w.n), (ls.drop (eltBytes p.fS p.kind w.n)).take (memScale p.fS w.n)⟩ ::
      hostRows p ws (ls.drop (memRow p.fS p.kind w.n))

/-- The rows of a barrow at its source. The lanes are those of a bench stream or of host data. -/
def Dev.sourceRows (d : Dev) (die e : Nat) (r : RillDesc) (p : Plan) (ls : List Lane) : List RowData :=
  match p.sLoc with
  | 2 =>
    if r.srcLoc = 7 then p.rows.map (fun w => ⟨ls.take (eltBytes p.fS p.kind w.n),
      (ls.drop (eltBytes p.fS p.kind w.n)).take (memScale p.fS w.n)⟩)
    else benchRows p r.stat (r.size 1) ls
  | 3 => hostRows p p.rows ls
  | 6 => p.rows.map (fun w => ⟨lanesOf (List.replicate (eltBytes p.fD p.kind w.n) 0#8),
      lanesOf (List.replicate (memScale p.fD w.n) 0x7F#8)⟩)
  | l => p.rows.map (fun w => ⟨d.rillRead die e l r.srcVirt w.sAddr (eltBytes p.fS p.kind w.n),
      d.rillRead die e l r.srcVirt w.sScale (memScale p.fS w.n)⟩)

/-! ### Conversion -/

/-- The row converts: CONVERT from a source that has elements. -/
def Plan.converts (p : Plan) : Bool := p.conv && p.sLoc != 6

/-- Element `i` of a row meets a conversion with an uncorrectable word (R241). -/
def RowData.eltBad (x : RowData) (f : Fmt) (kind i : Nat) : Bool :=
  anyBadLane ((x.elts.drop (eltStart f kind i)).take (eltEnd f kind i - eltStart f kind i)) ||
    (f.blockScaled && anyBadLane ((x.scales.drop (i / 32)).take 1))

/-- The exact values of a row's first `n` elements. -/
def RowData.vals (x : RowData) (f : Fmt) (ts n : Nat) : List Val :=
  let bs := laneBytes x.elts
  let ss := laneBytes x.scales
  (List.range n).map (fun i =>
    let v := f.elem bs i
    if f.blockScaled then v.underScale (byteAt ss (i / 32)).toNat
    else if f.tensorScaled then v.underScale ts
    else v)

/-- The first element of a row, from `i` on, that stops the walk. -/
def Dev.rowStop (d : Dev) (c : BedCfg) (die e : Nat) (r : RillDesc) (p : Plan) (w : RowPlan) (x : RowData) :
    Nat → Nat → Option (Nat × RErr)
  | _, 0 => none
  | i, k + 1 =>
    match d.eltErr c die e r p w i with
    | some z => some (i, z)
    | none =>
      if p.converts && decide (i < w.n) && x.eltBad p.fS p.kind i then some (i, .cause Cause.ueConvert none)
      else Dev.rowStop d c die e r p w x (i + 1) k

/-- Lanes completed with zeros, or cut, to `n`. -/
def fitLanes (n : Nat) (ls : List Lane) : List Lane := (ls ++ lanesOf (List.replicate (n - ls.length) 0#8)).take n

/-- The elements of a row at its destination: those of memory complete its last block (R123). -/
def RillDesc.outElems (r : RillDesc) (p : Plan) (w : RowPlan) : Nat := if isMemLoc r.dstLoc then storedElems p.fD w.n else w.n

/-- A row as it goes to its destination, its first `n` elements: data, and the flags of its conversions. -/
def outRow (r : RillDesc) (c : BedCfg) (p : Plan) (w : RowPlan) (x : RowData) (n : Nat) : RowData × FlagSet :=
  if p.converts then
    let y := (r.delivery c).row w.row (x.vals p.fS r.srcTs (min n w.n))
    (⟨lanesOf (p.fD.pack (y.1.take n)), lanesOf (y.2.1.map (fun s => BitVec.ofNat 8 s))⟩, y.2.2)
  else (⟨fitLanes (eltBytes p.fD p.kind n) (x.elts.take (eltBytes p.fD p.kind (min n w.n))), x.scales.take (memScale p.fD n)⟩, 0#5)

/-! ### Writing -/

/-- Bytes are written at a physical or virtual address of the destination side, page by page; `fuel` bounds the pages. -/
def Dev.rillWriteFuel (die e : Nat) (virt : Bool) : Nat → Dev → Nat → List Lane → Dev
  | 0, d, _, _ => d
  | fuel + 1, d, a, ls =>
    if ls.isEmpty then d
    else
      let n := 2 ^ 21 - a % 2 ^ 21
      let d1 := match d.rillPhys die e virt true a with
        | .ok p => (d.sendLanes (d.bedOfAgent (.rill die e)) (.die die (Router.ofRill e)) (p / 2 ^ 37) p (ls.take n)).writeLanes
          .hbm p (ls.take n)
        | .error _ => d
      Dev.rillWriteFuel die e virt fuel d1 (a + n) (ls.drop n)

/-- What a write to the host or to a gate carries. -/
structure Sent where
  addr : Nat
  data : List Lane
  deriving DecidableEq, Repr

/-- Bytes written at a memory destination: stored in HBM or glasshouse; for a host or a gate, kept to be sent. -/
def Dev.rillStore (d : Dev) (die e : Nat) (r : RillDesc) (a : Nat) (ls : List Lane) : Dev × List Sent :=
  match r.dstLoc with
  | 0 => (Dev.rillWriteFuel die e r.dstVirt (ls.length / 2 ^ 21 + 2) d a ls, [])
  | 1 => ((d.sendLanes (d.bedOfAgent (.rill die e)) (.die die (Router.ofRill e)) (bitsOf a 42 40) a ls).writeLanes
      .gh (bitsOf a 42 40 * 2 ^ 26 + a % 2 ^ 26) ls, [])
  | _ => (d, if ls.isEmpty then [] else [⟨a, ls⟩])

/-- A row's data is written at a memory destination from element `i0` on. -/
def Dev.storeRow (d : Dev) (die e : Nat) (r : RillDesc) (p : Plan) (w : RowPlan) (x : RowData) (i0 : Nat) :
    Dev × List Sent :=
  let s := eltStart p.fD p.kind i0
  let a := d.rillStore die e r (w.dAddr + s) (x.elts.drop s)
  let b := a.1.rillStore die e r (w.dScale + i0 / 32) (x.scales.drop (i0 / 32))
  (b.1, a.2 ++ b.2)

/-- The walk of a barrow so far: the device, flags, what is to be sent, and the row and element at which it stopped. -/
structure Walk where
  dev   : Dev
  flags : FlagSet
  sent  : List Sent
  stop  : Option (Nat × Nat × RErr)
  deriving DecidableEq, Repr

/-- The element before which a row is complete: down to its block where the destination is block-scaled (R256). -/
def cutAt (f : Fmt) (i : Nat) : Nat := if f.blockScaled then i / 32 * 32 else i

/-- The element that stops row `row`: what stops it, or before that the place where a host translation does. -/
def stopAt (until_ : Option (Nat × Nat)) (row : Nat) (z : Option (Nat × RErr)) : Option (Nat × RErr) :=
  match z, until_ with
  | some z, some u => if u.1 = row ∧ u.2 ≤ z.1 then some (u.2, RErr.page (2 ^ 64) false) else some z
  | some z, none => some z
  | none, some u => if u.1 = row then some (u.2, RErr.page (2 ^ 64) false) else none
  | none, none => none

/-- The rows of a barrow are delivered to a memory destination in walk order until an element stops (R239, R256). `from_`
is the first row and element of it that is still to be written; `until` a row and element at which a host translation
stops the walk. -/
def Dev.walkRows (c : BedCfg) (die e : Nat) (r : RillDesc) (p : Plan) (from_ : Nat × Nat) (until_ : Option (Nat × Nat)) :
    Dev → FlagSet → List Sent → List (RowPlan × RowData) → Walk
  | d, fl, ss, [] => ⟨d, fl, ss, none⟩
  | d, fl, ss, (w, x) :: rest =>
    if w.row < from_.1 then Dev.walkRows c die e r p from_ until_ d fl ss rest
    else
      let i0 := if w.row = from_.1 then from_.2 else 0
      let stop := stopAt until_ w.row (d.rowStop c die e r p w x i0 (r.outElems p w - i0))
      let n := match stop with | some z => cutAt p.fD z.1 | none => r.outElems p w
      let y := outRow r c p w x n
      let st := if i0 < n then d.storeRow die e r p w y.1 i0 else (d, [])
      match stop with
      | some z => ⟨st.1, fl ||| y.2, ss ++ st.2, some (w.row, cutAt p.fD z.1, z.2)⟩
      | none => Dev.walkRows c die e r p from_ until_ st.1 (fl ||| y.2) (ss ++ st.2) rest

/-- The first row and element of a barrow from `from_` on whose source stops the walk, for a bench destination. -/
def Dev.firstStop (d : Dev) (c : BedCfg) (die e : Nat) (r : RillDesc) (p : Plan) (from_ : Nat × Nat) (until_ : Option (Nat × Nat)) :
    List (RowPlan × RowData) → Option (Nat × Nat × RErr)
  | [] => none
  | (w, x) :: rest =>
    let i0 := if w.row = from_.1 then from_.2 else 0
    match (if w.row < from_.1 then none else stopAt until_ w.row (d.rowStop c die e r p w x i0 (w.n - i0))) with
    | some z => some (w.row, cutAt p.fD z.1, z.2)
    | none => Dev.firstStop d c die e r p from_ until_ rest

/-! ### Bench streams at the destination -/

/-- The stream of copied rows at a bench: tiles of 64 rows, or of SIZE1 rows in the stationary layout (R240). -/
def copyStream (f : Fmt) (kind n : Nat) (stat : Bool) (size1 : Nat) (rows : List RowData) : List Lane :=
  let s := rowShape f n
  if f.blockScaled || f.tensorScaled then
    (chunks (if stat then max 1 size1 else 64) rows).flatMap (fun t =>
      if stat then fitLanes (statBytes f n t.length) (t.flatMap (fun x => fitLanes s.ebytes x.elts ++ fitLanes s.sbytes x.scales))
      else
        let e := if s.elems * f.bits % 8 = 0 then t.flatMap (fun x => fitLanes s.ebytes x.elts) else []
        fitLanes (tileBytes f n t.length) (fitLanes (f.packedBytes (s.elems * t.length)) e ++
          t.flatMap (fun x => fitLanes s.sbytes x.scales)))
  else
    let b := rows.flatMap (fun x => fitLanes (eltBytes f kind n) x.elts)
    fitLanes (round64 b.length) b

/-- The stream of converted rows, with their flags. -/
def convStream (y : Delivery) (n : Nat) (stat : Bool) (size1 : Nat) (rows : List (Nat × List Val)) :
    List Lane × FlagSet :=
  let f := y.fmt
  let s := rowShape f n
  let rs := rows.map (fun p => y.row p.1 p.2)
  let bytes :=
    if f.blockScaled || f.tensorScaled then
      if stat then
        (chunks (max 1 size1) rs).flatMap (fun t => padTo (statBytes f n t.length) (t.flatMap (fun x =>
          padTo s.ebytes (f.pack x.1) ++ padTo s.sbytes (x.2.1.map (fun b => BitVec.ofNat 8 b)))))
      else packTiles f 64 rs
    else
      let b := f.pack (rs.flatMap (fun x => x.1))
      padTo (round64 b.length) b
  (lanesOf bytes, rowFlags rs)

/-- The stream of a barrow at a bench destination. -/
def destStream (r : RillDesc) (c : BedCfg) (p : Plan) (rows : List (RowPlan × RowData)) (src : List Lane) :
    List Lane × FlagSet :=
  let n := match p.rows with | [] => 0 | w :: _ => w.n
  if p.converts then
    convStream (r.delivery c) n r.stat (r.size 1) (rows.map (fun x => (x.1.row, x.2.vals p.fS r.srcTs x.1.n)))
  else if p.sLoc = 2 then (fitLanes (round64 src.length) src, 0#5)
  else (copyStream p.fD p.kind n r.stat (r.size 1) (rows.map (fun x => x.2)), 0#5)

/-- A row as marks: the bytes that its first `n` elements lie in, or, rounding `down`, those that lie in no later one. -/
def markRow (f : Fmt) (kind n : Nat) (down : Bool) : RowData :=
  let one (k : Nat) : List Lane := List.replicate k (Lane.ofByte 1#8)
  ⟨one (if n = 0 then 0 else if down then eltStart f kind n else eltEnd f kind (n - 1)), one (memScale f n)⟩

/-- The bytes of a bench stream that hold the elements before a place in the walk, none of its padding. -/
def doneMarks (r : RillDesc) (p : Plan) (at_ : Nat × Nat) (down : Bool) : List Bool :=
  let n := match p.rows with | [] => 0 | w :: _ => w.n
  (copyStream p.fD p.kind n r.stat (r.size 1) (p.rows.map (fun w =>
    if w.row < at_.1 then markRow p.fD p.kind w.n down else if w.row = at_.1 then markRow p.fD p.kind at_.2 down
    else ⟨[], []⟩))).map (fun l => l.val != 0#8)

/-- The elements of a row that lie from one place in the walk up to another: the first, and the one after the last. -/
def RowPlan.part (w : RowPlan) (from_ to_ : Nat × Nat) : Nat × Nat :=
  (if w.row < from_.1 then w.n else if w.row = from_.1 then from_.2 else 0,
    if w.row < to_.1 then w.n else if w.row = to_.1 then min w.n to_.2 else 0)

/-- Lanes with zeros in the place of the first `a` and of all from `b` on. -/
def keepLanes (a b : Nat) (ls : List Lane) : List Lane :=
  ((List.range ls.length).zip ls).map (fun x => if a ≤ x.1 ∧ x.1 < b then x.2 else Lane.ofByte 0#8)

/-- The data of rows with +0 elements outside a stretch of the walk. -/
def rowsBetween (p : Plan) (from_ to_ : Nat × Nat) (rows : List (RowPlan × RowData)) : List (RowPlan × RowData) :=
  rows.map (fun y =>
    let k := y.1.part from_ to_
    (y.1, if k.1 < k.2 then
        ⟨keepLanes (eltStart p.fS p.kind k.1) (eltEnd p.fS p.kind (k.2 - 1)) y.2.elts,
          keepLanes (k.1 / 32) ((k.2 + 31) / 32) y.2.scales⟩
      else ⟨keepLanes 0 0 y.2.elts, keepLanes 0 0 y.2.scales⟩))

/-- Bytes of a list with the place of each that a mark selects, in runs: (place, bytes). -/
def runsOf : Nat → List (Lane × Bool) → List (Nat × List Lane)
  | _, [] => []
  | k, (l, m) :: rest =>
    match runsOf (k + 1) rest with
    | (k', ls) :: more => if !m then (k', ls) :: more else if k' = k + 1 then (k, l :: ls) :: more else (k, [l]) :: (k', ls) :: more
    | [] => if m then [(k, [l])] else []

/-! ### Transposition (08 R206, R207) -/

/-- The element `j` of a row in the destination format, with the scale it lies under (0x7F outside a block format) and
the mark of an uncorrectable word; beyond the row's end +0. -/
structure Cell where
  code  : Nat
  scale : Nat
  bad   : Bool
  deriving DecidableEq, Repr

/-- An element of a source row. -/
def RowData.cell (x : RowData) (f : Fmt) (kind n j : Nat) : Cell :=
  if n ≤ j then ⟨f.zeroCode false, 0x7F, false⟩
  else ⟨f.elemAt (byteAt (laneBytes x.elts)) j,
    if f.blockScaled then (byteAt (laneBytes x.scales) (j / 32)).toNat else 0x7F, x.eltBad f kind j⟩

/-- Vector `q` of a block: elements r·q to r·q + r − 1 of each of its 64 source rows in row order. -/
def turnVector (f : Fmt) (kind n rate col q : Nat) (rows : List RowData) : List Cell :=
  (List.range 64).flatMap (fun i => (List.range rate).map (fun k =>
    match rows[i]? with
    | some x => x.cell f kind n (col + rate * q + k)
    | none => ⟨f.zeroCode false, 0x7F, false⟩))

/-- The bytes of a block's 64 vectors, with the flags of re-blocking; vector `q` is vector `v0 + q` of the stream. -/
def turnBlock (f : Fmt) (rnd : Rnd) (key : DrawKey) (v0 : Nat) (vs : List (List Cell)) : List Lane × FlagSet :=
  if f.blockScaled then
    let y : Delivery := ⟨f, 0x7F, rnd, false, key, v0, 0⟩
    let rs := ((List.range vs.length).zip vs).map (fun p => y.row p.1 (p.2.map (fun c => (f.decode c.code).underScale c.scale)))
    (lanesOf (packTile f rs), rowFlags rs)
  else
    let cs := vs.flatMap (fun v => v)
    let bs := f.pack (cs.map (fun c => c.code))
    let marked := ((List.range bs.length).zip bs).map (fun p =>
      let lo := p.1 * 8 / f.bits
      let hi := (p.1 * 8 + 8 + f.bits - 1) / f.bits
      (⟨p.2, if ((cs.drop lo).take (hi - lo)).any (fun c => c.bad) then poison else 0#8, 8⟩ : Lane))
    (fitLanes (round64 marked.length) marked, 0#5)

end Machine
end Sys2Proof
end

