-- ==== Sys2Proof/Machine/RillOps.lean ====
section
/-! DEFINITION. What a rill does with its descriptor, barrow by barrow (10 R243 to R262): what it needs, what it sends,
how it stops, and what it posts. -/
namespace Sys2Proof
namespace Machine

/-! ### The barrow in hand -/

/-- The descriptor of a run, and the plan of its present barrow. -/
def RillRun.fields (x : RillRun) : RillDesc := RillDesc.ofBytes x.desc
def RillRun.plan (x : RillRun) : Plan := x.fields.plan x.barrow x.outBytes (x.input.map (fun t => t.barrow))

/-- Why the barrow in hand is to be posted as POISONED (R248, R260). -/
def RillRun.bad (x : RillRun) : Option Nat := x.poison.or x.tainted

/-- Where the barrow in hand goes on in the walk, and where it begins and ends. -/
def RillRun.place (x : RillRun) : Nat × Nat := (x.doneRow, x.doneI0)
def RillRun.top (x : RillRun) : Nat × Nat := (x.fields.firstRow x.barrow, 0)
def RillRun.bottom (x : RillRun) : Nat × Nat := (x.fields.firstRow x.barrow + x.plan.rows.length, 0)

/-- Nothing of the barrow in hand has been delivered. -/
def RillRun.fresh (x : RillRun) : Bool := decide (x.doneRow < x.top.1) || x.place == x.top

/-- Reading of the barrow in hand has begun. -/
def RillRun.begun (x : RillRun) : Bool := x.asked || x.sent || decide (0 < x.blocks) || !x.fresh

/-- The number of a queue field; `none`: 0xFFFF. -/
def queueOf (q : Nat) : Option Nat := if q = 0xFFFF then none else some q

/-- Elements in a row of a plan. -/
def Plan.n (p : Plan) : Nat := match p.rows with | [] => 0 | w :: _ => w.n

/-- Transposition blocks of a plan (08 R206). -/
def Plan.colBlocks (p : Plan) (r : RillDesc) (exact : Bool) : Nat := ceilDiv p.n (r.turnElems exact)
def Plan.blocks (p : Plan) (r : RillDesc) (exact : Bool) : Nat := ceilDiv p.rows.length 64 * p.colBlocks r exact

/-- Bytes of one transposed block at its destination. -/
def RillDesc.turnBytes (r : RillDesc) (exact : Bool) : Nat := streamBytes r.fD (r.turnElems exact) 64 64

/-- Bytes of a plan at a bench destination, at a bench source, and as LENGTH of its barrow (Table 10.7). -/
def Plan.dstStream (p : Plan) (r : RillDesc) (exact : Bool) : Nat :=
  if r.transpose then p.blocks r exact * r.turnBytes exact
  else streamLen p.fD p.kind p.n p.rows.length r.stat (r.size 1)
def Plan.srcStream (p : Plan) (r : RillDesc) : Nat :=
  if r.srcLoc = 7 then round64 (p.rows.foldl (fun s w => s + memRow p.fS p.kind w.n) 0)
  else streamLen p.fS p.kind p.n p.rows.length r.stat (r.size 1)
def Plan.length (p : Plan) (r : RillDesc) (exact : Bool) : Nat :=
  if isBenchLoc r.dstLoc then p.dstStream r exact
  else p.rows.foldl (fun s w => s + memStored p.fD p.kind w.n) 0

/-- The configuration of a run's bed. -/
def Dev.runCfg (d : Dev) (x : RillRun) : BedCfg :=
  match d.bed x.bed with
  | some b => b.cfg
  | none => ⟨0, [], [], false, false, false, 0, false, 0#64, 0, [], [], 0, 0, 0, [], [], 0, []⟩

/-- The furrow that a bench or turnstile address names: die, plot and furrow (R238). -/
def Dev.furOfAddr (d : Dev) (a : Nat) : Option (Nat × Nat × Nat) :=
  (d.physOf (bitsOf a 56 48)).map (fun p => (p.1, p.2, bitsOf a 36 32))

/-- The address of the bench that a run reads: its descriptor's, or its input barrow's. -/
def RillRun.srcBench (x : RillRun) : Nat :=
  if x.fields.srcLoc = 7 then (match x.input with | some t => t.barrow.addr | none => 0) else x.fields.srcAddr

/-- The run has what its barrow begins with: its input barrow, where it takes one (R243). -/
def RillRun.hasInput (x : RillRun) : Bool := x.fields.inQ == 0xFFFF || x.input.isSome

/-- The claims that the barrow in hand still needs at the bench it reads and the bench it writes. -/
def Dev.rillAccesses (d : Dev) (die e : Nat) (x : RillRun) : List BenchAccess :=
  let r := x.fields
  let p := x.plan
  let at_ (a : Nat) (write : Bool) (n : Nat) : List BenchAccess :=
    match d.furOfAddr a with
    | some f => if n = 0 then [] else [⟨.rill die e, f.1, f.2.1, f.2.2, 3, write, n⟩]
    | none => []
  if x.bad.isSome || r.empty || !x.hasInput then []
  else (if p.sLoc = 2 ∧ x.srcAt = none then at_ x.srcBench false (p.srcStream r) else []) ++
    (if isBenchLoc r.dstLoc ∧ x.dstAt = none then at_ r.dstAddr true (p.dstStream r (d.runCfg x).exact) else [])

/-- The barrow in hand has its input, its slot and its claims, and no request of it is lost. -/
def Dev.rillReady (d : Dev) (die e : Nat) (x : RillRun) : Bool :=
  x.hasInput && (x.fields.outQ == 0xFFFF || x.claimed.isSome) && (d.rillAccesses die e x).isEmpty &&
    !d.lost.contains (.rill die e)

/-- Bytes that the barrow reads from the host, and whether they are here. -/
def RillRun.hostBytes (x : RillRun) : Nat :=
  if x.plan.sLoc = 3 then x.plan.rows.foldl (fun s w => s + memRow x.plan.fS x.plan.kind w.n) 0 else 0
def RillRun.hostHere (x : RillRun) : Bool := decide (x.hostBytes ≤ x.hostIn.length)

/-- The lanes that the barrow's bench source or host delivers. -/
def Dev.rillLanes (d : Dev) (x : RillRun) : List Lane :=
  if x.plan.sLoc = 3 then x.hostIn
  else if x.plan.sLoc = 2 then
    match x.srcAt, d.furOfAddr x.srcBench with
    | some c, some f => d.furLanes f.1 f.2.1 f.2.2 c (x.plan.srcStream x.fields)
    | _, _ => []
  else []

/-- The rows of the barrow with their data. -/
def Dev.rillRows (d : Dev) (die e : Nat) (x : RillRun) : List (RowPlan × RowData) :=
  x.plan.rows.zip (d.sourceRows die e x.fields x.plan (d.rillLanes x))

/-- The words that the barrow reads from one place in the walk up to another are met by their checkers (18 R418); those of a
bench stream as its first element is read, when its lines cross the lattice port. -/
def Dev.noteReads (d : Dev) (die e : Nat) (x : RillRun) (from_ to_ : Nat × Nat) : Dev :=
  let r := x.fields
  let p := x.plan
  let note (d : Dev) (ks : List Nat) : Dev := d.noteFrom x.bed (.die die (Router.ofRill e)) ks
  match p.sLoc with
  | 2 => match x.srcAt, d.furOfAddr x.srcBench with
    | some c, some f =>
      if x.fresh && to_ != x.top then
        (note d (d.furWords f.1 f.2.1 f.2.2 c (p.srcStream r))).useLines f.1 f.2.1 f.2.2 c (p.srcStream r) clsLattice false
      else d
    | _, _ => d
  | 0 | 1 => note d (p.rows.flatMap (fun w =>
      let k := w.part from_ to_
      let s := eltStart p.fS p.kind k.1
      if k.1 < k.2 then
        d.rillWords die e p.sLoc r.srcVirt (w.sAddr + s) (eltEnd p.fS p.kind (k.2 - 1) - s) ++
          d.rillWords die e p.sLoc r.srcVirt (w.sScale + k.1 / 32) (memScale p.fS k.2 - k.1 / 32)
      else []))
  | _ => d

/-- The virtual pages that the barrow translated are cached, at most 64, the oldest leaving first (R236; DESIGN CHOICE,
entry 21). -/
def Dev.cachePages (d : Dev) (die e : Nat) (x : RillRun) : Dev :=
  let r := x.fields
  let p := x.plan
  let pages (virt : Bool) (loc a n : Nat) : List Nat :=
    if virt && loc == 0 && n != 0 then [a % 2 ^ 40 / 2 ^ 21, (a + n - 1) % 2 ^ 40 / 2 ^ 21] else []
  let vs := (p.rows.flatMap (fun w => pages r.srcVirt p.sLoc w.sAddr (eltBytes p.fS p.kind w.n) ++
    pages r.dstVirt r.dstLoc w.dAddr (eltBytes p.fD p.kind w.n))).eraseDups
  let s := d.rill die e
  let new := vs.filter (fun v => !s.cache.any (fun c => c.1 == v) && (d.vtTable die e v).testBit 0)
  let all := s.cache ++ new.map (fun v => (v, d.vtTable die e v))
  if d.isSet (.rill die e) Reg.RILL_VT_BASE_LO.EN then d.setRill die e { s with cache := all.drop (all.length - 64) } else d

/-! ### Faults -/

/-- A rill's run after `g`. -/
def Dev.modRun (d : Dev) (die e : Nat) (g : RillRun → RillRun) : Dev :=
  let s := d.rill die e
  match s.run with
  | some x => d.setRill die e { s with run := some (g x) }
  | none => d

/-- The indices of an element in RILL_CURSOR_0 to 4: at the start of its block for MX and BS24, of its 64-row block under
TRANSPOSE (R256). -/
def Dev.setCursor (d : Dev) (die e : Nat) (x : RillRun) (row i0 : Nat) : Dev :=
  let b := Blk.rill die e
  let r := x.fields
  let top := r.firstRow x.barrow
  let row := if r.transpose then top + (row - top) / 64 * 64 else row
  let ix := r.index row
  (List.range 4).foldl (fun d k => d.setFldI b Reg.RILL_CURSOR.INDEX (k + 1) (ix.getD k 0))
    (d.setFldI b Reg.RILL_CURSOR.INDEX 0 (cutAt x.plan.fD i0))

/-- An unrecoverable fault: this and every later barrow are to be posted as POISONED, OUT_QUEUE enters ERROR; without one
the descriptor ends and the bed halts (R260, R482). -/
def Dev.rillUnrecov (d : Dev) (die e cause : Nat) : Dev :=
  match (d.rill die e).run with
  | none => d
  | some x =>
    let b := Blk.rill die e
    let d1 := (((d.setFld b Reg.RILL_STS.CAUSE cause).setFld b Reg.RILL_STS.UNRECOV 1).setFld b Reg.RILL_STS.STATE 1).modRun
      die e (fun y => { y with poison := some cause, fault := none })
    let d2 := if x.sent then d1 else d1.dropRequests (.rill die e)
    match queueOf x.fields.outQ with
    | some q => d2.queueError q cause
    | none =>
      let d3 := match x.input with | some t => (d2.releaseSlot t).1 | none => d2
      (((d3.setRill die e { d3.rill die e with run := none }).setFld b Reg.RILL_STS.STATE 0).retireItem x.seq).haltBed x.bed 3

/-- The glasshouse that refuses an access counts it (09 R230). -/
def Dev.countRefused (d : Dev) (die : Option Nat) : Dev :=
  match die with
  | some i => d.countSat (.gh i) Reg.GH_REFUSED_CNT.COUNT 1
  | none => d

/-- The walk of a rill stops for good at an element, which the cursor then names (R260; entry 36). -/
def Dev.rillStops (d : Dev) (die e : Nat) (x : RillRun) (z : Nat × Nat × RErr) : Dev :=
  match z.2.2 with
  | .cause c refuser => ((d.countRefused refuser).setCursor die e x z.1 z.2.1).rillUnrecov die e c
  | .page _ _ => d

/-- The input barrow that reading is to begin from no longer lies in its slot: the fault STALE (R249). -/
def Dev.inputStale (d : Dev) (x : RillRun) : Bool := !x.begun && x.input.any (fun t => !d.takenFresh t)

/-! ### Sending to the host and to gates -/

/-- A PASID as a request carries it; 2^20 without one. -/
def RillDesc.pasidArg (r : RillDesc) : Nat := if r.pasidEn then r.pasid else 2 ^ 20

/-- Consecutive pieces of data that join, up to a greatest length. -/
def joinSent (most : Nat) : List Sent → List Sent
  | [] => []
  | s :: rest => match joinSent most rest with
    | [] => [s]
    | u :: us => if s.addr + s.data.length = u.addr ∧ s.data.length + u.data.length ≤ most then
        ⟨s.addr, s.data ++ u.data⟩ :: us else s :: u :: us

/-- The reads of `n` bytes of host memory from an address on, of at most 512 bytes each (15 R358). -/
def hostReads (port pasid a n : Nat) : List Out :=
  (List.range (ceilDiv n 512)).map (fun i => .pcieRead port pasid (a + 512 * i) (min 512 (n - 512 * i)))

/-- Pieces of data no longer than a length. -/
def splitSent (most : Nat) (ss : List Sent) : List Sent :=
  ss.flatMap (fun s => ((List.range (ceilDiv s.data.length most)).zip (pieces most (ceilDiv s.data.length most) s.data)).map
    (fun p => ⟨s.addr + p.1 * most, p.2⟩))

/-- Host writes leave through the descriptor's PCIe port, an uncorrectable word marked EP (R246, 15 R362). -/
def Dev.sendHost (d : Dev) (r : RillDesc) (ss : List Sent) : Dev :=
  d.emit ((splitSent 512 ss).map (fun s => .pcieWrite r.port r.pasidArg s.addr (laneBytes s.data) (anyBadLane s.data)))

/-- The writer epoch of a bed as a lodge holds it (14 R351). -/
def Dev.wepoch (d : Dev) (l bed : Nat) : Nat :=
  if l = 0 then d.fldI (.obotil 0) Reg.OB_WEPOCH.EPOCH bed else Tbl.get (fun _ => 0) d.wepochs bed

/-- OB_GATE_LAST of the writer side (14 R340, R349). -/
def Dev.gateLast (d : Dev) (reason gate dev : Nat) : Dev :=
  ((d.setFld (.obotil 0) Reg.OB_GATE_LAST.REASON reason).setFld (.obotil 0) Reg.OB_GATE_LAST.GATE gate).setFld (.obotil 0)
    Reg.OB_GATE_LAST.DEV dev

/-- Gate writes are built and queued one message after another; one with an uncorrectable word is not sent and one whose
destination has no route is not either, and each ends the transfer (14 R339, R340, 18 R417). -/
def Dev.sendGate (die e bed : Nat) : List Sent → Dev → Dev
  | [], d => d
  | s :: rest, d =>
    let dev := bitsOf s.addr 63 48
    let gate := bitsOf s.addr 43 32
    if anyBadLane s.data then d.rillUnrecov die e Cause.ueConvert
    else match d.route dev with
      | none => (d.gateLast 0xF gate dev).rillUnrecov die e Cause.gateClosed
      | some p =>
        let h : MsgHead := ⟨Msg.write, dev, d.devId, gate, s.data.length, d.wepoch (p / 4) bed, s.addr % 2 ^ 32,
          d.msgId % 2 ^ 32, 0⟩
        let d1 := { d.queueMsg p h [] (laneBytes s.data) with msgId := d.msgId + 1 }
        Dev.sendGate die e bed rest (d1.modRun die e (fun y => { y with tags := y.tags ++ [h.wtag] }))

/-! ### Delivery -/

/-- How far a barrow is read where its walk stops: the block with an uncorrectable word is read (R241). -/
def readTo (p : Plan) (z : Nat × Nat × RErr) : Nat × Nat :=
  match z.2.2 with
  | .cause c _ => (z.1, z.2.1 + if c = Cause.ueConvert then (if p.fD.blockScaled then 32 else 1) else 0)
  | .page _ _ => (z.1, z.2.1)

/-- Bytes of a barrow's stream go to its range of a furrow where marks select them. -/
def Dev.rillWriteBench (d : Dev) (die e : Nat) (x : RillRun) (f : Nat × Nat × Nat) (at_ : Nat) (ls : List Lane)
    (marks : List Bool) : Dev :=
  (runsOf 0 (ls.zip marks)).foldl (fun d s =>
    ((d.sendLanes x.bed (.die die (Router.ofRill e)) f.1 (at_ + s.1) s.2).furWrite f.1 f.2.1 f.2.2 (at_ + s.1) s.2).useLines
      f.1 f.2.1 f.2.2 (at_ + s.1) s.2.length clsLattice true) d

/-- The lines of a range all of whose bytes are marked. -/
def linesDone (at_ : Nat) (marks : List Bool) : List Nat :=
  ((List.range (marks.length / 64)).filter (fun l => ((marks.drop (64 * l)).take 64).all id)).map (fun l => at_ / 64 + l)

/-- Marks cut, or completed with unmarked bytes, to `n`. -/
def fitMarks (n : Nat) (ms : List Bool) : List Bool := (ms ++ List.replicate (n - ms.length) false).take n

/-- The barrow in hand is delivered to its range of a bench furrow from its place in the walk up to a stop, or to its end; the lines
that this completes are filled, those of a rill's own range as its barrow is complete, of a turnstile's each at once (R256, R259, 09
Table 9.4). -/
def Dev.deliverBench (d : Dev) (die e : Nat) (x : RillRun) (rows : List (RowPlan × RowData)) (f : Nat × Nat × Nat) (at_ : Nat)
    (stop : Option (Nat × Nat)) : Dev × FlagSet :=
  let r := x.fields
  let p := x.plan
  let y := destStream r (d.runCfg x) p (rowsBetween p x.place (stop.getD x.bottom) rows) (d.rillLanes x)
  let ls := fitLanes (round64 y.1.length) y.1
  let before := fitMarks ls.length (doneMarks r p x.place true)
  let upTo := match stop with
    | some z => fitMarks ls.length (doneMarks r p z false)
    | none => List.replicate ls.length true
  let d1 := d.rillWriteBench die e x f at_ ls (List.zipWith (fun a b => b && !a) before upTo)
  (if r.dstLoc = 4 ∨ stop = none then d1.modFur f.1 f.2.1 f.2.2 (fun g => g.fillLines (linesDone at_ upTo)) else d1, y.2)

/-- The barrow in hand is delivered from its place in the walk on, as far as it can: until an element stops the walk, or at the
element `until_` where a host access fails; with that element and why (R239, R256). -/
def Dev.rillDeliver (d : Dev) (die e : Nat) (x : RillRun) (until_ : Option (Nat × Nat)) : Dev × Option (Nat × Nat × RErr) :=
  let r := x.fields
  let p := x.plan
  let c := d.runCfg x
  let rows := d.rillRows die e x
  let read (d : Dev) (z : Option (Nat × Nat × RErr)) : Dev :=
    (d.noteReads die e x x.place ((z.map (readTo p)).getD x.bottom)).cachePages die e x
  let flagged (d : Dev) (fl : FlagSet) : Dev := d.modRun die e (fun y => { y with flags := y.flags ||| fl })
  if isBenchLoc r.dstLoc then
    let z := d.firstStop c die e r p x.place until_ rows
    let d1 := read d z
    match x.dstAt, d.furOfAddr r.dstAddr with
    | some at_, some f =>
      let y := d1.deliverBench die e x rows f at_ (z.map (fun z => (z.1, z.2.1)))
      (flagged y.1 y.2, z)
    | _, _ => (d1, z)
  else
    let w := Dev.walkRows c die e r p x.place until_ d 0#5 [] rows
    let d1 := flagged (read w.dev w.stop) w.flags
    (if r.dstLoc = 5 then Dev.sendGate die e x.bed (joinSent 65536 (splitSent 65536 w.sent)) d1 else d1.sendHost r w.sent, w.stop)

/-- The barrow of a rill reads from the host, or sends what it writes to a gate, once it has what it needs (R243). -/
def Dev.rillProgress (d : Dev) (die e : Nat) : Dev :=
  match (d.rill die e).run with
  | none => d
  | some x =>
    let r := x.fields
    let p := x.plan
    if x.bad.isSome || r.empty || d.fld (.rill die e) Reg.RILL_STS.STATE == 3 || !d.rillReady die e x then d
    else if (p.sLoc == 3 || r.dstLoc == 5) && d.inputStale x then d.rillUnrecov die e Cause.stale
    else if p.sLoc = 3 ∧ x.asked = false then
      (d.emit (p.rows.flatMap (fun w => hostReads r.port r.pasidArg w.sAddr (eltBytes p.fS p.kind w.n) ++
        (if p.fS.blockScaled then hostReads r.port r.pasidArg w.sScale (memScale p.fS w.n) else [])))).modRun die e
        (fun y => { y with asked := true })
    else if r.dstLoc = 5 && !x.sent && x.hostHere then
      let w := d.rillDeliver die e x none
      match w.2 with
      | some (_, _, .page _ _) => d
      | some z => if (w.1.rill die e).run.any (fun y => y.poison.isSome) then w.1 else w.1.rillStops die e x z
      | none => w.1.modRun die e (fun y => { y with sent := true })
    else d

/-! ### Posting -/

/-- The deadline of the barrow in hand (R252). -/
def RillRun.deadline (x : RillRun) : Option Nat := deadline48 x.openT x.fields.dryNs (x.barrow * x.fields.dryStep)

/-- The location of the barrow in hand, for a bench the offset of its claim or, without one, the furrow's HEAD. -/
def Dev.rillAddr (d : Dev) (x : RillRun) : Nat :=
  let r := x.fields
  if isBenchLoc r.dstLoc then
    match d.furOfAddr r.dstAddr with
    | some f =>
      let g := d.fur f.1 f.2.1 f.2.2
      bitsOf r.dstAddr 56 48 * 2 ^ 48 + f.2.2 * 2 ^ 32 + (x.dstAt.getD g.head) % g.bytes
    | none => r.dstAddr
  else match x.plan.rows with
    | w :: _ => w.dAddr
    | [] => r.dstAddr

/-- The barrow in hand is done: it is posted where there is a queue, its input and its source range are released, and
the next barrow or the end of the item follows (R246, R248, R254). -/
def Dev.rillEnds (d : Dev) (die e : Nat) : Dev :=
  match (d.rill die e).run with
  | none => d
  | some x =>
    let r := x.fields
    let b := Blk.rill die e
    let ex := (d.runCfg x).exact
    let last := decide (r.barrows ≤ x.barrow + 1)
    let late := d.isLate x.deadline
    let len := if r.empty then 0 else x.plan.length r ex
    let bar : Barrow := ⟨d.rillAddr x, len, 0, if r.dstLoc = 4 then 2 else r.dstLoc, 3, last,
      if x.bad.isSome then 0#5 else x.flags, false, x.bad.isSome, late, x.bad.getD 0⟩
    let posted := match x.claimed with
      | some c => d.postAt c bar
      | none => (d, true)
    let d1 := posted.1
    let d2 := if posted.2 then d1 else (d1.setFld b Reg.RILL_STS.CAUSE Cause.stale).setFld b Reg.RILL_STS.UNRECOV 1
    let d3 := if x.claimed.isSome && posted.2 then
        let d3 := d2.countWrap b Reg.RILL_BARROWS.COUNT 1
        if late then (d3.setFld b Reg.RILL_STS.DRY_MISS 1).countSat b Reg.RILL_DRY_MISS.COUNT 1 else d3
      else d2
    let d4 := if x.bad.isSome then d3.poisonBed x.bed
      else
        let n := d3.fld b Reg.RILL_BYTES_HI.BYTES_HI * 2 ^ 32 + d3.fld b Reg.RILL_BYTES_LO.BYTES_LO + len
        (d3.setFld b Reg.RILL_BYTES_LO.BYTES_LO (n % 2 ^ 32)).setFld b Reg.RILL_BYTES_HI.BYTES_HI (n / 2 ^ 32 % 2 ^ 32)
    let d5 := match x.srcAt, d.furOfAddr x.srcBench with
      | some c, some f => d4.modFur f.1 f.2.1 f.2.2 (fun g => g.release c (x.plan.srcStream r))
      | _, _ => d4
    let d6 := match x.input with
      | some t => (d5.releaseSlot t).1
      | none => d5
    if last then ((d6.setRill die e { d6.rill die e with run := none }).setFld b Reg.RILL_STS.STATE 0).retireItem x.seq
    else d6.modRun die e (fun y => { y with
      barrow := y.barrow + 1, outBytes := y.outBytes + len, claimed := none, input := none, srcAt := none, dstAt := none,
      doneRow := 0, doneI0 := 0, flags := 0#5, blocks := 0, pageReqs := 0, asked := false, hostIn := [], sent := false,
      tags := [], tainted := none })

/-- The same, with the check of the input barrow's slot at its release: a mismatch is the fault STALE (R249). -/
def Dev.rillFinish (d : Dev) (die e : Nat) : Dev :=
  match (d.rill die e).run with
  | none => d
  | some x =>
    if x.bad.isNone && x.input.any (fun t => !d.takenFresh t) then (d.rillUnrecov die e Cause.stale).rillEnds die e
    else d.rillEnds die e

/-- The barrow in hand moves its data and is posted; a fault poisons it (R246, R256, R260). -/
def Dev.rillMove (d : Dev) (die e : Nat) (x : RillRun) : Dev :=
  let w := d.rillDeliver die e x none
  match w.2 with
  | some (_, _, .page _ _) => d
  | some z => (w.1.rillStops die e x z).rillEnds die e
  | none => w.1.rillFinish die e

/-- BARROW_POST of a rill: the barrow in hand is posted once it has all it needs and its data is complete at its
destination; an empty or poisoned one once it has its slot (R246, R248, R260, R265). -/
def Dev.rillPost (d : Dev) (die e : Nat) : Dev :=
  match (d.rill die e).run with
  | none => d
  | some x =>
    let r := x.fields
    if d.fld (.rill die e) Reg.RILL_STS.STATE == 3 || (r.outQ != 0xFFFF && x.claimed.isNone) then d
    else if x.bad.isSome || r.empty then d.rillEnds die e
    else if !d.rillReady die e x then d
    else if d.inputStale x then (d.rillUnrecov die e Cause.stale).rillEnds die e
    else if !x.hostHere then d
    else if r.dstLoc = 5 then (if x.sent && x.tags.isEmpty then d.rillFinish die e else d)
    else if r.transpose then
      (if x.blocks = x.plan.blocks r (d.runCfg x).exact then d.rillFinish die e else d)
    else d.rillMove die e x

/-! ### Descriptors that await answers (R233) -/

/-- The last request of the descriptor has been issued. -/
def RillRun.allIssued (x : RillRun) : Bool := x.sent && x.bad.isNone && decide (x.fields.barrows ≤ x.barrow + 1)

/-- `g` acts on the rill's `n`th descriptor that awaits answers, as on the one it runs. -/
def Dev.onTrail (d : Dev) (die e n : Nat) (g : Dev → Dev) : Dev :=
  let st := d.rill die e
  let others := st.trail.eraseIdx n ++ st.run.toList
  let d1 := g (d.setRill die e { st with run := st.trail[n]?, trail := others })
  let s1 := d1.rill die e
  if s1.trail ≠ others then d1
  else
    let trail := others.take n ++ s1.run.toList ++ (others.take (st.trail.length - 1)).drop n
    (d1.setRill die e { s1 with run := st.run, trail := trail }).setFld (.rill die e) Reg.RILL_STS.STATE
      (if st.run.isSome then d.fld (.rill die e) Reg.RILL_STS.STATE
        else if d1.fld (.rill die e) Reg.RILL_STS.STATE = 4 then 4 else if trail.isEmpty then 0 else 1)

/-- BARROW_POST of a rill into a queue: of the first of its descriptors in issue order that posts there. -/
def Dev.rillPosts (d : Dev) (die e q : Nat) : Dev :=
  let st := d.rill die e
  match st.trail.findIdx? (fun x => x.fields.outQ == q) with
  | some n => d.onTrail die e n (fun d => d.rillPost die e)
  | none => if st.run.any (fun x => x.fields.outQ == q) then d.rillPost die e else d

end Machine
end Sys2Proof
end

