-- ==== Sys2Proof/Machine/Gate.lean ====
section
/-! DEFINITION. Gates (14 R345 to R351): the gate engines, their commands, the writes they accept and refuse, the answers
that a writer receives, and the writer epochs. -/
namespace Sys2Proof
namespace Machine

/-! ### Gates and their entries -/

/-- Gate `g`, and the device with another. -/
def Dev.gate (d : Dev) (g : Nat) : GateSt := Tbl.get (fun _ => GateSt.start) d.gates g
def Dev.setGate (d : Dev) (g : Nat) (x : GateSt) : Dev := { d with gates := Tbl.set (fun _ => GateSt.start) d.gates g x }

/-- The fields of a gate table entry (Table 14.6). -/
structure GateEntry where
  base  : Nat
  size  : Nat
  loc   : Nat
  write : Bool
  srcOnly : Bool
  src   : Nat
  epoch : Nat
  bed   : Nat
  zeros : Bool
  deriving DecidableEq, Repr

/-- The entry that 32 bytes hold. -/
def GateEntry.ofBytes (b : List Byte) : GateEntry where
  base := numAt b 0 8
  size := numAt b 8 4
  loc := numAt b 0xC 1
  write := (numAt b 0xD 1).testBit 0
  srcOnly := (numAt b 0xD 1).testBit 1
  src := numAt b 0xE 2
  epoch := numAt b 0x10 4
  bed := bitsOf (numAt b 0x14 1) 5 0
  zeros := decide (numAt b 0xD 1 < 4 ∧ numAt b 0x14 1 < 64) && allZero (b.drop 0x15)

/-- The entry as its gate engine loaded it. -/
def GateSt.fields (x : GateSt) : GateEntry := GateEntry.ofBytes x.entry

/-- The gate table's entry for gate `g` (R345). -/
def Dev.gateEntryAt (d : Dev) (g : Nat) : Nat :=
  (d.fld (.obotil 0) Reg.OB_GATE_BASE_HI.BASE_HI * 2 ^ 32 + d.fld (.obotil 0) Reg.OB_GATE_BASE_LO.BASE_LO * 2 ^ 17 + 32 * g) %
    2 ^ 40

/-- The bytes from `lo` up to `hi` lie in intervals, one after another; the number bounds the intervals used. -/
def covered (rs : List (Nat × Nat)) : Nat → Nat → Nat → Bool
  | 0, lo, hi => decide (hi ≤ lo)
  | n + 1, lo, hi =>
    decide (hi ≤ lo) || (match rs.find? (fun r => decide (r.1 ≤ lo ∧ lo < r.2)) with
      | some r => covered rs n r.2 hi
      | none => false)

/-- The window of an entry lies in its bed's regions, with write permission (R346, 03 R71). -/
def Dev.gateOk (d : Dev) (e : GateEntry) : Bool :=
  e.zeros && e.size % 8 == 0 && decide (e.loc < 2) && addrOk e.loc e.base &&
    (match d.bed e.bed with
      | none => false
      | some b =>
        if e.loc = 0 then
          let rs := (b.cfg.hbm.filter (fun r => r.write)).map (fun r => (r.base, r.base + r.size))
          covered rs (rs.length + 1) e.base (e.base + e.size)
        else
          let g := e.base % 2 ^ 26
          let rs := (b.cfg.gh.filter (fun r => r.die == bitsOf e.base 42 40)).map
            (fun r => (r.base * 65536, (r.base + r.size) * 65536))
          covered rs (rs.length + 1) g (g + e.size))

/-- OB_GATE_STS and OB_GATE_EPOCH show a gate after a command. -/
def Dev.showGate (d : Dev) (g : Nat) : Dev :=
  let x := d.gate g
  ((d.setFld (.obotil 0) Reg.OB_GATE_STS.STATE x.state).setFld (.obotil 0) Reg.OB_GATE_STS.GATE g).setFld (.obotil 0)
    Reg.OB_GATE_EPOCH.EPOCH x.epoch

/-- A gate command is ignored (R346). -/
def Dev.gateIgnored (d : Dev) (g : Nat) : Dev := (d.setFld (.obotil 0) Reg.OB_GATE_STS.CMD_IGN 1).showGate g

/-! ### The commands (R346, R348, R350) -/

/-- LOAD: reads and checks the entry; on failure the gate is UNLOADED and CFG_BAD set. An entry in an uncorrectable word
fails (DESIGN CHOICE, entry 24). -/
def Dev.loadGate (d : Dev) (g : Nat) : Dev :=
  if (d.gate g).state = 2 then d.gateIgnored g
  else
    let a := d.gateEntryAt g
    let bs := d.readBytes .hbm a 32
    let e := GateEntry.ofBytes bs
    let d1 := d.noteFrom 0xFF (.lodge (g % 2)) (Mem.hbm.wordsOf a 32)
    if d.gateOk e && !d.anyBad .hbm a 32 then (d1.setGate g ⟨1, e.epoch, bs⟩).showGate g
    else ((d1.setGate g { d.gate g with state := 0 }).setFld (.obotil 0) Reg.OB_GATE_STS.CFG_BAD 1).showGate g

/-- The state a command takes a gate to from its state; `none`: it is ignored there. OPEN 2, LATCH 3, ADVANCE 4, UNLOAD 5
by the codes of OB_GATE_CMD. -/
def gateMove (cmd : Nat) (x : GateSt) : Option GateSt :=
  match cmd, x.state with
  | 2, 1 => some { x with state := 2 }
  | 3, 2 => some { x with state := 1 }
  | 4, 1 | 4, 2 => some { x with state := 2, epoch := (x.epoch + 1) % 2 ^ 32 }
  | 5, 1 => some { x with state := 0 }
  | _, _ => none

/-- A command takes effect on a gate: OPEN completes at once; LATCH, ADVANCE and UNLOAD once every write checked before
this instant is complete (R348). -/
def Dev.gateEffect (d : Dev) (g cmd : Nat) (x : GateSt) (item : Option Nat) : Dev :=
  let d1 := (d.setGate g x).showGate g
  if cmd = 2 then (match item with | some q => d1.retireItem q | none => d1)
  else { d1 with gateWaits := d1.gateWaits ++ [⟨g, item, d1.msgId⟩] }

/-- The OP of an OBOTIL item, and its gate (R350). -/
def ItemCfg.op (c : ItemCfg) : Nat := cmdNum c.cmd 0 1
def ItemCfg.gate (c : ItemCfg) : Nat := cmdNum c.cmd 2 2 % 4096

/-- The port of a barrier group toward the next member. -/
def Dev.barPort (d : Dev) (g : Nat) : Nat := d.fldI (.obotil 0) Reg.BAR_CFG.PORT g

/-- The item goes to lodge `l`: a TRUG item to the share that sums its bucket, an OBOTIL item to the engine of its gate,
WADVANCE to both, a BARRIER item to the lodge of its group's port (01 R473). -/
def Dev.boundFor (d : Dev) (l : Nat) (c : ItemCfg) : Bool :=
  match c.kind with
  | .trug => cmdNum c.cmd 8 4 % 2 == l
  | .obotil => c.op == 4 || c.gate % 2 == l
  | .barrier => d.barPort (cmdNum c.cmd 0 1 % 16) / 4 == l
  | .rill | .pass | .sieve | .mower | .nop => false

/-- The item that arrives next at lodge `l` from a die: the first sent there in issue order that has not arrived (01 R473). -/
def Dev.nextAt (d : Dev) (die l : Nat) : Option Item :=
  d.items.find? (fun i => i.die == die && !i.held && !i.accepted && d.boundFor l i.cfg && !d.wadvanced.contains (i.seq, l))

/-- The first item of a bed, of those that `p` names, whose turn it is to arrive at a lodge of `ls` (01 R473). -/
def Dev.arriving (d : Dev) (bed : Nat) (ls : List Nat) (p : ItemCfg → Bool) : Option Item :=
  d.items.find? (fun i => i.bed == bed && p i.cfg && ls.any (fun l => d.nextAt i.die l == some i))

/-- The OBOTIL item of a bed that arrives next at the gate engine of a gate. -/
def Dev.nextGateItem (d : Dev) (bed g : Nat) : Option Item :=
  d.arriving bed [g % 2] (fun c => c.kind == .obotil && c.op != 4)

/-- The OP of an item for a command of OB_GATE_CMD: 1 LATCH, 2 OPEN, 3 ADVANCE. -/
def itemOp (cmd : Nat) : Nat := match cmd with | 3 => 1 | 2 => 2 | 4 => 3 | _ => 0

/-- A gate command of an item: ignored, or on a gate of another bed, it halts its bed (R350). -/
def Dev.gateItem (d : Dev) (bed g cmd : Nat) : Dev :=
  match d.nextGateItem bed g with
  | none => d
  | some i =>
    if i.cfg.op ≠ itemOp cmd ∨ i.cfg.gate ≠ g then d
    else
      let fail (d : Dev) : Dev := { d with items := d.items.filter (fun j => j.seq != i.seq) }.haltBed bed 3
      match gateMove cmd (d.gate g) with
      | none => fail (d.gateIgnored g)
      | some x => if (d.gate g).fields.bed ≠ bed then fail d
          else (d.acceptItem i.seq).gateEffect g cmd x (some i.seq)

/-- A gate command of OB_GATE_CMD. -/
def Dev.gateReg (d : Dev) (g cmd : Nat) : Dev :=
  if cmd = 1 then d.loadGate g
  else match gateMove cmd (d.gate g) with
    | some x => d.gateEffect g cmd x none
    | none => d.gateIgnored g

/-- OB_GATE_CMD takes the merged word `new`, and the command in `cmd` starts (Table 14.12). -/
def Dev.gateCmdWritten (d : Dev) (new cmd : Word) : Dev :=
  let d1 := d.setWord (.obotil 0) 0x114 (BitVec.ofNat 32 (putBits new.toNat 3 0 0))
  if bitsOf cmd.toNat 3 0 = 0 then d1 else d1.gateReg (bitsOf new.toNat 27 16) (bitsOf cmd.toNat 3 0)

/-- A gate command of OB_GATE_CMD as a write of the table: the gate's number and the command. -/
def Dev.gateRow (d : Dev) (src : Source) (g cmd : Nat) : Dev :=
  d.rowWrite src (.obotil 0) 0x114 (fun d => d.gateCmdWritten (BitVec.ofNat 32 (g % 4096 * 2 ^ 16)) (BitVec.ofNat 32 cmd))

/-- The outcome of a gate command by its source: an item of a bed, or a write of OB_GATE_CMD. -/
def State.gateBy (s : State) (t : Nat) (b : GateBy) (g cmd : Nat) : Host.Outcome State Fault Refusal :=
  match b with
  | .item bed => s.run t (.obotil 0) (fun d => d.gateItem bed g cmd)
  | .reg src => s.access t src (.obotil 0) (fun d => d.gateRow src g cmd)

/-- LOAD (R346). -/
def execGateLoad (t : Nat) (src : Source) (gate : Nat) (s : State) : Host.Outcome State Fault Refusal :=
  s.access t src (.obotil 0) (fun d => d.gateRow src gate 1)

/-- OPEN (R346). -/
def execGateOpen (t : Nat) (by_ : GateBy) (gate : Nat) (s : State) : Host.Outcome State Fault Refusal :=
  s.gateBy t by_ gate 2

/-- LATCH (R346, R348). -/
def execGateLatch (t : Nat) (by_ : GateBy) (gate : Nat) (s : State) : Host.Outcome State Fault Refusal :=
  s.gateBy t by_ gate 3

/-- ADVANCE (R346, R348). -/
def execGateAdvance (t : Nat) (by_ : GateBy) (gate : Nat) (s : State) : Host.Outcome State Fault Refusal :=
  s.gateBy t by_ gate 4

/-- UNLOAD (R346, R348). -/
def execGateUnload (t : Nat) (src : Source) (gate : Nat) (s : State) : Host.Outcome State Fault Refusal :=
  s.access t src (.obotil 0) (fun d => d.gateRow src gate 5)

/-- A message that its gate has accepted (R347). -/
def RxMsg.accepted (m : RxMsg) : Bool := m.window.isSome

/-- A write that was checked before a command of its gate is not complete. -/
def Dev.writesBefore (d : Dev) (w : GateWait) : Bool :=
  d.ports.any (fun e => e.2.rx.any (fun m => m.accepted && m.fields.gate == w.gate && decide (m.id < w.before)))

/-- GATE_CMD_COMPLETE: the oldest command of the gate completes once every write checked before it is complete; its item
retires (R348). -/
def execGateCmdComplete (t gate : Nat) (s : State) : Host.Outcome State Fault Refusal :=
  s.run t (.obotil 0) (fun d =>
    match d.gateWaits.find? (fun w => w.gate == gate) with
    | none => d
    | some w =>
      if d.writesBefore w then d
      else
        let d1 := { d with gateWaits := d.gateWaits.erase w }
        match w.item with
        | some q => d1.retireItem q
        | none => d1)

/-! ### Gate writes (R347) -/

/-- The first failing check of Table 14.7: the reason, 0 if none. -/
def Dev.writeRefusal (d : Dev) (h : MsgHead) : Nat :=
  let g := d.gate h.gate
  let e := g.fields
  let age := (g.epoch + 2 ^ 32 - h.epoch) % 2 ^ 32
  if h.dst ≠ d.devId then 8
  else if 65536 < h.length then 7
  else if g.state = 0 then 6
  else if g.state = 1 then 1
  else if 1 ≤ age ∧ age ≤ 2 ^ 31 then 2
  else if age ≠ 0 then 3
  else if !e.write || (e.srcOnly && h.src != e.src) then 4
  else if e.size < h.offset + h.length then 5
  else 0

/-- The counter of a reason that the gate engine counts. -/
def reasonCounter : Nat → Option Fld
  | 6 => some Reg.GATE_NOGATE_CNT.COUNT
  | 1 | 2 => some Reg.GATE_LATE_CNT.COUNT
  | 3 => some Reg.GATE_EARLY_CNT.COUNT
  | 4 => some Reg.GATE_PERM_CNT.COUNT
  | 5 => some Reg.GATE_RANGE_CNT.COUNT
  | _ => none

/-- A refused WRITE: counted, discarded and answered; nothing of its body is applied (R347, R357). -/
def Dev.refuseGateWrite (d : Dev) (p : Nat) (m : RxMsg) (reason : Nat) : Dev :=
  let d1 := match reason with
    | 8 => d.violation p 6 0
    | 7 => d.violation p 5 0
    | r => match reasonCounter r with
      | some f => d.countSat (.obotil 0) f 1
      | none => d
  (d1.modPort p (fun x => x.killMsg m)).answerWrite m.fields reason

/-- An accepted WRITE that is whole is applied to the window of its check, and acknowledged (R347, R348). -/
def Dev.applyGateWrite (d : Dev) (p : Nat) (m : RxMsg) : Dev :=
  let h := m.fields
  let d1 := match m.window.bind (fun w => locMem w.1 (w.2 + h.offset)) with
    | some a => d.writeBytes a.1 a.2 (m.body.take h.length)
    | none => d
  (d1.modPort p (fun x => x.freeMsg m)).answerWrite h 0

/-- GATE_WRITE: the oldest WRITE of the port is checked on its start flit, once, and applied when it is whole (R347). -/
def execGateWrite (t port : Nat) (s : State) : Host.Outcome State Fault Refusal :=
  s.run t (.obotil port) (fun d =>
    match (d.port port).firstMsg 2 with
    | none => d
    | some m =>
      if m.accepted then (if m.whole then d.applyGateWrite port m else d)
      else
        let r := d.writeRefusal m.fields
        if r ≠ 0 then d.refuseGateWrite port m r
        else
          let e := (d.gate m.fields.gate).fields
          let m' := { m with window := some (e.loc, e.base), id := d.msgId }
          let d1 := { d.modPort port (fun x => { x with rx := x.rx.map (fun y => if y = m then m' else y) }) with
                      msgId := d.msgId + 1 }
          if m.whole then d1.applyGateWrite port m' else d1)

/-! ### Answers (R347, R349) -/

/-- The rill with a descriptor that waits for the answer to a WTAG, as die and engine. -/
def Dev.writerOf (d : Dev) (tag : Nat) : Option (Nat × Nat) :=
  (d.rills.find? (fun e => (e.2.trail ++ e.2.run.toList).any (fun x => x.tags.contains tag))).map (fun e => (e.1 / 16, e.1 % 16))

/-- The WTAG is answered. -/
def RillRun.answered (tag : Nat) (x : RillRun) : RillRun := { x with tags := x.tags.erase tag }

/-- `g` acts on the rill's descriptor that waits for the answer to a WTAG, which it has now got. -/
def Dev.onAnswer (d : Dev) (r : Nat × Nat) (tag : Nat) (g : Dev → Dev) : Dev :=
  let f (d : Dev) : Dev := g (d.modRun r.1 r.2 (RillRun.answered tag))
  match (d.rill r.1 r.2).trail.findIdx? (fun x => x.tags.contains tag) with
  | some n => d.onTrail r.1 r.2 n f
  | none => f d

/-- WRITE_ACK: the oldest answer at a port is an acknowledgement; its write is complete (R347). -/
def execGateWriteAck (t port : Nat) (s : State) : Host.Outcome State Fault Refusal :=
  s.run t (.obotil port) (fun d =>
    match (d.port port).firstMsg 0 with
    | none => d
    | some m =>
      if m.fields.type ≠ Msg.ack then d
      else
        let d1 := d.modPort port (fun x => x.freeMsg m)
        match d1.writerOf m.fields.wtag with
        | some r => d1.onAnswer r m.fields.wtag id
        | none => d1)

/-- WRITE_NACK: the oldest answer at a port is a refusal; OB_GATE_LAST records it and the writer's rill faults (R349). -/
def execGateWriteNack (t port : Nat) (s : State) : Host.Outcome State Fault Refusal :=
  s.run t (.obotil port) (fun d =>
    match (d.port port).firstMsg 0 with
    | none => d
    | some m =>
      let h := m.fields
      if h.type ≠ Msg.nack then d
      else
        let d1 := (d.modPort port (fun x => x.freeMsg m)).gateLast h.reason h.gate h.src
        match d1.writerOf h.wtag with
        | some r => d1.onAnswer r h.wtag (fun d => d.rillUnrecov r.1 r.2 Cause.gateClosed)
        | none => d1)

/-! ### Writer epochs (R351) -/

/-- Both lodges' copies of a bed's writer epoch. -/
def Dev.setWepoch (d : Dev) (l bed v : Nat) : Dev :=
  if l = 0 then d.setFldI (.obotil 0) Reg.OB_WEPOCH.EPOCH bed v
  else { d with wepochs := Tbl.set (fun _ => 0) d.wepochs bed (v % 2 ^ 32) }

/-- OB_WEPOCH of a bed is written: only while the bed is IDLE or HALTED, or not defined. -/
def Dev.wepochWritten (d : Dev) (bed : Nat) (new : Word) : Dev :=
  let free : Bool := match d.bed bed with
    | some x => x.state == .idle || x.state == .halted
    | none => true
  if free then (d.setWepoch 0 bed new.toNat).setWepoch 1 bed new.toNat
  else d.setFld (.obotil 0) Reg.OB_GATE_STS.CMD_IGN 1

/-- WADVANCE: an OBOTIL item WADVANCE reaches a lodge, which adds 1 to its copy of the bed's writer epoch; the item retires
when both lodges have (R351). -/
def execWadvance (t bed l : Nat) (s : State) : Host.Outcome State Fault Refusal :=
  s.run t (.obotil 0) (fun d =>
    match d.arriving bed [l] (fun c => c.kind == .obotil && c.op == 4) with
    | none => d
    | some i =>
      if 2 ≤ l then d
      else
        let d1 := d.setWepoch l bed ((d.wepoch l bed + 1) % 2 ^ 32)
        if d1.wadvanced.contains (i.seq, 1 - l) then
          { d1 with wadvanced := d1.wadvanced.filter (fun w => w.1 != i.seq) }.retireItem i.seq
        else { d1 with wadvanced := d1.wadvanced ++ [(i.seq, l)] })

end Machine
end Sys2Proof
end

