-- ==== Sys2Proof/Machine/Barrier.lean ====
section
/-! DEFINITION. Barriers (14 R353 to R356): tokens, their two laps, and their acknowledgement. -/
namespace Sys2Proof
namespace Machine

/-- Barrier group `g`, and the device with another. -/
def Dev.bar (d : Dev) (g : Nat) : BarSt := Tbl.get (fun _ => BarSt.start) d.bars g
def Dev.setBar (d : Dev) (g : Nat) (x : BarSt) : Dev := { d with bars := Tbl.set (fun _ => BarSt.start) d.bars g x }

/-- The member's count of a group, and whether it leads it. -/
def Dev.barGen (d : Dev) (g : Nat) : Nat := d.fldI (.obotil 0) Reg.BAR_GEN.GEN g
def Dev.barLeads (d : Dev) (g : Nat) : Bool := d.fldI (.obotil 0) Reg.BAR_CFG.LEADER g != 0

/-- Word 0 of a token (R353): generation, group, phase (0 ARRIVE, 1 RELEASE), the leader's device. -/
def tokenWord (gen g phase leader : Nat) : Nat :=
  gen % 2 ^ 32 + g % 16 * 2 ^ 32 + phase % 2 * 2 ^ 40 + leader % 2 ^ 16 * 2 ^ 48

/-- A token goes out on the group's port and waits for its SACK (R355). -/
def Dev.sendToken (d : Dev) (g w0 : Nat) : Dev :=
  let p := d.barPort g
  (d.queueShort p (.token w0)).setBar g { d.bar g with unsacked := (d.bar g).unsacked ++ [(p, w0, d.now)] }

/-- Item n of the group retires and the member's count advances (R354). -/
def Dev.barRetire (d : Dev) (g : Nat) : Dev :=
  match (d.bar g).active with
  | [] => d
  | q :: rest => ((d.setBar g { d.bar g with active := rest }).retireItem q).setFldI (.obotil 0) Reg.BAR_GEN.GEN g
      ((d.barGen g + 1) % 2 ^ 32)

/-- A token of the member's present count is acted on, once the member's own item has issued; `none`: it waits (R354). -/
def Dev.actToken (d : Dev) (g w0 : Nat) : Option Dev :=
  if (d.bar g).active.isEmpty then none
  else if bitsOf w0 40 40 = 0 then
    some (d.sendToken g (if d.barLeads g then tokenWord (bitsOf w0 31 0) g 1 d.devId else w0))
  else if d.barLeads g then some (d.barRetire g)
  else some ((d.barRetire g).sendToken g w0)

/-- Held tokens whose turn has come are acted on, the number bounding them. -/
def Dev.actHeld (g : Nat) : Nat → Dev → Dev
  | 0, d => d
  | n + 1, d =>
    match (d.bar g).held.find? (fun w => bitsOf w 31 0 == d.barGen g) with
    | none => d
    | some w => match d.actToken g w with
      | none => d
      | some d1 => Dev.actHeld g n (d1.setBar g { d1.bar g with held := (d1.bar g).held.erase w })

/-- A token meets the member's count: a lower one is a duplicate, a higher one is held (R354). -/
def Dev.token (d : Dev) (g w0 : Nat) : Dev :=
  let n := bitsOf w0 31 0
  let hold (d : Dev) : Dev :=
    if (d.bar g).held.contains w0 then d else d.setBar g { d.bar g with held := (d.bar g).held ++ [w0] }
  if n < d.barGen g then
    d.setFldI (.obotil 0) Reg.BAR_STALE.COUNT g (min (d.fldI (.obotil 0) Reg.BAR_STALE.COUNT g + 1) (2 ^ 32 - 1))
  else if n = d.barGen g then
    match d.actToken g w0 with
    | some d1 => Dev.actHeld g ((d1.bar g).held.length) d1
    | none => hold d
  else hold d

/-- BARRIER: a bed's next BARRIER item issues: on a group that is not enabled it halts its bed; the leader sends ARRIVE; a
member forwards the ARRIVE that it holds (R354). -/
def execBarrier (t bed : Nat) (s : State) : Host.Outcome State Fault Refusal :=
  s.run t (.obotil 0) (fun d =>
    match d.arriving bed [0, 1] (fun c => c.kind == .barrier) with
    | none => d
    | some i =>
      let g := cmdNum i.cfg.cmd 0 1 % 16
      if d.fldI (.obotil 0) Reg.BAR_CFG.ENABLE g = 0 then
        { d with items := d.items.filter (fun j => j.seq != i.seq) }.haltBed bed 3
      else
        let n := (d.barGen g + (d.bar g).active.length) % 2 ^ 32
        let d1 := (d.acceptItem i.seq).setBar g { d.bar g with active := (d.bar g).active ++ [i.seq] }
        if d.barLeads g then d1.sendToken g (tokenWord n g 0 d.devId)
        else Dev.actHeld g ((d1.bar g).held.length) d1)

/-- BARRIER_TOKEN_RECEIVE: the short flit of a token arrives: a SACK copies its word 0; it is forwarded, held or, as a
duplicate, discarded (R354, R355). A token of a group that is not enabled is discarded (DESIGN CHOICE, entry 25). -/
def execBarrierTokenReceive (t port : Nat) (bytes : List Byte) (s : State) : Host.Outcome State Fault Refusal :=
  s.run t (.obotil port) (fun d =>
    if !d.portUp port then d
    else match d.recvShort port 1 bytes with
      | (d1, some q) =>
        let w0 := numAt q 0 8
        if bitsOf w0 39 36 ≠ 0 || bitsOf w0 47 41 ≠ 0 || bitsOf (numAt q 8 8) 63 16 ≠ 0 || !allZero (q.drop 16) then
          d1.violation port 1 0
        else
          let d2 := d1.queueShort port (.sack w0)
          let g := bitsOf w0 35 32
          if d2.fldI (.obotil 0) Reg.BAR_CFG.ENABLE g = 0 then d2 else d2.token g w0
      | (d1, none) => d1)

/-- SACK_RECEIVE: a SACK stops the retransmission of its token on that link (R355). -/
def execSackReceive (t port : Nat) (bytes : List Byte) (s : State) : Host.Outcome State Fault Refusal :=
  s.run t (.obotil port) (fun d =>
    if !d.portUp port then d
    else match d.recvShort port 2 bytes with
      | (d1, some q) =>
        let w0 := numAt q 0 8
        let g := bitsOf w0 35 32
        if !allZero (q.drop 8) then d1.violation port 1 0
        else d1.setBar g { d1.bar g with unsacked := (d1.bar g).unsacked.filter (fun u => !(u.1 == port && u.2.1 == w0)) }
      | (d1, none) => d1)

/-- TOKEN_RETRANSMIT: a token without a SACK for 100 ns is sent again, for as long as its port is UP (R355). -/
def execTokenRetransmit (t group : Nat) (s : State) : Host.Outcome State Fault Refusal :=
  s.run t (.obotil 0) (fun d =>
    match (d.bar group).unsacked.find? (fun u => decide (u.2.2 + 100 * 64 ≤ d.now) && d.portUp u.1) with
    | none => d
    | some u => (d.queueShort u.1 (.token u.2.1)).setBar group { d.bar group with
        unsacked := (d.bar group).unsacked.map (fun v => if v = u then (u.1, u.2.1, d.now) else v) })

/-- BAR_CFG of a group takes the merged word `new`: while no item is active; ENABLE written 1 clears BAR_GEN (Table 14.12). -/
def Dev.barCfgWritten (d : Dev) (g : Nat) (new : Word) : Dev :=
  if (d.bar g).active.isEmpty then
    let d1 := d.setWord (.obotil 0) (0x200 + g * 0x10) new
    if new.toNat.testBit 4 then d1.setFldI (.obotil 0) Reg.BAR_GEN.GEN g 0 else d1
  else d

/-- A device-wide register of OBOTIL_0 takes the merged word `new` where nothing forbids it: OB_DEV_ID only while every
port is DISABLED (Table 14.12). -/
def Dev.devIdWritten (d : Dev) (new : Word) : Dev :=
  if (List.range 8).all (fun p => d.portState p == 0) then d.setWord (.obotil 0) 0x100 new else d

end Machine
end Sys2Proof
end

