-- ==== Sys2Proof/Machine/RealFns.lean ====
section
/-! DEFINITION. Quotients, square roots and the elementary functions of the Sieve and the Almanac (11 R272, 12 R295,
R299) as exact values that one later rounding delivers correctly. An irrational result is enclosed between two
rationals; once both lie between the same two neighbours of a grid finer than every destination grid, the point
midway between those neighbours rounds to every destination exactly as the true value does. -/
namespace Sys2Proof
namespace Machine

/-- The largest `r` with `r * r ≤ n`, found from bit `k - 1` down. -/
def isqrtBits (n : Nat) : Nat → Nat → Nat
  | 0, r => r
  | k + 1, r => if (r + 2 ^ k) * (r + 2 ^ k) ≤ n then isqrtBits n k (r + 2 ^ k) else isqrtBits n k r

/-- The integer square root. -/
def isqrt (n : Nat) : Nat := isqrtBits n (Nat.log2 n / 2 + 1) 0

/-- The grid exponent at a magnitude whose `floor log2` is `l`: 160 bits below it, never finer than 2^-1300. -/
def gridExp (l : Int) : Int := max (-1300) (l - 160)

/-- The value of sign `neg` at `m` grid units, or midway to the next unit when `sticky`. -/
def gridVal (neg : Bool) (m : Nat) (sticky : Bool) (g : Int) : Val :=
  if sticky then .fin neg (2 * m + 1) (g - 1) else .fin neg m (if m = 0 then 0 else g)

/-- The exact quotient of two nonzero magnitudes as a grid value. -/
def divMag (neg : Bool) (a : Nat) (ea : Int) (b : Nat) (eb : Int) : Val :=
  let l := floorLog2 a ea - floorLog2 b eb - 1
  let g := gridExp l
  let s := ea - eb - g
  let num := if 0 ≤ s then a * 2 ^ s.toNat else a
  let den := if 0 ≤ s then b else b * 2 ^ (-s).toNat
  gridVal neg (num / den) (num % den ≠ 0) g

/-- The IEEE 754-2019 quotient before rounding, and whether INV arises (R272, Table 11.3). -/
def Val.div : Val → Val → Val × Bool
  | .nan s, .nan t => (.nan (s || t), s || t)
  | .nan s, _ => (.nan s, s)
  | _, .nan t => (.nan t, t)
  | .inf _, .inf _ => (.nan false, true)
  | .inf a, .fin b _ _ => (.inf (a != b), false)
  | .fin a _ _, .inf b => (.fin (a != b) 0 0, false)
  | .fin a m e, .fin b n f =>
    if n = 0 then (if m = 0 then (.nan false, true) else (.inf (a != b), false))
    else if m = 0 then (.fin (a != b) 0 0, false)
    else (divMag (a != b) m e n f, false)

/-- The exact square root of a value that is not negative. -/
def Val.sqrt : Val → Val
  | .fin n m e =>
    if m = 0 then .fin n 0 0
    else
      let g := gridExp (floorLog2 m e / 2)
      let (w, r, _) := inUnits m e (2 * g)
      let q := isqrt w
      gridVal false q (q * q ≠ w || r ≠ 0) g
  | v => v

/-- The exact reciprocal square root of a positive value; +∞ for a zero (Table 11.3), +0 for +∞. -/
def Val.rsqrt : Val → Val
  | .fin n m e =>
    if m = 0 then .inf n
    else
      let g := gridExp (-(floorLog2 m e / 2) - 2)
      let k := -2 * g - e
      let num := if 0 ≤ k then 2 ^ k.toNat else 1
      let den := if 0 ≤ k then m else m * 2 ^ (-k).toNat
      let q := isqrt (num / den)
      gridVal false q (q * q * den ≠ num) g
  | .inf _ => .zero
  | v => v

/-- The sum of two values before rounding, with INV for opposite infinities. A zero sum of finite values has the sign of
IEEE addition: that of two equal zeros, else + except under a rounding toward −∞ (`down`), where it is − (06 Table 6.8). -/
def Val.addIn (down : Bool) : Val → Val → Val × Bool
  | .nan s, .nan t => (.nan (s || t), s || t)
  | .nan s, _ => (.nan s, s)
  | _, .nan t => (.nan t, t)
  | .inf a, .inf b => if a = b then (.inf a, false) else (.nan false, true)
  | .inf a, _ => (.inf a, false)
  | _, .inf b => (.inf b, false)
  | .fin a m e, .fin b n f =>
    let lo := if m = 0 then f else if n = 0 then e else min e f
    let z := (if m = 0 then 0 else signedAt a m e lo) + (if n = 0 then 0 else signedAt b n f lo)
    (Val.ofInt z lo (if a = b then a else down), false)

/-- The same under a rounding other than toward −∞. -/
def Val.add (a b : Val) : Val × Bool := Val.addIn false a b

/-- The difference of two values before rounding. -/
def Val.sub (a b : Val) : Val × Bool := Val.add a b.negate

/-- `a < b` on values that are not NaN. -/
def Val.lt : Val → Val → Bool
  | .inf true, .inf true => false
  | .inf true, _ => true
  | .inf false, _ => false
  | _, .inf n => !n
  | .fin a m e, .fin b n f =>
    let lo := min e f
    decide (signedAt a m e lo < signedAt b n f lo)
  | _, _ => false

/-- The larger of two values that are not NaN; the first when they are equal. -/
def Val.max (a b : Val) : Val := if a.lt b then b else a

/-- An enclosure: an interval of integers in units of `2^-p`. -/
structure Encl where
  lo : Int
  hi : Int
  deriving DecidableEq, Repr

/-- The floor and ceiling of `z / 2^p`. -/
def shiftOut (p : Nat) (z : Int) : Int × Int :=
  let q := z / 2 ^ p
  (q, if q * 2 ^ p = z then q else q + 1)

/-- The sum of two enclosures. -/
def Encl.add (a b : Encl) : Encl := ⟨a.lo + b.lo, a.hi + b.hi⟩

/-- The difference of two enclosures. -/
def Encl.sub (a b : Encl) : Encl := ⟨a.lo - b.hi, a.hi - b.lo⟩

/-- The product of two enclosures, rounded outward. -/
def Encl.mul (p : Nat) (a b : Encl) : Encl :=
  let w := a.lo * b.lo
  let x := a.lo * b.hi
  let y := a.hi * b.lo
  let z := a.hi * b.hi
  ⟨(shiftOut p (min (min w x) (min y z))).1, (shiftOut p (max (max w x) (max y z))).2⟩

/-- The reciprocal of an enclosure of positive values, rounded outward. -/
def Encl.inv (p : Nat) (a : Encl) : Encl :=
  let n : Int := 2 ^ (2 * p)
  let d := max a.lo 1
  ⟨n / max a.hi 1, -(-n / d)⟩

/-- A rational `a / b`, `b > 0`, as an enclosure. -/
def Encl.ofRat (p : Nat) (a : Int) (b : Nat) : Encl :=
  let n := a * 2 ^ p
  ⟨n / b, -(-n / b)⟩

/-- A dyadic `z * 2^e` as an enclosure. -/
def Encl.ofDyadic (p : Nat) (z e : Int) : Encl :=
  if 0 ≤ e + p then ⟨z * 2 ^ (e + p).toNat, z * 2 ^ (e + p).toNat⟩
  else
    let s := shiftOut (-(e + p)).toNat z
    ⟨s.1, s.2⟩

/-- The Taylor sum of `e^r` for `0 ≤ r ≤ 2^-8` in units of `2^-p`: `lo` terms rounded down, `hi` terms up with twice
the first omitted term. -/
def expTaylor (p : Nat) (r : Encl) : Nat → Nat → Int → Int → Int → Int → Encl
  | 0, _, _, th, sl, sh => ⟨sl, sh + 2 * th + 2⟩
  | n + 1, i, tl, th, sl, sh =>
    let tl' := (tl * r.lo) / 2 ^ p / (i + 1)
    let th' := -(-(-(-(th * r.hi) / 2 ^ p)) / (i + 1))
    expTaylor p r n (i + 1) tl' th' (sl + tl') (sh + th')

/-- An enclosure squared `n` times. -/
def squareTimes (p : Nat) : Nat → Encl → Encl
  | 0, a => a
  | n + 1, a => squareTimes p n (Encl.mul p a a)

/-- `e^v` of an enclosure of values from 0 to 4096. -/
def expPos (p : Nat) (v : Encl) : Encl :=
  let r : Encl := ⟨v.lo / 2 ^ 20, -(-v.hi / 2 ^ 20)⟩
  squareTimes p 20 (expTaylor p r (p / 8 + 8) 0 (2 ^ p) (2 ^ p) (2 ^ p) (2 ^ p))

/-- `e^v` of an enclosure. An argument above 4000 counts as 4000, whose power is above every destination; below -4000 the
result lies between 0 and `e^-4000`. -/
def expEncl (p : Nat) (v : Encl) : Encl :=
  let c : Int := 4000 * 2 ^ p
  let one (x : Encl) : Encl := if 0 ≤ x.lo then expPos p x else Encl.inv p (expPos p ⟨-x.hi, -x.lo⟩)
  let clamp (z : Int) : Int := max (-c) (min c z)
  let a := one ⟨clamp v.lo, clamp v.lo⟩
  let b := one ⟨clamp v.hi, clamp v.hi⟩
  ⟨if v.lo < -c then 0 else a.lo, b.hi⟩

/-- The sum of `z^(2k+1) / (2k+1)` with sign `s` per term, for `|z|` at most 1/3. -/
def atanSeries (p : Nat) (alt : Bool) (z2 : Encl) : Nat → Nat → Encl → Encl → Bool → Encl
  | 0, _, t, s, _ =>
    let m := max t.lo.natAbs t.hi.natAbs
    ⟨s.lo - m - 1, s.hi + m + 1⟩
  | n + 1, k, t, s, neg =>
    let q : Encl := ⟨t.lo / (2 * k + 1), -(-t.hi / (2 * k + 1))⟩
    let s' := if neg then s.sub q else s.add q
    atanSeries p alt z2 n (k + 1) (Encl.mul p t z2) s' (if alt then !neg else false)

/-- `atanh z` for an enclosure with `|z| ≤ 1/3`. -/
def atanhEncl (p : Nat) (z : Encl) : Encl :=
  atanSeries p false (Encl.mul p z z) (p / 3 + 4) 0 z ⟨0, 0⟩ false

/-- `atan z` for an enclosure with `|z| ≤ 1/5`. -/
def atanEncl (p : Nat) (z : Encl) : Encl :=
  atanSeries p true (Encl.mul p z z) (p / 4 + 4) 0 z ⟨0, 0⟩ false

/-- π by Machin's formula. -/
def piEncl (p : Nat) : Encl :=
  let a := atanEncl p (Encl.ofRat p 1 5)
  let b := atanEncl p (Encl.ofRat p 1 239)
  ⟨16 * a.lo - 4 * b.hi, 16 * a.hi - 4 * b.lo⟩

/-- `ln 2`. -/
def ln2Encl (p : Nat) : Encl :=
  let a := atanhEncl p (Encl.ofRat p 1 3)
  ⟨2 * a.lo, 2 * a.hi⟩

/-- `ln (m * 2^e)` for a nonzero magnitude. -/
def lnEncl (p : Nat) (m : Nat) (e : Int) : Encl :=
  let l := floorLog2 m e
  let k : Int := Int.ofNat (Nat.log2 m)
  let f : Nat := 2 ^ k.toNat
  let a := atanhEncl p (Encl.ofRat p (Int.ofNat m - Int.ofNat f) (m + f))
  let b := ln2Encl p
  let t : Encl := if 0 ≤ l then ⟨l * b.lo, l * b.hi⟩ else ⟨l * b.hi, l * b.lo⟩
  ⟨t.lo + 2 * a.lo, t.hi + 2 * a.hi⟩

/-- The square root of an enclosure of values that are not negative. -/
def sqrtEncl (p : Nat) (a : Encl) : Encl :=
  ⟨Int.ofNat (isqrt ((max a.lo 0).toNat * 2 ^ p)), Int.ofNat (isqrt ((max a.hi 0).toNat * 2 ^ p)) + 1⟩

/-- σ(v) = 1 / (1 + e^-v). -/
def sigmaEncl (p : Nat) (v : Encl) : Encl :=
  let one : Encl := ⟨2 ^ p, 2 ^ p⟩
  if 0 ≤ v.lo then
    let r := Encl.inv p (one.add (expEncl p ⟨-v.hi, -v.lo⟩))
    ⟨r.lo, min r.hi (2 ^ p - 1)⟩
  else
    let r := one.sub (Encl.inv p (one.add (expEncl p v)))
    ⟨max 0 r.lo, r.hi⟩

/-- The series `x + x^3/3 + x^5/(3*5) + ...` of the normal distribution function, for `x ≥ 0`. -/
def normSeries (p : Nat) (x2 : Encl) : Nat → Nat → Encl → Encl → Encl
  | 0, _, t, s => ⟨s.lo, s.hi + 2 * t.hi + 2⟩
  | n + 1, k, t, s =>
    let u := Encl.mul p t x2
    let t' : Encl := ⟨u.lo / (2 * k + 3), -(-u.hi / (2 * k + 3))⟩
    normSeries p x2 n (k + 1) t' (s.add t')

/-- φ(x), the normal density. -/
def phiEncl (p : Nat) (x : Encl) : Encl :=
  let x2 := Encl.mul p x x
  let e := expEncl p ⟨-(-(-x2.hi) / 2), -x2.lo / 2 + 1⟩
  let s := sqrtEncl p (let q := piEncl p; ⟨2 * q.lo, 2 * q.hi⟩)
  Encl.mul p e (Encl.inv p s)

/-- Φ(x), the normal distribution function; beyond ±60 it lies within `2^-1450` of 0 or 1. -/
def normCdf (p : Nat) (x : Encl) : Encl :=
  let c : Int := 60 * 2 ^ p
  let one : Encl := ⟨2 ^ p, 2 ^ p⟩
  if c < x.lo then ⟨2 ^ p - 2 ^ (p - 1450), 2 ^ p - 1⟩
  else if x.hi < -c then ⟨0, 2 ^ (p - 1450)⟩
  else
    let a : Encl := if 0 ≤ x.lo then x else ⟨-x.hi, -x.lo⟩
    let s := normSeries p (Encl.mul p a a) (p + 3000) 0 a a
    let h := (Encl.mul p (phiEncl p a) s).add ⟨2 ^ (p - 1), 2 ^ (p - 1)⟩
    if 0 ≤ x.lo then h else ⟨max 0 (one.sub h).lo, (one.sub h).hi⟩

/-- The grid value between whose neighbours both ends of an enclosure of a nonzero number lie; `none` when the
enclosure is too wide. An end at zero only says the sign. -/
def Encl.settle (p : Nat) (a : Encl) : Option Val :=
  if a.lo < 0 ∧ 0 < a.hi then none
  else
    let neg := decide (a.lo < 0)
    let l : Nat := if neg then (-a.hi).toNat else a.lo.toNat
    let h : Nat := if neg then (-a.lo).toNat else a.hi.toNat
    let g := if l = 0 then -1300 else gridExp (floorLog2 l (-(Int.ofNat p)))
    let (m, _, _) := inUnits l (-(Int.ofNat p)) g
    let (n, _, _) := inUnits h (-(Int.ofNat p)) g
    if m = n then some (gridVal neg m true g) else none

/-- The exact value of an irrational number from its enclosures at rising precision: 1,500, 3,000 and 6,000 bits.
Where even the last is too wide the value is free (entry 11). -/
def realVal (f : Nat → Encl) : Val :=
  match (f 1500).settle 1500 with
  | some v => v
  | none => match (f 3000).settle 3000 with
    | some v => v
    | none => match (f 6000).settle 6000 with
      | some v => v
      | none => gridVal (decide ((f 6000).hi < 0)) (Config.freeHardCase ((f 6000).lo.natAbs)) true (-1300)

/-- A finite value as an enclosure. -/
def Val.encl (p : Nat) : Val → Encl
  | .fin n m e => Encl.ofDyadic p (if n then -Int.ofNat m else Int.ofNat m) e
  | _ => ⟨0, 0⟩

/-- e^x before rounding (exp32 of R272). -/
def Val.exp : Val → Val
  | .nan s => .nan s
  | .inf n => if n then .zero else .inf false
  | .fin n m e =>
    if m = 0 then .one
    else if cmpMag m e 1000 0 == .gt then (if n then .fin false 1 (-2000) else .fin false 1 2000)
    else realVal (fun p => expEncl p ((Val.fin n m e).encl p))

/-- The natural logarithm before rounding (ln32 of R272): -∞ at zero; of a negative value a NaN that sets INV (IEEE
754-2019). -/
def Val.ln : Val → Val
  | .fin neg m e =>
    if m = 0 then .inf true
    else if neg then .nan true
    else if cmpMag m e 1 0 == .eq then .zero
    else realVal (fun p => lnEncl p m e)
  | .inf true => .nan true
  | v => v

/-- `cos (pi * r)` for `0 ≤ r ≤ 1` by the even Taylor series (cospi64 of 12 R299): terms alternate in sign. -/
def cosSeries (p : Nat) (x2 : Encl) : Nat → Nat → Encl → Encl → Bool → Encl
  | 0, _, t, s, _ =>
    let m := max t.lo.natAbs t.hi.natAbs
    ⟨s.lo - m - 1, s.hi + m + 1⟩
  | n + 1, k, t, s, neg =>
    let u := Encl.mul p t x2
    let d : Int := (2 * k + 1) * (2 * k + 2)
    let t' : Encl := ⟨u.lo / d, -(-u.hi / d)⟩
    cosSeries p x2 n (k + 1) t' (if neg then s.sub t' else s.add t') (!neg)

/-- `cos (pi * r)` before rounding for a finite `r` from 0 to 1, exact at 0, 1/3, 1/2, 2/3 (dyadic ones) and 1. -/
def Val.cospi : Val → Val
  | .fin n m e =>
    if m = 0 then .one
    else if cmpMag m e 1 0 == .eq then .fin true 1 0
    else if cmpMag m e 1 (-1) == .eq then .zero
    else realVal (fun p =>
      let x := Encl.mul p ((Val.fin n m e).encl p) (piEncl p)
      cosSeries p (Encl.mul p x x) (p / 4 + 20) 0 ⟨2 ^ p, 2 ^ p⟩ ⟨2 ^ p, 2 ^ p⟩ true)
  | v => v

/-- An enclosure of `a^n` by repeated squaring on the bits of `n`, for `0 ≤ a ≤ 1`. -/
def powEncl (p : Nat) : Nat → Encl → Nat → Encl → Encl
  | 0, _, _, acc => acc
  | k + 1, a, n, acc =>
    powEncl p k (Encl.mul p a a) (n / 2) (if n % 2 = 1 then Encl.mul p acc a else acc)

/-- `γ^n` before rounding for `0 < γ ≤ 1` (pow64 of 12 R299): exact where the enclosure is a point. -/
def Val.powNat (g : Val) (n : Nat) : Val :=
  let f (p : Nat) : Encl := powEncl p (Nat.log2 n + 1) (g.encl p) n ⟨2 ^ p, 2 ^ p⟩
  let a := f 3000
  if a.lo = a.hi then Val.ofInt a.lo (-3000) false
  else if a.hi < 2 ^ 1700 then .fin false 1 (-1300)
  else realVal f

/-- The exact value of one rounding of `v` to binary32 or binary64 to nearest even under IEEE overflow, and its
flags (rn32 of R272, rn64 of 12 R295). -/
def Val.rn (f : Fmt) (v : Val) : Val := f.decode (f.deliver .nearest true 0 v).1

end Machine
end Sys2Proof
end

