-- ==== Sys2Proof/Machine/SieveMath.lean ====
section
/-! DEFINITION. The arithmetic of the Sieve (11 R271 to R275): the pseudocode of R272 row by row, with the flags of every
operation. -/
namespace Sys2Proof
namespace Machine

/-- Computations that gather flags. -/
abbrev Flagged (α : Type) := StateM FlagSet α

/-- Flags are raised. -/
def raiseFlags (f : FlagSet) : Flagged Unit := modify (fun s => s ||| f)

/-- A sum, a difference and a quotient before rounding; a result that sets INV is a NaN that does. `down`: the expression
is rounded toward −∞ (06 Table 6.8 no. 5). -/
def Val.plusIn (down : Bool) (a b : Val) : Val := let r := Val.addIn down a b; if r.2 then .nan true else r.1
def Val.minusIn (down : Bool) (a b : Val) : Val := Val.plusIn down a b.negate
def Val.plus (a b : Val) : Val := Val.plusIn false a b
def Val.minus (a b : Val) : Val := Val.plusIn false a b.negate
def Val.over (a b : Val) : Val := let r := Val.div a b; if r.2 then .nan true else r.1

/-- An expression rounded once to a binary format to nearest even under IEEE overflow. -/
def rnTo (f : Fmt) (v : Val) : Flagged Val := do
  let r := f.deliver .nearest true 0 v
  raiseFlags r.2
  pure (f.decode r.1)

/-- rn32 (R272). -/
def rn32 (v : Val) : Flagged Val := rnTo .binary32 v

/-- rsqrt32: of a negative value a NaN that sets INV (IEEE 754-2019). -/
def rsqrt32 (v : Val) : Flagged Val :=
  match v with
  | .fin true m _ => if m = 0 then rn32 v.rsqrt else rn32 (.nan true)
  | .inf true => rn32 (.nan true)
  | v => rn32 v.rsqrt

/-- Σ: an exact sum in a 640-bit accumulator (R160). -/
def sumExact (vs : List Val) : Flagged Val := do
  let a := (Long.start false).add vs
  raiseFlags a.flags
  pure (a.result .nearest)

/-- The zero-denominator guard (R275): the value to divide by, and whether it was substituted. -/
def guardZero (on : Bool) (v : Val) : Flagged (Val × Bool) := do
  if v.isZero then
    raiseFlags FlagSet.divz
    pure (if on then (Val.fin false 1 (-126), true) else (v, false))
  else pure (v, false)

/-- The natural number n as a value. -/
def natVal (n : Nat) : Val := .fin false n 0

/-! ### Activation functions (Table 11.2) -/

/-- The constant √(2/π) in an enclosure, and the polynomial inside FUNC 3's tanh. -/
def rootTwoOverPi (p : Nat) : Encl := sqrtEncl p (Encl.mul p ⟨2 * 2 ^ p, 2 * 2 ^ p⟩ (Encl.inv p (piEncl p)))
def tanhArg (p : Nat) (x : Encl) : Encl :=
  Encl.mul p (rootTwoOverPi p) (x.add (Encl.mul p (Encl.ofRat p 44715 1000000) (Encl.mul p x (Encl.mul p x x))))

/-- Twice an enclosure, and one. -/
def Encl.twice (a : Encl) : Encl := ⟨2 * a.lo, 2 * a.hi⟩
def Encl.one (p : Nat) : Encl := ⟨2 ^ p, 2 ^ p⟩

/-- f(x) of FUNC 2 to 6 as an enclosure: FUNC 3 by 0.5·(1 + tanh u) = σ(2u), FUNC 6 by tanh x = 2·σ(2x) − 1. -/
def actEncl (func p : Nat) (x : Encl) : Encl :=
  match func with
  | 2 => Encl.mul p x (normCdf p x)
  | 3 => Encl.mul p x (sigmaEncl p (tanhArg p x).twice)
  | 4 => Encl.mul p x (sigmaEncl p x)
  | 5 => sigmaEncl p x
  | _ => (sigmaEncl p x.twice).twice.sub (Encl.one p)

/-- f′(x) of FUNC 2 to 6 as an enclosure. -/
def actDerEncl (func p : Nat) (x : Encl) : Encl :=
  match func with
  | 2 => (normCdf p x).add (Encl.mul p x (phiEncl p x))
  | 3 =>
    let s := sigmaEncl p (tanhArg p x).twice
    let du := Encl.mul p (rootTwoOverPi p) ((Encl.one p).add (Encl.mul p (Encl.ofRat p 134145 1000000) (Encl.mul p x x)))
    s.add (Encl.mul p (Encl.mul p x du.twice) (Encl.mul p s ((Encl.one p).sub s)))
  | 4 =>
    let s := sigmaEncl p x
    Encl.mul p s ((Encl.one p).add (Encl.mul p x ((Encl.one p).sub s)))
  | 5 =>
    let s := sigmaEncl p x
    Encl.mul p s ((Encl.one p).sub s)
  | _ =>
    let s := sigmaEncl p x.twice
    (Encl.mul p s ((Encl.one p).sub s)).twice.twice

/-- The magnitude is greater than a whole number. -/
def Val.above (v : Val) (n : Nat) : Bool :=
  match v with
  | .fin _ m e => cmpMag m e n 0 == .gt
  | _ => false

/-- Beyond these magnitudes tanh is just below 1 in magnitude, a derivative of FUNC 2 to 4 is just above 1 for positive x, and every function or derivative
that vanishes is below 2^-1300. -/
def actFar (func : Nat) : Nat := match func with | 2 => 60 | 3 => 30 | _ => 1200

/-- f(x) at an infinite x where the formula of Table 11.2 has no value there: FUNC 2 to 4 at −∞ (entry 12). -/
def actAtInf (func : Nat) (neg : Bool) : Val :=
  match func with
  | 0 | 8 => .inf (neg && func == 0)
  | 1 => if neg then .zero else .inf false
  | 5 => if neg then .zero else .one
  | 6 => .fin neg 1 0
  | 7 => if neg then .zero else .inf false
  | _ => if neg then Fmt.binary32.decode (Config.freeActInf func false neg).toNat else .inf false

/-- f(x), exact (Table 11.2). -/
def actVal (func : Nat) (x : Val) : Val :=
  match x with
  | .nan s => .nan s
  | .inf n => actAtInf func n
  | .fin n m _ =>
    match func with
    | 0 => x
    | 1 => if n || m == 0 then .zero else x
    | 7 => x.exp
    | 8 => x.mul x
    | 5 => if m = 0 then .fin false 1 (-1) else
        if n && x.above 1200 then .fin false 1 (-1300) else realVal (fun p => actEncl 5 p (x.encl p))
    | f => if m = 0 then x
        else if f = 6 && x.above (actFar 6) then .fin n (2 ^ 1300 - 1) (-1300)
        else if n && f != 6 && x.above (actFar f) then .fin true 1 (-1300)
        else realVal (fun p => actEncl f p (x.encl p))

/-- dy × f′(x), exact. At an infinite x, f′ of FUNC 2 to 4 has no value (entry 12). -/
def actDerVal (func : Nat) (x dy : Val) : Val :=
  match x with
  | .nan s => match dy with | .nan t => .nan (s || t) | _ => .nan s
  | .inf n =>
    let f := match func with
      | 0 => Val.one
      | 1 => if n then .zero else .one
      | 5 | 6 => .zero
      | 7 => if n then .zero else .inf false
      | 8 => .inf n
      | _ => Fmt.binary32.decode (Config.freeActInf func true n).toNat
    dy.mul f
  | .fin n m _ =>
    match func with
    | 0 => dy
    | 1 => dy.mul (if n || m == 0 then .zero else .one)
    | 7 => match dy with
      | .fin dn dm de => if m = 0 ∨ dm = 0 then dy.mul x.exp
          else if x.above 1000 then dy.mul x.exp
          else realVal (fun p => Encl.mul p ((Val.fin dn dm de).encl p) (expEncl p (x.encl p)))
      | v => v.mul x.exp
    | 8 => dy.mul (x.plus x)
    | f =>
      if m = 0 then dy.mul (.fin false 1 (match f with | 5 => -2 | 6 => 0 | _ => -1))
      else if x.above (actFar f) then
        (if f = 5 ∨ f = 6 then dy.mul (.fin false 1 (-1300))
         else if n then dy.mul (.fin true 1 (-1300))
         else dy.mul (.fin false (2 ^ 200 + 1) (-200)))
      else match dy with
        | .fin dn dm de => if dm = 0 then dy.mul (if (actDerEncl f 1500 (x.encl 1500)).hi < 0 then .fin true 1 0 else .one)
            else realVal (fun p => Encl.mul p ((Val.fin dn dm de).encl p) (actDerEncl f p (x.encl p)))
        | v => v.mul (if (actDerEncl f 1500 (x.encl 1500)).hi < 0 then .fin true 1 0 else .one)

/-! ### Rows -/

/-- What an operation needs beside its row: the row's length comes with it. -/
structure SieveRowIn where
  op    : Nat
  func  : Nat
  keep  : Bool
  use   : Bool
  guard : Bool
  eps   : Val
  scale : Val
  /-- Y is rounded toward −∞. -/
  down  : Bool
  /-- Elements i with i + K_POS0 > Q_POS0 + r are masked (R274). -/
  mask  : Nat → Bool
  x     : List Val
  /-- Z, where it is present. -/
  z     : Option (List Val)
  g     : List Val
  b     : List Val
  /-- The tray entries at TRAY_IDX and TRAY_IDX2. -/
  t1    : Val × Val
  t2    : Val × Val

/-- What a row leaves: exact values to deliver to Y, tray entries to write, the parameter gradients' terms, and whether a
denominator was substituted. -/
structure SieveRowOut where
  y     : List Val
  w1    : Option (Val × Val)
  w2    : Option (Val × Val)
  t     : List Val
  dy    : List Val
  subst : Bool

/-- A row without statistics. -/
def SieveRowOut.ofY (y : List Val) : SieveRowOut := ⟨y, none, none, [], [], false⟩


/-- The row's inputs make it a row of NaNs: a NaN, ±∞ for the normalisations, +∞ for the softmaxes (R273); with it
whether INV arises from an infinity. -/
def rowIsNan (r : SieveRowIn) : Bool × Bool :=
  let vs := r.x ++ r.z.getD []
  let nan := vs.any Val.isNan
  let inf := match r.op with
    | 1 | 2 | 0x11 | 0x12 => vs.any Val.isInf
    | 3 | 4 | 0x13 | 0x15 => vs.any (fun v => v == .inf false)
    | _ => false
  let whole := match r.op with
    | 1 | 2 | 3 | 4 | 0x11 | 0x12 | 0x13 | 0x14 | 0x15 => true
    | _ => false
  (whole && (nan || inf), whole && inf)

/-- Element `i` of a list of values. -/
def valAt (vs : List Val) (d : Val) (i : Nat) : Val := vs.getD i d

/-- The greatest of values, −∞ of none. -/
def maxVal (vs : List Val) : Val := vs.foldl (fun m v => if m.isNan then m else if v.isNan then v else m.max v) (.inf true)

/-- Values through a computation, in order. -/
def mapF {α β : Type} (f : α → Flagged β) : List α → Flagged (List β)
  | [] => pure []
  | a :: as => do
    let b ← f a
    let bs ← mapF f as
    pure (b :: bs)

/-- Values paired with their indices. -/
def indexed (vs : List Val) : List (Nat × Val) := (List.range vs.length).zip vs

/-- The t_i of LNORM_B and RMSNORM_B. -/
def rowT (r : SieveRowIn) : Flagged (List Val) :=
  mapF (fun v => do
    if r.op = 0x11 then
      let c ← rn32 (v.minus r.t1.1)
      rn32 (c.mul r.t1.2)
    else rn32 (v.mul r.t1.2)) r.x

/-- A row of NaNs with NaN statistics (R273). The gradient images of such a row take its t_i and dy as the pseudocode gives
them (R280). -/
def nanRow (r : SieveRowIn) : Flagged SieveRowOut := do
  let q := Val.nan false
  let n := r.x.length
  let st : Option (Val × Val) := some (if r.op = 2 then .zero else q, q)
  let t ← if (r.op = 0x11 || r.op = 0x12) && r.func % 2 = 1 then rowT r else pure []
  pure ⟨List.replicate n q,
    if r.op ≤ 3 then (if r.keep then st else none) else if r.op = 4 || r.op = 0x14 then some (q, if r.op = 4 then q else .zero)
      else none,
    if r.op = 4 then some (q, .zero) else none,
    t, r.z.getD [], false⟩

/-- LNORM and RMSNORM. -/
def rowNorm (r : SieveRowIn) : Flagged SieveRowOut := do
  let n := natVal r.x.length
  let stats : Val × Val × Bool ← (do
    if r.use then pure (if r.op = 2 then .zero else r.t1.1, r.t1.2, false)
    else
      let s1 ← if r.op = 1 then sumExact r.x else pure Val.zero
      let s2 ← sumExact (r.x.map (fun v => v.mul v))
      let mu ← if r.op = 1 then rn32 (s1.over n) else pure Val.zero
      let var ← if r.op = 1 then rn32 (((n.mul s2).minus (s1.mul s1)).over (n.mul n)) else rn32 (s2.over n)
      let gd ← guardZero r.guard (var.plus r.eps)
      let rstd ← rsqrt32 gd.1
      pure (mu, rstd, gd.2))
  let y ← mapF (fun (p : Nat × Val) => do
    let c ← if r.op = 1 then rn32 (p.2.minus stats.1) else pure p.2
    let v := (c.mul stats.2.1).mul (valAt r.g .one p.1)
    pure (if r.op = 1 then Val.plusIn r.down v (valAt r.b .zero p.1) else v)) (indexed r.x)
  pure ⟨y, if r.keep then some (stats.1, stats.2.1) else none, none, [], [], stats.2.2⟩

/-- SOFTMAX. -/
def rowSoftmax (r : SieveRowIn) : Flagged SieveRowOut := do
  if r.use then
    let y ← mapF (fun v => do
      if r.t1.2 = .inf true then pure Val.zero
      else
        let u ← rn32 (v.minus r.t1.2)
        rn32 u.exp) r.x
    pure (.ofY y)
  else
    let m := maxVal r.x
    let e ← mapF (fun v => do
      if m = .inf true then pure Val.zero
      else
        let u ← rn32 (v.minus m)
        rn32 u.exp) r.x
    let s0 ← sumExact e
    let s ← rn32 s0
    let gd ← guardZero r.guard s
    let l ← rn32 gd.1.ln
    let lse ← rn32 (m.plus l)
    pure ⟨e.map (fun v => v.over gd.1), if r.keep then some (m, lse) else none, none, [], [], gd.2⟩

/-- OSMAX. -/
def rowOsmax (r : SieveRowIn) : Flagged SieveRowOut := do
  let first := r.func % 2 == 1
  let z ← mapF (fun (p : Nat × Val) => do
    if r.mask p.1 || p.2 == .inf true then pure (Val.inf true) else rn32 (p.2.mul r.scale)) (indexed r.x)
  let m := if first then .inf true else r.t1.1
  let l := if first then .zero else r.t1.2
  let mn := maxVal (m :: z)
  let alpha ← (do
    if m = .inf true then pure Val.zero
    else
      let u ← rn32 (m.minus mn)
      rn32 u.exp)
  let p ← mapF (fun v => do
    if mn = .inf true || v = .inf true then pure Val.zero
    else
      let u ← rn32 (v.minus mn)
      rn32 u.exp) z
  let s ← sumExact p
  let l' ← rn32 ((l.mul alpha).plus s)
  pure ⟨p, some (mn, l'), some (alpha, .zero), [], [], false⟩

/-- OFINAL. -/
def rowOfinal (r : SieveRowIn) : Flagged SieveRowOut := do
  let gd ← guardZero r.guard r.t1.2
  let l ← rn32 gd.1.ln
  let lse ← rn32 (r.t1.1.plus l)
  pure ⟨r.x.map (fun v => v.over gd.1), none, some (r.t1.1, lse), [], [], gd.2⟩

/-- LNORM_B and RMSNORM_B. -/
def rowNormB (r : SieveRowIn) : Flagged SieveRowOut := do
  let n := natVal r.x.length
  let dy := r.z.getD []
  let rstd := r.t1.2
  let t ← rowT r
  let q ← mapF (fun (p : Nat × Val) => rn32 (p.2.mul (valAt r.g .one p.1))) (indexed dy)
  let a ← (do
    if r.op = 0x11 then
      let s ← sumExact q
      rn32 (s.over n)
    else pure Val.zero)
  let sq ← sumExact ((q.zip t).map (fun p => p.1.mul p.2))
  let c ← rn32 (sq.over n)
  let y := (q.zip t).map (fun p =>
    rstd.mul (Val.minusIn r.down (if r.op = 0x11 then Val.minusIn r.down p.1 a else p.1) (p.2.mul c)))
  pure ⟨y, none, none, t, dy, false⟩

/-- SOFTMAX_B. -/
def rowSoftmaxB (r : SieveRowIn) : Flagged SieveRowOut := do
  let dy := r.z.getD []
  let y ← mapF (fun v => do
    if r.t1.2 = .inf true then pure Val.zero
    else
      let u ← rn32 (v.minus r.t1.2)
      rn32 u.exp) r.x
  let s ← sumExact ((dy.zip y).map (fun p => p.1.mul p.2))
  let c ← rn32 s
  pure (.ofY ((y.zip dy).map (fun p => p.1.mul (Val.minusIn r.down p.2 c))))

/-- OSMAX_B. -/
def rowOsmaxB (r : SieveRowIn) : Flagged SieveRowOut := do
  let dp := r.z.getD []
  let y ← mapF (fun (p : Nat × Val) => do
    if r.mask p.1 then pure Val.zero
    else
      let e ← (do
        if r.t1.2 = .inf true then pure Val.zero
        else
          let s ← rn32 (p.2.mul r.scale)
          let u ← rn32 (s.minus r.t1.2)
          rn32 u.exp)
      pure ((e.mul (Val.minusIn r.down (valAt dp .zero p.1) r.t2.1)).mul r.scale)) (indexed r.x)
  pure (.ofY y)

/-- One row of an operation on numbers (R272, R273). -/
def sieveRow (r : SieveRowIn) : Flagged SieveRowOut := do
  let q := rowIsNan r
  if q.1 then
    raiseFlags (FlagSet.when q.2 FlagSet.inv)
    nanRow r
  else
    match r.op with
    | 1 | 2 => rowNorm r
    | 3 => rowSoftmax r
    | 4 => rowOsmax r
    | 5 => pure (.ofY (match r.z with
        | some z => (z.zip r.x).map (fun p => Val.plusIn r.down (p.1.mul r.t1.1) p.2)
        | none => r.x))
    | 6 => rowOfinal r
    | 7 => pure (.ofY (r.x.map (actVal r.func)))
    | 8 => pure (.ofY ((r.x.zip (r.z.getD [])).map (fun p => if r.func = 0 then Val.plusIn r.down p.1 p.2 else p.1.mul p.2)))
    | 0x11 | 0x12 => rowNormB r
    | 0x13 => rowSoftmaxB r
    | 0x14 => do
      let s ← sumExact ((r.x.zip (r.z.getD [])).map (fun p => p.1.mul p.2))
      let d ← rn32 s
      pure ⟨[], some (d, .zero), none, [], [], false⟩
    | 0x15 => rowOsmaxB r
    | 0x16 => pure (.ofY ((r.x.zip (r.z.getD [])).map (fun p => actDerVal r.func p.1 p.2)))
    | _ => pure (.ofY [])

end Machine
end Sys2Proof
end

