-- ==== Sys2Proof/Machine/Almanac.lean ====
section
/-! DEFINITION. The Almanac (12 R299, R300): the step size η in binary64 for a step number, and the step quantities of
UPDATE (R295). -/
namespace Sys2Proof
namespace Machine

/-- rn64: rounding to nearest even in binary64. -/
def rn64 (v : Val) : Flagged Val := rnTo .binary64 v

/-- The schedule that the Almanac registers hold (Table 12.7), the binary64 values decoded. -/
structure Schedule where
  mult   : Nat
  clip   : Bool
  decay  : Nat
  warmup : Nat
  decaySteps : Nat
  period : Nat
  stepInt : Nat
  etaInit : Val
  etaPeak : Val
  etaMin : Val
  gamma  : Val
  t      : Val
  deriving DecidableEq, Repr

/-- The steps since the last restart, and the period they lie in: periods grow by MULT up to 2^32 − 1. -/
def restart (mult : Nat) : Nat → Nat → Nat → Nat × Nat
  | 0, t, h => (t, h)
  | n + 1, t, h => if h ≤ t then restart mult n (t - h) (min (h * mult) (2 ^ 32 - 1)) else (t, h)

/-- `t` and `h` of R299 for `t0` steps after the warm-up. With MULT 1 every period is alike; with more, 33 periods reach
2^32 − 1. -/
def Schedule.horizon (a : Schedule) (t0 : Nat) : Nat × Nat :=
  if a.period = 0 then (t0, a.decaySteps)
  else if a.mult ≤ 1 then (t0 % a.period, a.period)
  else restart a.mult 40 t0 a.period

/-- η for step `s` (R299). -/
def Schedule.eta (a : Schedule) (s : Nat) : Flagged Val := do
  if s < a.warmup then
    let d ← rn64 (a.etaPeak.minus a.etaInit)
    let f ← rn64 ((natVal s).over (natVal a.warmup))
    let p ← rn64 (d.mul f)
    rn64 (a.etaInit.plus p)
  else
    let th := a.horizon (s - a.warmup)
    match a.decay with
    | 0 => pure a.etaPeak
    | 1 =>
      if th.2 = 0 then pure a.etaMin
      else
        let r ← rn64 ((natVal (min th.1 th.2)).over (natVal th.2))
        let d ← rn64 (a.etaPeak.minus a.etaMin)
        let p ← rn64 (d.mul r)
        rn64 (a.etaPeak.minus p)
    | 2 =>
      if th.2 = 0 then pure a.etaMin
      else
        let r ← rn64 ((natVal (min th.1 th.2)).over (natVal th.2))
        let d ← rn64 (a.etaPeak.minus a.etaMin)
        let half ← rn64 ((Val.fin false 1 (-1)).mul d)
        let c ← rn64 r.cospi
        let one ← rn64 (Val.one.plus c)
        let p ← rn64 (half.mul one)
        rn64 (a.etaMin.plus p)
    | 3 =>
      let g ← rn64 (a.gamma.powNat th.1)
      let p ← rn64 (a.etaPeak.mul g)
      pure (Val.max a.etaMin p)
    | _ =>
      let g ← rn64 (a.gamma.powNat (th.1 / a.stepInt))
      let p ← rn64 (a.etaPeak.mul g)
      pure (Val.max a.etaMin p)

/-- A value that is neither negative, nor infinite, nor NaN; −0 is not negative. -/
def Val.usable (v : Val) : Bool :=
  match v with
  | .fin n m _ => !n || m == 0
  | _ => false

/-- BAD_CLIP and BAD_SCHED of R300, in the order of Table 12.4: the code, 0 if neither. -/
def Schedule.refusal (a : Schedule) : Nat :=
  if a.clip && !(a.t.usable && !a.t.isZero) then 0x55
  else if !a.etaInit.usable || !a.etaPeak.usable || !a.etaMin.usable || !a.gamma.usable || a.etaPeak.lt a.etaMin ||
      decide (5 ≤ a.decay) || a.mult == 0 ||
      ((a.decay == 3 || a.decay == 4) && (a.gamma.isZero || Val.one.lt a.gamma)) || (a.decay == 4 && a.stepInt == 0) then 0x56
  else 0

/-- sqrt64: the square root correctly rounded; of a negative value a NaN that sets INV. -/
def sqrt64 (v : Val) : Flagged Val :=
  match v with
  | .fin true m _ => if m = 0 then rn64 v else rn64 (.nan true)
  | .inf true => rn64 (.nan true)
  | v => rn64 v.sqrt

/-- norm, c and k of R295 from η and n2 before their roundings. -/
def Schedule.stepOf (a : Schedule) (eta n2 : Val) : Flagged (Val × Val × Val) := do
  let n ← rn64 n2
  let norm ← sqrt64 n
  let below := !norm.isNan && !a.t.lt norm
  let c ← (if !a.clip || below then pure Val.one else rn64 (a.t.over norm))
  let k ← rn64 (eta.mul c)
  pure (norm, c, k)

end Machine
end Sys2Proof
end

