-- ==== Sys2Proof/Machine/Plot.lean ====
section
/-! DEFINITION. The commands of the plots (07 R171 to R190). -/
namespace Sys2Proof
namespace Machine

/-- A core cycle at step 0 of the divider, in 1/64 ns (00 R2, 17 R401): no cycle is shorter. -/
def coreCycle : Nat := 16

/-- The outcome of a command of a plot, whose cycle counters first count up to its instant. -/
def State.runPlot (s : State) (t die plot : Nat) (f : Dev → Dev) : Host.Outcome State Fault Refusal :=
  s.run t (.plot die plot) (fun d => f (d.settle die plot))

/-- PASS_ISSUE: a plot accepts its next PASS item, or refuses it on the first failing check and halts the bed (R181,
R182). -/
def execPassIssue (t die plot : Nat) (s : State) : Host.Outcome State Fault Refusal :=
  s.runPlot t die plot (fun d =>
    match (d.logicalOf die plot).bind (fun L => d.nextItem die .pass (L % 64)) with
    | none => d
    | some i => match d.bed i.bed with
      | none => d
      | some b =>
        let code := d.passRefusal die plot i.bed b.cfg (PassCmd.ofBytes i.cfg.cmd)
        if code ≠ 0 then d.refusePass die plot i.bed i.seq code
        else
          let c := PassCmd.ofBytes i.cfg.cmd
          (d.acceptItem i.seq).modPlot die plot (fun s => { s with
            passes := s.passes ++ [⟨i.seq, i.bed, i.cfg.cmd, i.cfg.ext, .accepted, 0, [], 0, 0, none, none, none, none, none,
              none, false, 0, c.load && c.flow != 2, none⟩] }))

/-- A pass's tile is read from its claim: the bytes cross the banks, and the link when the bench is a neighbour's (R175, 08
R204). -/
def Dev.beginLoad (d : Dev) (die p : Nat) (x : Pass) (ex : Bool) (base : Nat) : Dev :=
  let c := x.fields
  let d1 := d.modPass die p x.seq (fun y => { y with
    stage := .loading, sBase := some base, linkMark := d.linkBytes die p (furBench c.furS) })
  match d.benchOf die p (furBench c.furS) with
  | some b => d1.useLines b.1 b.2 (furNo c.furS) base (c.tileBytes ex) (if furBench c.furS = 0 then clsRead else clsNeighbour)
      false
  | none => d1

/-- STATIONARY_LOAD: the tile of the next LOAD = 1 pass is read into the shadow bank once that is free; the read claims
its range, or stalls on an unfilled one (R175, R177, 09 R221). A load that a retest undid reads its claim again. -/
def execStationaryLoad (t die plot : Nat) (s : State) : Host.Outcome State Fault Refusal :=
  s.runPlot t die plot (fun d =>
    match (d.plot die plot).passes.find? (fun x => x.loads && x.stage == .accepted) with
    | none => d
    | some x =>
      if d.fld (.plot die plot) Reg.PLOT_STS.STATE = 4 || !(d.plot die plot).shadowFree coreCycle d.now then d
      else
        let ex := (d.passCfg x).elim false (fun b => b.exact)
        match x.sBase, d.passAccess die plot x.fields.furS false (x.fields.tileBytes ex) with
        | some b, _ => d.beginLoad die plot x ex b
        | none, some a =>
          let r := d.request a
          (match r.2 with
            | some b => r.1.beginLoad die plot x ex b
            | none => r.1)
        | none, none => d)

/-- The core cycles by which forwarding on a link has lengthened a neighbour's load of `n` bytes at 256 a cycle (08 R204;
DESIGN CHOICE, entry 79). -/
def linkWait (n forwarded : Nat) : Nat := (n + forwarded + 255) / 256 - (n + 255) / 256

/-- STATIONARY_LOAD_DONE: the tile stands in the shadow bank and the pass may begin (R175). -/
def execStationaryLoadDone (t die plot : Nat) (s : State) : Host.Outcome State Fault Refusal :=
  s.runPlot t die plot (fun d =>
    match (d.plot die plot).passes.find? (fun x => x.stage == .loading) with
    | none => d
    | some x =>
      let ex := (d.passCfg x).elim false (fun b => b.exact)
      match d.tileRange die plot x ex with
      | none => d
      | some r =>
        let ls := d.furLanes r.1 r.2.1 r.2.2.1 r.2.2.2.1 r.2.2.2.2
        let d1 := d.noteWords x.bed (d.furWords r.1 r.2.1 r.2.2.1 r.2.2.2.1 r.2.2.2.2)
        let waited := match x.linkMark, d.linkBytes die plot (furBench x.fields.furS) with
          | some a, some b => linkWait (x.fields.tileBytes ex) (b - a)
          | _, _ => 0
        (((d1.modPass die plot x.seq (fun y => { y with stage := .ready })).modPlot die plot
          (fun s => { s with shadowTile := ls })).setFld (.plot die plot) Reg.PLOT_STS.SHADOW_VALID 1).countSat (.plot die plot)
            Reg.PLOT_NBR_WAIT.CYCLES waited)

/-- The pass that a plot starts next: the first that does not run, once every vector of those that run has entered. -/
def PlotSt.nextPass (s : PlotSt) : Option Pass :=
  if s.passes.any (fun x => x.running && decide (x.entered < x.fields.k)) then none
  else s.passes.find? (fun x => !x.running)

/-- The pass may start: its tile is loaded; passes of its kept chain before it have retired; a change of flow waits 80
cycles after the last vector (R175, R178, R210). -/
def PlotSt.mayStart (s : PlotSt) (x : Pass) (exact : Bool) (now : Nat) : Bool :=
  let c := x.fields
  (x.replay || c.flow == 2 || !c.load || x.stage == .ready) &&
  (exact || !c.continues || !s.passes.any (fun y => decide (y.seq < x.seq) && y.fields.acc != 0)) &&
  (match s.lastEnter with
    | some T => c.flow == s.lastFlow || decide (T + 80 * coreCycle ≤ now)
    | none => true)

/-- The pass claims the slot of its output barrow, if it names a queue; `none`: it waits for a slot (10 R250). -/
def Dev.passSlot (d : Dev) (die p : Nat) (x : Pass) : Dev × Bool :=
  let q := x.fields.queue
  let a := Agent.plot die p
  if q = 0xFFFF || x.slot.isSome then (d, true)
  else if d.canClaim d.lplot a q then
    let c := d.newClaim a q
    ((d.claimSlot a q).modPass die p x.seq (fun y => { y with slot := some c }), true)
  else (d, false)

/-- The pass claims its output range, or stalls on an undrained one (09 R219). -/
def Dev.passOutput (d : Dev) (die p : Nat) (x : Pass) : Dev × Bool :=
  let c := x.fields
  if c.outBytes = 0 || x.oBase.isSome then (d, true)
  else match d.passAccess die p c.furO true c.outBytes with
    | none => (d, true)
    | some a =>
      let r := d.request a
      (match r.2 with
        | some b => (r.1.modPass die p x.seq (fun y => { y with oBase := some b }), true)
        | none => (r.1, false))

/-- The read of the input images claims its range once its lines are filled; until then the array holds (R172, 09 R221). -/
def Dev.passImages (d : Dev) (die p : Nat) (x : Pass) (ex : Bool) : Dev :=
  let c := x.fields
  if c.imgBytes ex = 0 || x.iBase.isSome then d
  else match d.passAccess die p c.furI false (c.imgBytes ex) with
    | some a =>
      let f := d.furNow a.die a.plot a.fur
      if f.mayIssue a then (d.setFur a.die a.plot a.fur (f.claim a)).modPass die p x.seq (fun y => { y with iBase := some (f.claimAt a) })
      else d
    | none => d

/-- The banks as a pass starts: a newly loaded tile becomes the live one, and the travelling swap begins (R176); a replay
whose banks a retest overwrote reloads its tile (R189); every pass takes the live tile. -/
def Dev.takeTile (d : Dev) (die p : Nat) (x : Pass) (ex : Bool) : Dev :=
  let c := x.fields
  let s := d.plot die p
  if c.flow = 2 then d
  else if x.replay then
    if !x.tile.isEmpty then d
    else match d.tileRange die p x ex with
      | some r =>
        let ls := d.furLanes r.1 r.2.1 r.2.2.1 r.2.2.2.1 r.2.2.2.2
        let d1 := d.noteWords x.bed (d.furWords r.1 r.2.1 r.2.2.1 r.2.2.2.1 r.2.2.2.2)
        ((d1.modPass die p x.seq (fun y => { y with tile := ls })).modPlot die p
          (fun s => { s with liveTile := ls })).setFld (.plot die p) Reg.PLOT_STS.LIVE_VALID 1
      | none => d
  else if c.load then
    (((d.modPass die p x.seq (fun y => { y with tile := s.shadowTile })).modPlot die p (fun s => { s with
      liveTile := s.shadowTile, shadowTile := [], swapAt := some (d.now + (c.cyc ex - 1) * d.coreLen) })).setFld
        (.plot die p) Reg.PLOT_STS.LIVE_VALID 1).setFld (.plot die p) Reg.PLOT_STS.SHADOW_VALID 0
  else d.modPass die p x.seq (fun y => { y with tile := s.liveTile })

/-- What a pass needs at its start is gone since it was accepted: its plot, or the defined summation of an exact bed; the live
tile, or the accumulators that it continues; the code of Table 7.8 (R158, R181 checks 1, 2, 9 and 10), else 0. -/
def Dev.startRefusal (d : Dev) (die p : Nat) (x : Pass) (ex : Bool) : Nat :=
  let c := x.fields
  if d.plotFailed die p then 0x17
  else if ex && d.plotDegraded die p then 0x16
  else if !ex && c.continues && !(d.isSet (.plot die p) Reg.PLOT_STS.ACC_VALID &&
      (d.plot die p).record == (c.flow, c.k, c.rows, c.cols)) then 0x14
  else if !x.replay && !c.load && !d.isSet (.plot die p) Reg.PLOT_STS.LIVE_VALID then 0x13
  else 0

/-- PASS_START: the next pass starts, once its tile is loaded, its barrow slot and its output range are claimed and its
first vector is there: vector 0 enters and the travelling swap begins (R171, R175, R176, R210). No pass starts in
PREEMPTING, PREEMPTED or RETEST, but a replay does in PREEMPTING (R183, R184). -/
def execPassStart (t die plot : Nat) (s : State) : Host.Outcome State Fault Refusal :=
  s.runPlot t die plot (fun d =>
    let st := d.fld (.plot die plot) Reg.PLOT_STS.STATE
    match (d.plot die plot).nextPass with
    | none => d
    | some x => match d.passCfg x with
      | none => d
      | some b =>
        let ex := b.exact
        if 3 ≤ st || (st == 2 && !x.replay) || !(d.plot die plot).mayStart x ex d.now then d
        else
          let code := d.startRefusal die plot x ex
          if code ≠ 0 then d.refusePass die plot x.bed x.seq code
          else
            let r1 := d.passSlot die plot x
            if !r1.2 then r1.1
            else
              let r2 := r1.1.passOutput die plot x
              if !r2.2 then r2.1
              else
                match (r2.1.plot die plot).passes.find? (fun y => y.seq == x.seq) with
                | none => r2.1
                | some y =>
                  let need := if y.entered = y.fed then r2.1.vectorNeeds die plot y y.fields ex 0 else none
                  if need.isSome then r2.1.holdArray die plot y ex 0
                  else
                    let d4 := ((r2.1.passImages die plot y ex).takeTile die plot y ex).modPass die plot x.seq
                      (fun z => { z with stage := .running, startT := d.now })
                    (match (d4.plot die plot).passes.find? (fun z => z.seq == x.seq) with
                      | some z =>
                        let d5 := d4.enterVector die plot z ex
                        if (d5.plot die plot).passes.any (fun q => q.seq == x.seq && q.entered != 0) then d5
                        else r2.1.holdArray die plot y ex 0
                      | none => r2.1))

/-- MOVING_VECTOR_ARRIVE: the next vector of the pass that is entering enters the array, c core cycles after the one
before it or later; the array holds when it is not there or its forwarding write finds no room (R167, R172, R174, R480).
The vectors of an abandoned pass go on being forwarded, as they come, beside its replay (R187). -/
def execMovingVectorArrive (t die plot : Nat) (s : State) : Host.Outcome State Fault Refusal :=
  s.runPlot t die plot (fun d =>
    let d1 := match (d.plot die plot).passes.find? (fun x => x.running && decide (x.entered < x.fields.k)) with
      | some x =>
        let ex := (d.passCfg x).elim false (fun b => b.exact)
        if x.startT + x.fields.cyc ex * x.entered * coreCycle ≤ d.now then d.enterVector die plot x ex else d
      | none => d
    match (d1.plot die plot).passes.find? (fun x => x.replay && decide (x.fed < x.fields.k) &&
        !(x.running && x.entered == x.fed)) with
    | some x => (d1.feedVector die plot x ((d1.passCfg x).elim false (fun b => b.exact))).getD d1
    | none => d1)

/-- The instant up to which the array of a plot has advanced: the present, or where a pass in it holds, the start of that. -/
def PlotSt.advanced (s : PlotSt) (now : Nat) : Nat :=
  match s.holding with
  | some h => if s.passes.any (fun x => x.seq == h.seq && x.stage == .running) then h.since else now
  | none => now

/-- PASS_RETIRE: the oldest pass has written its last result, c · K + 86 core cycles after its first vector or later,
and retires (R171, R173). A pass that has read an uncorrectable word or a bad image does not retire (R187, R481). -/
def execPassRetire (t die plot : Nat) (s : State) : Host.Outcome State Fault Refusal :=
  s.runPlot t die plot (fun d =>
    match (d.plot die plot).passes with
    | [] => d
    | x :: _ => match d.passCfg x with
      | none => d
      | some b =>
        let c := x.fields
        if x.running && x.entered == c.k && decide (x.startT + (c.cyc b.exact * c.k + 86) * coreCycle ≤ (d.plot die plot).advanced d.now) &&
            !d.passOperandBad die plot x b.exact && !d.passAccBad die plot x b.exact && !d.passImageBad die plot x b.exact
        then d.retirePass die plot x b else d)

/-- The checksum lane or the finish comparison finds a mismatch in a pass: counted, placed and logged, and the pass and
those behind it are abandoned; the retest begins (R187 to R189, R194, R195). -/
def Dev.laneAbandon (d : Dev) (die p : Nat) (x : Pass) (ex : Bool) (cause : Nat) : Dev :=
  let b := Blk.plot die p
  let d1 := (d.setFld b Reg.PLOT_STS.LANE_DET 1).countSat b Reg.PLOT_LANE_CNT.COUNT 1
  let d2 := (d1.logPush { d1.entry b Ev.lane 2 with cause := cause, bed := x.bed }).abandonPasses die p x.seq cause ex
  d2.startRetest die p true (d2.replayExhausted die p)

/-- A word error abandons a pass and those behind it; without a replay left the bed halts (R187, R188). -/
def Dev.wordAbandon (d : Dev) (die p : Nat) (x : Pass) (ex : Bool) (cause : Nat) : Dev :=
  let d1 := d.abandonPasses die p x.seq cause ex
  if d1.replayExhausted die p then d1.plotHalt die p 0x18 else d1

/-- PASS_ABANDON: a detection ends the pass it concerns (R187): a lane mismatch, placed in PLOT_LANE_LOC, or a finish mismatch in
the pass that it names, neither in an UNCHECKED bed (R196); in the oldest pass that it can concern an uncorrectable word that the pass has read; or a bad image, which
ends it and those behind it without replay and halts the bed (R481). -/
def execPassAbandon (t die plot : Nat) (what : Detect) (s : State) : Host.Outcome State Fault Refusal :=
  s.runPlot t die plot (fun d =>
    let b := Blk.plot die plot
    let ex (x : Pass) : Bool := (d.passCfg x).elim false (fun b => b.exact)
    let checked (x : Pass) : Bool := (d.passCfg x).elim false (fun b => !b.unchecked)
    let run (p : Pass → Bool) : Option Pass := (d.plot die plot).passes.find? (fun x => x.running && p x)
    let nth (n : Nat) : Option Pass := (((d.plot die plot).passes.filter (fun x => x.running))[n]?).filter checked
    match what with
    | .lane n v r c g => match (nth n).filter (fun x => decide (v < x.entered)) with
      | some x => (((((d.setFld b Reg.PLOT_LANE_LOC.VECTOR v).setFld b Reg.PLOT_LANE_LOC.ROW r).setFld b
          Reg.PLOT_LANE_LOC.COL c).setFld b Reg.PLOT_LANE_LOC.GROUP g)).laneAbandon die plot x (ex x) 0x01
      | none => d
    | .finish n => match (nth n).filter (fun x => decide (0 < x.entered)) with
      | some x => d.laneAbandon die plot x (ex x) 0x04
      | none => d
    | .hedgeOpnd => match run (fun x => d.passOperandBad die plot x (ex x)) with
      | some x => d.wordAbandon die plot x (ex x) 0x02
      | none => d
    | .hedgeAcc => match run (fun x => d.passAccBad die plot x (ex x)) with
      | some x => d.wordAbandon die plot x (ex x) 0x03
      | none => d
    | .badImage => match run (fun x => d.passImageBad die plot x (ex x)) with
      | some x =>
        let d1 := d.abandonPasses die plot x.seq 0x06 (ex x)
        d1.plotHalt die plot (d1.fld b Reg.PLOT_STS.CAUSE)
      | none => d)

/-- A plot becomes DEGRADED or FAILED: the record for the next full load and the PLOT entry (R189, R190). -/
def Dev.recordPlot (d : Dev) (die p code : Nat) : Dev :=
  let k := die * 68 + p
  let d1 := if code = 0x17 then { d with arrNew := d.arrNew ++ [k] } else { d with defNew := d.defNew ++ [k] }
  d1.logPush { d1.entry (.plot die p) Ev.plot 2 with cause := code, bed := (d.bedOfPlot die p).getD 0xFF }

/-- RETEST_END: the outcome of a retest takes effect in one step: both parts pass, and the replay runs; defined
summation fails, and the plot is DEGRADED and replays by the aligned path, or halts an exact bed; the array fails, and the
plot is FAILED and its bed halts (R189). An exhausted replay limit halts the bed unless a worse cause does (R188). -/
def execRetestEnd (t die plot : Nat) (result : RetestResult) (s : State) : Host.Outcome State Fault Refusal :=
  s.runPlot t die plot (fun d =>
    let b := Blk.plot die plot
    if d.fld b Reg.PLOT_STS.STATE ≠ 4 then d
    else
      let st := d.plot die plot
      let d1 := (d.setFld b Reg.PLOT_STS.STATE st.back).modPlot die plot (fun s => { s with
        retestReplay := false, exhausted := false })
      let exact := match (d.bedOfPlot die plot).bind d.bed with
        | some x => x.cfg.exact
        | none => false
      let rest (d : Dev) : Dev := if st.exhausted then d.plotHalt die plot 0x18 else d
      match result with
      | .clean => rest d1
      | .sumFail =>
        let d2 := d1.recordPlot die plot 0x16
        if exact then d2.plotHalt die plot 0x16 else rest d2
      | .arrayFail => (d1.recordPlot die plot 0x17).plotHalt die plot 0x17)

/-! ### PLOT_CTL -/

/-- CMD = PREEMPT (R184, R186). -/
def Dev.plotPreempt (d : Dev) (die p : Nat) : Dev :=
  if d.fld (.plot die p) Reg.PLOT_STS.STATE ≤ 1 then d.setFld (.plot die p) Reg.PLOT_STS.STATE 2
  else d.setFld (.plot die p) Reg.PLOT_STS.CMD_IGN 1

/-- CMD = RESUME: the restore begins if a spill was written, and otherwise the plot returns to RUN (R186). -/
def Dev.plotResume (d : Dev) (die p : Nat) : Dev :=
  if d.fld (.plot die p) Reg.PLOT_STS.STATE = 3 then
    if (d.plot die p).spill.isSome then d.modPlot die p (fun s => { s with restoring := true })
    else d.setFld (.plot die p) Reg.PLOT_STS.STATE 1
  else d.setFld (.plot die p) Reg.PLOT_STS.CMD_IGN 1

/-- CMD = RETEST in IDLE or PREEMPTED: the retest begins, and the banks and both copies of the file are invalid (R189). -/
def Dev.plotRetest (d : Dev) (die p : Nat) : Dev :=
  if d.plotState die p = 0 || d.plotState die p = 3 then
    ((d.startRetest die p false false).modPlot die p (fun s => { s with file := [], fileOther := [], record := (0, 0, 0, 0)
      })).setFld (.plot die p) Reg.PLOT_STS.ACC_VALID 0
  else d.setFld (.plot die p) Reg.PLOT_STS.CMD_IGN 1

/-- PLOT_CTL takes the merged word `new`, and the command in `cmd` starts (Table 7.9). -/
def Dev.plotCtlWritten (d : Dev) (die p : Nat) (new cmd : Word) : Dev :=
  let d1 := d.setWord (.plot die p) 0x0 new
  match bitsOf cmd.toNat 11 8 with
  | 0 => d1
  | 1 => d1.plotPreempt die p
  | 2 => d1.plotResume die p
  | 3 => d1.plotRetest die p
  | _ => d1.setFld (.plot die p) Reg.PLOT_STS.CMD_IGN 1

/-- A command of the table that is a base write of a CMD field, every other field as it reads (entry 19). -/
def Dev.cmdRow (d : Dev) (src : Source) (b : Blk) (o : Nat) (f : Dev → Dev) : Dev := d.rowWrite src b o f

/-- PREEMPT (R184). -/
def execPreempt (t : Nat) (src : Source) (die plot : Nat) (s : State) : Host.Outcome State Fault Refusal :=
  s.access t src (.plot die plot) (fun d => d.cmdRow src (.plot die plot) 0x0 (fun d => d.plotPreempt die plot))

/-- RESUME (R186). -/
def execResume (t : Nat) (src : Source) (die plot : Nat) (s : State) : Host.Outcome State Fault Refusal :=
  s.access t src (.plot die plot) (fun d => d.cmdRow src (.plot die plot) 0x0 (fun d => d.plotResume die plot))

/-- RETEST (R189). -/
def execRetest (t : Nat) (src : Source) (die plot : Nat) (s : State) : Host.Outcome State Fault Refusal :=
  s.access t src (.plot die plot) (fun d => d.cmdRow src (.plot die plot) 0x0 (fun d => d.plotRetest die plot))

/-- Bytes of a spill: 4,096 partial words (R184). -/
def spillBytes : Nat := 32768

/-- PREEMPT_BOUNDARY: no pass runs or waits to replay: kept accumulators begin to be spilled when the spill furrow has
room; else SPILL_SHORT; and without kept accumulators the plot is PREEMPTED at once (R183 to R185, 09 Table 9.5). -/
def execPreemptBoundary (t die plot : Nat) (s : State) : Host.Outcome State Fault Refusal :=
  s.runPlot t die plot (fun d =>
    let b := Blk.plot die plot
    let st := d.plot die plot
    if d.fld b Reg.PLOT_STS.STATE ≠ 2 || st.passes.any (fun x => x.running || x.replay) then d
    else if !d.isSet b Reg.PLOT_STS.ACC_VALID then
      (d.setFld b Reg.PLOT_STS.STATE 3).modPlot die plot (fun s => { s with spill := none })
    else
      let f := d.fld b Reg.PLOT_CTL.SPILL_FUR
      let x := d.furNow die plot f
      let a : BenchAccess := ⟨.plot die plot, die, plot, f, 0, true, spillBytes⟩
      if st.spill.isSome || !x.portFree 0 then d
      else if x.clear a then
        (d.setFur die plot f (x.claim a)).modPlot die plot (fun s => { s with spill := some (x.head, f) })
      else ((d.setFld b Reg.PLOT_STS.SPILL_SHORT 1).setFld b Reg.PLOT_STS.STATE 3).modPlot die plot
        (fun s => { s with spill := none }))

/-- ACC_SPILL_DONE: the 4,096 entries stand in the spill furrow with their check bits, its lines are filled, and the plot
is PREEMPTED (R184, R185). -/
def execAccSpillDone (t die plot : Nat) (s : State) : Host.Outcome State Fault Refusal :=
  s.runPlot t die plot (fun d =>
    let b := Blk.plot die plot
    let st := d.plot die plot
    match st.spill with
    | some (c, f) =>
      if d.fld b Reg.PLOT_STS.STATE ≠ 2 then d
      else
        let word (e : Nat) : List Lane :=
          let w := st.entry e
          ((leBytes 8 w.1.toNat).zip (List.range 8)).map (fun x => ⟨x.1, w.2, x.2⟩)
        (((d.furWrite die plot f c ((List.range 4096).flatMap word)).useLines die plot f c spillBytes clsWrite true).modFur
          die plot f (fun x => x.fillRange c spillBytes)).setFld b Reg.PLOT_STS.STATE 3
    | none => d)

/-- ACC_RESTORE_DONE: the spill has been read as any range is, the file holds its words again with their check bits, the range is
released, and the plot returns to RUN (R185, R186, 09 R216, R221). -/
def execAccRestoreDone (t die plot : Nat) (s : State) : Host.Outcome State Fault Refusal :=
  s.runPlot t die plot (fun d =>
    let b := Blk.plot die plot
    let st := d.plot die plot
    match st.spill with
    | some (c, f) =>
      let x := d.furNow die plot f
      let a : BenchAccess := ⟨.plot die plot, die, plot, f, 0, false, spillBytes⟩
      if !st.restoring || d.fld b Reg.PLOT_STS.STATE != 3 || !x.mayIssue a then d
      else
        let word (e : Nat) : DWord × BitVec 8 :=
          let ls := d.furLanes die plot f (c + 8 * e) 8
          (BitVec.ofNat 64 (leNat (laneBytes ls)), (ls.head?.map (fun l => l.synd)).getD 0#8)
        let file := (List.range 4096).foldl (fun t e => Tbl.set (fun _ => (0#64, 0#8)) t e (word e)) []
        let d1 := ((d.noteWords ((d.bedOfPlot die plot).getD 0xFF) (d.furWords die plot f c spillBytes)).useLines die plot f c
          spillBytes clsRead false).modFur die plot f (fun x => (x.claim a).release c spillBytes)
        ((d1.modPlot die plot (fun s => { s with file := file, spill := none, restoring := false })).setFld b
          Reg.PLOT_STS.ACC_VALID 1).setFld b Reg.PLOT_STS.STATE 1
    | none => d)

end Machine
end Sys2Proof
end

