-- ==== Sys2Proof/Machine/SieveOps.lean ====
section
/-! DEFINITION. The SIEVE command (11 R281 to R284): its fields, its checks, its operands, and what its rows do to memory
and tray (R276 to R282, R286 to R288). -/
namespace Sys2Proof
namespace Machine

/-- The fields of a SIEVE command; `zeros`: its must-be-0 bits are 0. -/
structure SieveCmd where
  op    : Nat
  stream : Bool
  zg    : Nat
  use   : Bool
  keep  : Bool
  param : Bool
  mask  : Bool
  func  : Nat
  rnd   : Nat
  ovf   : Nat
  fmtX  : Nat
  fmtZ  : Nat
  fmtY  : Nat
  fmtP  : Nat
  rows  : Nat
  n     : Nat
  xAddr : Nat
  zAddr : Nat
  yAddr : Nat
  pAddr : Nat
  iAddr : Nat
  xLoc  : Nat
  zLoc  : Nat
  yLoc  : Nat
  tsX   : Nat
  tsZ   : Nat
  tsY   : Nat
  idx   : Nat
  idx2  : Nat
  stride : Nat
  queue : Nat
  eps   : Nat
  scale : Nat
  qPos  : Nat
  kPos  : Nat
  pitch : Nat
  dryNs : Nat
  tensor : Nat
  step  : Nat
  row0  : Nat
  col0  : Nat
  inQ   : Nat
  zeros : Bool
  deriving DecidableEq, Repr

/-- The fields of a command's 128 bytes (Table 11.5). -/
def SieveCmd.ofBytes (c : List Byte) : SieveCmd where
  op := cmdNum c 0 1
  stream := (cmdNum c 1 1).testBit 0
  zg := bitsOf (cmdNum c 1 1) 2 1
  use := (cmdNum c 1 1).testBit 3
  keep := (cmdNum c 1 1).testBit 4
  param := (cmdNum c 1 1).testBit 5
  mask := (cmdNum c 1 1).testBit 6
  func := cmdNum c 2 1
  rnd := bitsOf (cmdNum c 3 1) 2 0
  ovf := bitsOf (cmdNum c 3 1) 4 3
  fmtX := bitsOf (cmdNum c 4 1) 4 0
  fmtZ := bitsOf (cmdNum c 5 1) 4 0
  fmtY := bitsOf (cmdNum c 6 1) 4 0
  fmtP := bitsOf (cmdNum c 7 1) 4 0
  rows := cmdNum c 8 4
  n := cmdNum c 0xC 4
  xAddr := cmdNum c 0x10 8
  zAddr := cmdNum c 0x18 8
  yAddr := cmdNum c 0x20 8
  pAddr := cmdNum c 0x28 8
  iAddr := cmdNum c 0x30 8
  xLoc := bitsOf (cmdNum c 0x38 1) 1 0
  zLoc := bitsOf (cmdNum c 0x38 1) 3 2
  yLoc := bitsOf (cmdNum c 0x38 1) 5 4
  tsX := cmdNum c 0x39 1
  tsZ := cmdNum c 0x3A 1
  tsY := cmdNum c 0x3B 1
  idx := bitsOf (cmdNum c 0x3C 4) 17 0
  idx2 := bitsOf (cmdNum c 0x40 4) 17 0
  stride := cmdNum c 0x44 2
  queue := cmdNum c 0x46 2
  eps := cmdNum c 0x48 4
  scale := cmdNum c 0x4C 4
  qPos := bitsOf (cmdNum c 0x50 4) 21 0
  kPos := bitsOf (cmdNum c 0x54 4) 21 0
  pitch := cmdNum c 0x58 4
  dryNs := cmdNum c 0x5C 4
  tensor := cmdNum c 0x60 4
  step := cmdNum c 0x64 4
  row0 := cmdNum c 0x68 4
  col0 := cmdNum c 0x6C 4
  inQ := cmdNum c 0x70 2
  zeros := cmdNum c 1 1 < 128 && cmdNum c 3 1 < 32 && cmdNum c 4 1 < 32 && cmdNum c 5 1 < 32 && cmdNum c 6 1 < 32 &&
    cmdNum c 7 1 < 32 && cmdNum c 0x38 1 < 64 && cmdNum c 0x3C 4 < 2 ^ 18 && cmdNum c 0x40 4 < 2 ^ 18 &&
    cmdNum c 0x50 4 < 2 ^ 22 && cmdNum c 0x54 4 < 2 ^ 22 && cmdNum c 0x72 14 == 0

/-- The operation exists (Table 11.1). -/
def sieveOps : List Nat := [1, 2, 3, 4, 5, 6, 7, 8, 0x11, 0x12, 0x13, 0x14, 0x15, 0x16, 0x20, 0x21]

/-- FUNC is valid for the operation. -/
def SieveCmd.funcOk (c : SieveCmd) : Bool :=
  match c.op with
  | 4 | 8 => decide (c.func < 2)
  | 7 | 0x16 => decide (c.func < 9)
  | 0x11 | 0x12 => decide (c.func < 4)
  | _ => c.func == 0

/-- The operation moves tray entries. -/
def SieveCmd.isTray (c : SieveCmd) : Bool := c.op == 0x20 || c.op == 0x21

/-- The operation has X, needs Z, and has Y (Table 11.1). -/
def SieveCmd.hasX (c : SieveCmd) : Bool := c.op != 0x20
def SieveCmd.needsZ (c : SieveCmd) : Bool := c.op == 8 || decide (0x11 ≤ c.op ∧ c.op ≤ 0x16)
def SieveCmd.mayZ (c : SieveCmd) : Bool := c.needsZ || c.op == 5
def SieveCmd.hasY (c : SieveCmd) : Bool := c.op != 0x14 && c.op != 0x21

/-- The operation is one of those that STAT_KEEP and STAT_USE steer. -/
def SieveCmd.isStat (c : SieveCmd) : Bool := c.op == 1 || c.op == 2 || c.op == 3

/-- The operation uses the entry at TRAY_IDX of each row, and that at TRAY_IDX2. -/
def SieveCmd.usesIdx (c : SieveCmd) : Bool :=
  if c.isStat then c.keep || c.use
  else c.op == 4 || c.op == 5 || c.op == 6 || decide (0x11 ≤ c.op ∧ c.op ≤ 0x15)
def SieveCmd.usesIdx2 (c : SieveCmd) : Bool := c.op == 4 || c.op == 6 || c.op == 0x15

/-- It reads the entry at TRAY_IDX of a row. -/
def SieveCmd.readsIdx (c : SieveCmd) : Bool :=
  if c.isStat then c.use else c.usesIdx && !(c.op == 4 && c.func % 2 == 1) && c.op != 0x14

/-- Compute sweeps (Table 11.1). -/
def SieveCmd.sweeps (c : SieveCmd) : Nat :=
  match c.op with
  | 1 | 2 => if c.use then 1 else 2
  | 3 => if c.use then 1 else 3
  | 4 | 0x11 | 0x12 | 0x13 => 2
  | _ => 1

/-- The formats of X, Z, Y and P. -/
def fmtOf (code : Nat) : Fmt := (Fmt.ofCode code).getD .bfloat16

/-- A Sieve data format: 0x01 to 0x09. -/
def sieveFmt (code : Nat) : Bool := decide (1 ≤ code ∧ code ≤ 9)

/-- Bytes of a bench operand or of a glasshouse row: the operand's packed elements, or 8 bytes an entry (R282). -/
def SieveCmd.bytes (c : SieveCmd) (code rows : Nat) : Nat :=
  if c.isTray then 8 * rows else (fmtOf code).packedBytes (c.n * rows)

/-- LNORM_B or RMSNORM_B forms the parameter gradients' images (R280). -/
def SieveCmd.images (c : SieveCmd) : Bool := (c.op == 0x11 || c.op == 0x12) && c.func % 2 == 1

/-- The claim for Y is longer than the furrow that it names (09 R219). -/
def Dev.sieveClaimLong (d : Dev) (c : SieveCmd) : Bool :=
  match d.furOfAddr c.yAddr with
  | some f => decide ((d.fur f.1 f.2.1 f.2.2).bytes < round64 (c.bytes c.fmtY c.rows))
  | none => false

/-- An operand's address satisfies R268: a furrow of a bench of the bed in the Sieve's terrace, or a glasshouse place. -/
def Dev.sieveAddrOk (d : Dev) (b : BedCfg) (die sv loc a : Nat) : Bool :=
  if loc = 2 then
    let L := bitsOf a 56 48
    b.ring.any (fun x => x.lplot == L) && (d.physOf L).isSome && L / 64 == die && L % 64 / 16 == sv
  else true

/-- The code of the first check of Table 11.6 that a command fails, 0 if none (R284). -/
def Dev.sieveRefusal (d : Dev) (die sv bed : Nat) (b : BedCfg) (c : SieveCmd) : Nat :=
  let present (loc : Nat) : Bool := loc != 0
  let known (code : Nat) : Bool := (Fmt.ofCode code).isSome
  let fmtOk (loc code : Nat) : Bool := known code && (!present loc || c.isTray || sieveFmt code)
  let bits (loc a : Nat) : Bool := (loc != 1 && loc != 2) || addrOk loc a
  if !sieveOps.contains c.op || !c.funcOk || c.zg == 3 || !c.zeros || (c.keep && c.use) || !bits c.xLoc c.xAddr ||
      !bits c.zLoc c.zAddr || !bits c.yLoc c.yAddr || (c.param && !addrOk 1 c.pAddr) || (c.images && !addrOk 1 c.iAddr) then 0x40
  else if !fmtOk c.xLoc c.fmtX || !fmtOk c.zLoc c.fmtZ || !fmtOk c.yLoc c.fmtY ||
      !known c.fmtP || (c.param && !decide (1 ≤ c.fmtP ∧ c.fmtP ≤ 3)) || c.rnd == 6 || c.ovf == 2 ||
      (c.op == 5 && !(c.fmtX == 1 && c.fmtY == 1 && (!present c.zLoc || c.fmtZ == 1))) || (c.op == 6 && c.fmtX != 1) then 0x41
  else if c.rows == 0 || decide (65536 < c.rows) || c.n == 0 || decide (4194304 < c.n) ||
      (!c.isTray && (c.xLoc == 1 || c.zLoc == 1 || c.yLoc == 1) && decide (c.pitch < c.n)) ||
      (!c.stream && decide (65536 < c.n)) || (c.param && decide (32768 < c.n)) ||
      (c.stream && decide (2 ≤ c.sweeps) && (c.xLoc == 2 || c.zLoc == 2)) || ((c.op == 0x14 || c.op == 0x21) && present c.yLoc) ||
      (c.yLoc == 2 && d.sieveClaimLong c) then 0x42
  else if c.xLoc == 3 || c.zLoc == 3 || c.yLoc == 3 || present c.xLoc != c.hasX || present c.yLoc != c.hasY ||
      (c.needsZ && !present c.zLoc) || (!c.mayZ && present c.zLoc) || !d.sieveAddrOk b die sv c.xLoc c.xAddr ||
      !d.sieveAddrOk b die sv c.zLoc c.zAddr || !d.sieveAddrOk b die sv c.yLoc c.yAddr then 0x43
  else if 2 ^ 22 ≤ c.qPos + c.rows - 1 || 2 ^ 22 ≤ c.kPos + c.n - 1 then 0x44
  else if (c.isTray && decide (262143 < c.idx + c.rows - 1)) ||
      (c.usesIdx && decide (262143 < c.idx + (c.rows - 1) * c.stride)) ||
      (c.usesIdx2 && decide (262143 < c.idx2 + (c.rows - 1) * c.stride)) then 0x45
  else if (c.queue != 0xFFFF && !d.queueOk (.sieve die sv) bed c.queue) ||
      (c.inQ != 0xFFFF && !(d.isBarrowQueue c.inQ && d.qfld c.inQ Ctx.bed == bed && !d.queueInError c.inQ)) then 0x46
  else 0

/-! ### Claims -/

/-- The claims that a command still needs: its bench inputs, and its bench output. -/
def Dev.sieveAccesses (d : Dev) (die sv : Nat) (x : SieveRun) : List BenchAccess :=
  let c := SieveCmd.ofBytes x.cmd
  let at_ (loc a code : Nat) (have_ : Option Nat) (write : Bool) : List BenchAccess :=
    match d.furOfAddr a with
    | some f => if loc = 2 ∧ have_ = none then [⟨.sieve die sv, f.1, f.2.1, f.2.2, 3, write, c.bytes code c.rows⟩] else []
    | none => []
  if x.poison.isSome then []
  else at_ c.xLoc c.xAddr c.fmtX x.xAt false ++ at_ c.zLoc c.zAddr c.fmtZ x.zAt false ++
    at_ c.yLoc c.yAddr c.fmtY x.yAt true

/-! ### Reading operands -/

/-- The place in glasshouse memory `off` bytes past a Table 10.5 address. -/
def ghPlace (a off : Nat) : Nat := bitsOf a 42 40 * 2 ^ 26 + (a % 2 ^ 26 + off)

/-- Row `r` of an operand begins at this element of a glasshouse operand. -/
def SieveCmd.rowBit (c : SieveCmd) (code r : Nat) : Nat := if c.isTray then r * 64 else r * c.pitch * (fmtOf code).bits

/-- The bytes of row `r` of an operand, from the byte that holds its first bit on, and the words they lie in. -/
def Dev.sieveRowLanes (d : Dev) (c : SieveCmd) (loc a code r : Nat) (at_ : Option Nat) : List Lane × List Nat :=
  let bits := if c.isTray then 64 else c.n * (fmtOf code).bits
  if loc = 1 then
    let s := c.rowBit code r
    let n := (s % 8 + bits + 7) / 8
    let p := ghPlace a (s / 8)
    (d.readLanes .gh p n, Mem.gh.wordsOf p n)
  else match at_, d.furOfAddr a with
    | some k, some f =>
      let s := r * bits
      let n := (s % 8 + bits + 7) / 8
      (d.furLanes f.1 f.2.1 f.2.2 (k + s / 8) n, d.furWords f.1 f.2.1 f.2.2 (k + s / 8) n)
    | _, _ => ([], [])

/-- The first bit of row `r` within its first byte, in elements of the format. -/
def SieveCmd.rowSkip (c : SieveCmd) (loc code r : Nat) : Nat :=
  let b := (fmtOf code).bits
  let s := if loc = 1 then r * c.pitch * b else r * c.n * b
  if b = 0 then 0 else s % 8 / b

/-- The elements of a row as binary32 values under the operand's scale, with the flags of their conversion (R272). For
formats whose element does not start on a byte, elements count from the byte's first. -/
def SieveCmd.vals (c : SieveCmd) (loc code ts r : Nat) (ls : List Lane) : Flagged (List Val) :=
  let f := fmtOf code
  let bs := laneBytes ls
  let s := if loc = 1 then r * c.pitch * f.bits else r * c.n * f.bits
  let word := leNat bs >>> (s % 8)
  mapF (fun i =>
    let v := f.decode (word >>> (i * f.bits) % 2 ^ f.bits)
    rn32 (if f.tensorScaled then v.underScale ts else v)) (List.range c.n)

/-! ### The row and parameter buffers (R270) -/

/-- Values of binary32 as a buffer holds them, two a word. -/
def bufPack : List Nat → List (DWord × BitVec 8)
  | [] => []
  | [a] => [(BitVec.ofNat 64 a, 0#8)]
  | a :: b :: rest => (BitVec.ofNat 64 (a + b * 2 ^ 32), 0#8) :: bufPack rest

/-- The first `n` codes that a buffer holds from value `k` on, as its checker delivers them. -/
def bufCodes (ws : List (DWord × BitVec 8)) (k n : Nat) : List Nat :=
  (List.range n).map (fun i => bitsOf (checkedWord (ws.getD ((k + i) / 2) (0#64, 0#8))).toNat ((k + i) % 2 * 32 + 31) ((k + i) % 2 * 32))

/-- γ and β in binary32 as the parameter arrays give them (Table 11.5), with the flags of their conversion. -/
def Dev.sieveParams (d : Dev) (c : SieveCmd) : Flagged (List Nat) :=
  let f := fmtOf c.fmtP
  let n := f.packedBytes c.n
  let from_ (k : Nat) : Flagged (List Nat) :=
    let bs := d.readBytes .gh (ghPlace c.pAddr (k * n)) n
    mapF (fun i => do
      let y := Fmt.binary32.deliver .nearest true 0 (f.elem bs i)
      raiseFlags y.2
      pure y.1) (List.range c.n)
  do
    let g ← from_ 0
    let b ← from_ 1
    pure (g ++ b)

/-! ### The tray -/

/-- Tray entry `i` of a Sieve as a pair of values. -/
def trayIndex (die sv i : Nat) : Nat := (die * 4 + sv) * 2 ^ 18 + i % 2 ^ 18

/-- The entry's word as the tray holds it; one that nothing has written is +0, or undefined since a replant (R278; entry 5). -/
def Dev.trayRaw (d : Dev) (k : Nat) : DWord :=
  match Tbl.get (fun _ => none) d.tray k with
  | some w => w
  | none => match Tbl.get (fun _ => 0) d.trayFree (k / 2 ^ 18) with
    | 0 => 0#64
    | n + 1 => Config.freeTray n k

/-- The entry's word as the tray's checker delivers it. -/
def Dev.trayWord (d : Dev) (k : Nat) : DWord :=
  checkedWord (d.trayRaw k, d.syndOf (trayKey k))

/-- An entry is stored. -/
def Dev.setTray (d : Dev) (k : Nat) (w : DWord) : Dev :=
  ({ d with tray := Tbl.set (fun _ => none) d.tray k (some w) }).setSynd (trayKey k) 0#8

/-- A pair of binary32 values as an entry, and an entry as a pair. -/
def trayPack (p : Val × Val) : DWord :=
  let c (v : Val) : Nat := (Fmt.binary32.deliver .nearest true 0 v).1
  BitVec.ofNat 64 (c p.1 + c p.2 * 2 ^ 32)
def trayPair (w : DWord) : Val × Val := (Fmt.binary32.decode (w.toNat % 2 ^ 32), Fmt.binary32.decode (w.toNat / 2 ^ 32))

/-! ### Rows -/

/-- A command's deeds so far: the device, rows done, flags, image accumulators of γ and β, and the cause that ended it. -/
structure SieveWalk where
  dev   : Dev
  flags : FlagSet
  done  : Nat
  dg    : List Long
  db    : List Long
  cause : Option Nat

/-- The fault of a glasshouse range `off` bytes past an address, by the 64 KiB units that it meets: outside the bed's regions, or
beyond the glasshouse; with the die that refuses the access (09 R229, R230). -/
def Dev.ghRangeBad (d : Dev) (b : BedCfg) (a off n : Nat) : Option (Nat × Option Nat) :=
  if n = 0 then none
  else
    let die := bitsOf a 42 40
    let g := a % 2 ^ 26 + off
    (List.range ((g + n - 1) / 65536 - g / 65536 + 1)).findSome? (fun i =>
      let k := max g ((g / 65536 + i) * 65536)
      (d.ghFault b die k).map (fun e => (e, if b.inGh die k then none else some die)))

/-- The first of faults. -/
def firstFault : List (Option (Nat × Option Nat)) → Option (Nat × Option Nat) := fun l => l.findSome? id

/-- The bits of row `r` of Y, and those written: to the end of the row's last byte, or of its last group of three for a 6-bit
format, with zero bits (05 R121). -/
def SieveCmd.yBits (c : SieveCmd) : Nat := if c.isTray then 64 else c.n * (fmtOf c.fmtY).bits
def SieveCmd.yStart (c : SieveCmd) (r : Nat) : Nat := if c.yLoc = 1 then c.rowBit c.fmtY r else r * c.yBits
def SieveCmd.yWidth (c : SieveCmd) (r : Nat) : Nat :=
  let g := if !c.isTray && (fmtOf c.fmtY).bits == 6 then 24 else 8
  ceilDiv (c.yStart r + c.yBits) g * g - c.yStart r

/-- The fault that row `r`'s addresses give, before it is formed (R288). -/
def Dev.sieveRowFault (d : Dev) (b : BedCfg) (c : SieveCmd) (r : Nat) : Option (Nat × Option Nat) :=
  let gh (loc a code : Nat) : Option (Nat × Option Nat) :=
    if loc = 1 then d.ghRangeBad b a (c.rowBit code r / 8)
      ((c.rowBit code r % 8 + (if c.isTray then 64 else c.n * (fmtOf code).bits) + 7) / 8)
    else none
  firstFault [gh c.xLoc c.xAddr c.fmtX, gh c.zLoc c.zAddr c.fmtZ,
    if c.yLoc = 1 then d.ghRangeBad b c.yAddr (c.yStart r / 8) ((c.yStart r % 8 + c.yWidth r) / 8) else none]

/-- Row `r` reads an uncorrectable word of an operand, of the parameters or of the tray (R288). -/
def Dev.sieveRowBad (d : Dev) (die sv : Nat) (c : SieveCmd) (x : SieveRun) (r : Nat) : Bool :=
  let bad (loc a code : Nat) (at_ : Option Nat) : Bool :=
    loc != 0 && anyBadLane (d.sieveRowLanes c loc a code r at_).1
  let trayBad (i : Nat) : Bool := hedgeCheck (d.syndOf (trayKey (trayIndex die sv i))) == .bad
  bad c.xLoc c.xAddr c.fmtX x.xAt || bad c.zLoc c.zAddr c.fmtZ x.zAt || (c.op == 0x20 && trayBad (c.idx + r)) ||
    (c.readsIdx && trayBad (c.idx + r * c.stride)) || (c.op == 0x15 && trayBad (c.idx2 + r * c.stride)) ||
    (c.param && (d.sieve die sv).parBuf.any (fun w => hedgeCheck w.2 == .bad))

/-- The words of the operands and of the tray that row `r` reads meet their checkers. -/
def Dev.noteSieveRow (d : Dev) (die sv : Nat) (c : SieveCmd) (x : SieveRun) (r : Nat) : Dev :=
  let ks (loc a code : Nat) (at_ : Option Nat) : List Nat :=
    if loc = 0 then [] else (d.sieveRowLanes c loc a code r at_).2
  let t (b : Bool) (i : Nat) : List Nat := if b then [trayKey (trayIndex die sv i)] else []
  d.noteFrom x.bed (.die die (Router.ofSieve sv)) (ks c.xLoc c.xAddr c.fmtX x.xAt ++ ks c.zLoc c.zAddr c.fmtZ x.zAt ++
    t (c.op == 0x20) (c.idx + r) ++ t c.readsIdx (c.idx + r * c.stride) ++ t (c.op == 0x15) (c.idx2 + r * c.stride))

/-- The words of the parameter buffer meet its checker (R270, R288). -/
def Dev.noteParams (d : Dev) (die sv bed : Nat) (c : SieveCmd) : Dev :=
  let ws := (d.sieve die sv).parBuf
  if c.param then ((List.range ws.length).zip ws).foldl (fun d w => d.noteStore (.sieve die sv) bed (8 * w.1) w.2.2) d else d

/-- Bits are written over stored bytes from a bit on: the bytes they touch, merged. -/
def mergeBits (old : List Byte) (s : Nat) (bits w : Nat) : List Byte :=
  leBytes old.length (putBits (leNat old) (s + bits - 1) s w)

/-- A row's codes are written to Y at its place. -/
def Dev.storeSieveRow (d : Dev) (c : SieveCmd) (x : SieveRun) (r : Nat) (w : Nat) : Dev :=
  let s := c.yStart r
  let bits := c.yWidth r
  let n := (s % 8 + bits) / 8
  if bits = 0 then d
  else if c.yLoc = 1 then
    let p := ghPlace c.yAddr (s / 8)
    d.writeBytes .gh p (mergeBits (d.readBytes .gh p n) (s % 8) bits w)
  else match x.yAt, d.furOfAddr c.yAddr with
    | some k, some f =>
      let old := laneBytes (d.furLanes f.1 f.2.1 f.2.2 (k + s / 8) n)
      d.furWrite f.1 f.2.1 f.2.2 (k + s / 8) (lanesOf (mergeBits old (s % 8) bits w))
    | _, _ => d

/-- The row buffer holds the elements of a row last read, in binary32; streamed rows do not pass through it (R270, R283). -/
def Dev.fillRowBuf (d : Dev) (die sv : Nat) (c : SieveCmd) (xs : List Val) : Dev :=
  if c.stream then d
  else d.setSieve die sv { d.sieve die sv with rowBuf := bufPack (xs.map (fun v => (Fmt.binary32.deliver .nearest true 0 v).1)) }

/-- Codes of elements of `b` bits as one number, the first lowest. -/
def codesNat (b : Nat) : List Nat → Nat
  | [] => 0
  | c :: cs => c % 2 ^ b + 2 ^ b * codesNat b cs

/-- The zero-denominator guard is in force for a command (R275). -/
def Dev.guardOn (d : Dev) (die sv : Nat) (c : SieveCmd) : Bool :=
  c.zg == 1 || (c.zg == 0 && d.isSet (.sieve die sv) Reg.SIEVE_CTL.ZGUARD)

/-- The delivery of Y. -/
def SieveCmd.delivery (c : SieveCmd) (b : BedCfg) : Delivery where
  fmt := fmtOf c.fmtY
  tscale := c.tsY
  rnd := (Rnd.ofCode c.rnd ((Rnd.ofCode b.round .nearest).getD .nearest)).getD .nearest
  ieee := (ieeeMode (fmtOf c.fmtY) c.ovf b.ieee).getD false
  key := ⟨b.jobSeed, c.tensor, c.step⟩
  row0 := c.row0
  col0 := c.col0

/-- One row of a numeric operation: Y, tray entries, and the images' accumulators. -/
def SieveWalk.numeric (s : SieveWalk) (b : BedCfg) (die sv : Nat) (c : SieveCmd) (x : SieveRun) (g be : List Val) (r : Nat) :
    SieveWalk :=
  let d := s.dev
  let run : Flagged (SieveRowOut × List Val) := do
    let xs ← c.vals c.xLoc c.fmtX c.tsX r (d.sieveRowLanes c c.xLoc c.xAddr c.fmtX r x.xAt).1
    let z : Option (List Val) ← (do
      if c.zLoc = 0 then pure none
      else
        let zs ← c.vals c.zLoc c.fmtZ c.tsZ r (d.sieveRowLanes c c.zLoc c.zAddr c.fmtZ r x.zAt).1
        pure (some zs))
    let t1 := trayPair (d.trayWord (trayIndex die sv (c.idx + r * c.stride)))
    let t2 := trayPair (d.trayWord (trayIndex die sv (c.idx2 + r * c.stride)))
    let row ← sieveRow ⟨c.op, c.func, c.keep, c.use, d.guardOn die sv c, Fmt.binary32.decode c.eps, Fmt.binary32.decode c.scale,
      (c.delivery b).rnd == .down, fun i => c.mask && decide (c.qPos + r < c.kPos + i), xs, z, g, be, t1, t2⟩
    pure (row, xs)
  let o := run.run 0#5
  let out := o.1.1
  let y := (c.delivery b).row r out.y
  let d0 := d.fillRowBuf die sv c o.1.2
  let d1 := if c.hasY then d0.storeSieveRow c x r (codesNat (fmtOf c.fmtY).bits y.1) else d0
  let d2 := match out.w1 with
    | some p => d1.setTray (trayIndex die sv (c.idx + r * c.stride)) (trayPack p)
    | none => d1
  let d3 := match out.w2 with
    | some p => d2.setTray (trayIndex die sv (c.idx2 + r * c.stride)) (trayPack p)
    | none => d2
  let d4 := if out.subst then (d3.countSat (.sieve die sv) Reg.SIEVE_GUARD_CNT.COUNT 1).setFld (.sieve die sv)
      Reg.SIEVE_STS.GUARD 1 else d3
  let img := c.images
  { s with
    dev := d4, done := s.done + 1, flags := s.flags ||| o.2 ||| (if c.hasY then y.2.2 else 0#5)
    dg := if img then (s.dg.zip (out.dy.zip out.t)).map (fun p => p.1.add [p.2.1.mul p.2.2]) else s.dg
    db := if img then (s.db.zip out.dy).map (fun p => p.1.add [p.2]) else s.db }

/-- One row of TRAY_OUT or TRAY_IN: an entry with its check bits. -/
def SieveWalk.tray (s : SieveWalk) (die sv : Nat) (c : SieveCmd) (x : SieveRun) (r : Nat) : SieveWalk :=
  let d := s.dev
  let k := trayIndex die sv (c.idx + r)
  let d1 :=
    if c.op = 0x20 then
      d.storeSieveRow c x r (d.trayWord k).toNat
    else d.setTray k (BitVec.ofNat 64 (leNat (laneBytes (d.sieveRowLanes c c.xLoc c.xAddr c.fmtX r x.xAt).1)))
  { s with dev := d1, done := s.done + 1 }

/-- Rows from `r` on, `n` of them, until one ends the command. -/
def SieveWalk.rows (b : BedCfg) (die sv : Nat) (c : SieveCmd) (x : SieveRun) (g be : List Val) : Nat → Nat → SieveWalk → SieveWalk
  | _, 0, s => s
  | r, n + 1, s =>
    if s.cause.isSome then s
    else match s.dev.sieveRowFault b c r with
    | some e => { s with dev := s.dev.countRefused e.2, cause := some e.1 }
    | none =>
      let s1 := { s with dev := s.dev.noteSieveRow die sv c x r }
      if s.dev.sieveRowBad die sv c x r then { s1 with cause := some Cause.ueConvert }
      else SieveWalk.rows b die sv c x g be (r + 1) n
        (if c.isTray then s1.tray die sv c x r else s1.numeric b die sv c x g be r)

/-- The bytes of the parameter arrays that a command reads. -/
def SieveCmd.paramBytes (c : SieveCmd) : Nat := if c.param then 2 * (fmtOf c.fmtP).packedBytes c.n else 0

/-- Images that a command leaves: γ's, and β's of LNORM_B (R280). -/
def SieveCmd.imgCount (c : SieveCmd) : Nat := if c.images then (if c.op = 0x11 then 2 * c.n else c.n) else 0

/-- The command combines its images with those in memory (R280). -/
def SieveCmd.accum (c : SieveCmd) : Bool := c.imgCount != 0 && c.func / 2 % 2 == 1

/-- The parameters come into the buffer, or the fault that their range or their words give (R270, R288). -/
def Dev.loadParams (d : Dev) (b : BedCfg) (die sv bed : Nat) (c : SieveCmd) : Dev × FlagSet × Option Nat :=
  if !c.param then (d, 0#5, none)
  else match d.ghRangeBad b c.pAddr 0 c.paramBytes with
    | some e => (d.countRefused e.2, 0#5, some e.1)
    | none =>
      let d1 := d.noteFrom bed (.die die (Router.ofSieve sv)) (Mem.gh.wordsOf (ghPlace c.pAddr 0) c.paramBytes)
      if d.anyBad .gh (ghPlace c.pAddr 0) c.paramBytes then (d1, 0#5, some Cause.ueConvert)
      else
        let p := (d.sieveParams c).run 0#5
        (d1.setSieve die sv { d1.sieve die sv with parBuf := bufPack p.1 }, p.2, none)

/-- The images are combined with those at IMG_ADDR where IMG_ACCUM asks, and written (R280). A combination that 06 R163 refuses
leaves the image in memory as it is; `true`: there was one. -/
def Dev.storeImages (d : Dev) (c : SieveCmd) (as : List Long) : Dev × Bool :=
  ((List.range as.length).zip as).foldl (fun s p =>
    let place := ghPlace c.iAddr (96 * p.1)
    if !c.accum then (s.1.writeBytes .gh place p.2.bytes, s.2)
    else match (Long.ofBytes (s.1.readBytes .gh place 96)).filter (fun o => !o.wide) with
      | some o => (s.1.writeBytes .gh place (o.combine p.2).bytes, s.2)
      | none => (s.1, true)) (d, false)

/-- A refused combination is reported: the command ends with a cause that the spec does not name (06 R163; entry 22). -/
def SieveWalk.combined (s : SieveWalk) (r : Dev × Bool) : SieveWalk :=
  if r.2 then { s with dev := r.1.takeFree.2, cause := some (Config.freeCause r.1.takeFree.1).toNat } else { s with dev := r.1 }

/-- The data of a command's bench operands, `rows` rows of Y, crosses the lattice ports of the benches (R269, 09 R214). -/
def Dev.sieveLines (d : Dev) (c : SieveCmd) (x : SieveRun) (rows : Nat) : Dev :=
  let use (a n : Nat) (at_ : Option Nat) (write : Bool) (d : Dev) : Dev :=
    match at_, d.furOfAddr a with
    | some k, some f => d.useLines f.1 f.2.1 f.2.2 k n clsLattice write
    | _, _ => d
  use c.yAddr (c.bytes c.fmtY rows) x.yAt true (use c.zAddr (c.bytes c.fmtZ c.rows) x.zAt false
    (use c.xAddr (c.bytes c.fmtX c.rows) x.xAt false d))

/-- A command's rows, then its images (R271 to R282, R288); the places of the images are checked first (entry 49). -/
def Dev.sieveWalk (d : Dev) (b : BedCfg) (die sv : Nat) (c : SieveCmd) (x : SieveRun) (rows : Nat) : SieveWalk :=
  let fault := d.ghRangeBad b c.iAddr 0 (96 * c.imgCount)
  let imgs := if c.accum then Mem.gh.wordsOf (ghPlace c.iAddr 0) (96 * c.imgCount) else []
  let d1 := match fault with
    | some e => d.countRefused e.2
    | none => (d.sieveLines c x rows).noteParams die sv x.bed c
  let zs := if c.imgCount = 0 then [] else List.replicate c.n (Long.start false)
  let vals (k : Nat) : List Val :=
    if c.param then (bufCodes (d.sieve die sv).parBuf (k * c.n) c.n).map Fmt.binary32.decode else []
  let s := SieveWalk.rows b die sv c x (vals 0) (vals 1) 0 rows ⟨d1, x.flags, 0, zs, zs, fault.map (fun e => e.1)⟩
  if s.cause.isSome || c.imgCount = 0 then s
  else
    let d2 := s.dev.noteFrom x.bed (.die die (Router.ofSieve sv)) imgs
    if c.accum && s.dev.anyBad .gh (ghPlace c.iAddr 0) (96 * c.imgCount) then { s with dev := d2, cause := some Cause.ueConvert }
    else s.combined (d2.storeImages c (s.dg ++ if c.op = 0x11 then s.db else []))

end Machine
end Sys2Proof
end

