-- ==== Sys2Proof/Machine/Sieve.lean ====
section
/-! DEFINITION. The commands of the Sieves (11 R276, R278, R284 to R288). -/
namespace Sys2Proof
namespace Machine

/-- A Sieve's run after `g`. -/
def Dev.modSieve (d : Dev) (die sv : Nat) (g : SieveRun → SieveRun) : Dev :=
  let s := d.sieve die sv
  match s.run with
  | some x => d.setSieve die sv { s with run := some (g x) }
  | none => d

/-- A run of a command that has just been accepted. -/
def SieveRun.begin (i : Item) : SieveRun := ⟨i.seq, i.bed, i.openT, i.cfg.cmd, false, none, none, none, none, none, 0#5, none⟩

/-- A Sieve that runs none and clears no tray takes the first command it has accepted (R286). -/
def Dev.sieveNext (d : Dev) (die sv : Nat) : Dev :=
  let st := d.sieve die sv
  if st.run.isSome || d.fld (.sieve die sv) Reg.SIEVE_STS.STATE == 3 then d
  else match d.firstAccepted die .sieve sv with
    | some i => (d.setSieve die sv { st with run := some (.begin i) }).setFld (.sieve die sv) Reg.SIEVE_STS.STATE 2
    | none => d

/-- SIEVE_ISSUE: a Sieve accepts its next SIEVE item, or refuses it on the first failing check: REFUSED and CAUSE,
the item goes, and its bed halts (R284, R286). -/
def execSieveIssue (t die sieve : Nat) (s : State) : Host.Outcome State Fault Refusal :=
  s.run t (.sieve die sieve) (fun d =>
    let b := Blk.sieve die sieve
    match d.nextItem die .sieve sieve with
    | none => d
    | some i => match d.bed i.bed with
      | none => d
      | some x =>
        let code := d.sieveRefusal die sieve i.bed x.cfg (SieveCmd.ofBytes i.cfg.cmd)
        if code ≠ 0 then
          let d1 := (d.setFld b Reg.SIEVE_STS.REFUSED 1).setFld b Reg.SIEVE_STS.CAUSE code
          { d1 with items := d1.items.filter (fun j => j.seq != i.seq) }.haltBed i.bed 3
        else (d.acceptItem i.seq).sieveNext die sieve)

/-- The command has its input barrow and the ranges of its bench inputs, filled as they are once claimed (R285, R286, 09
R221). -/
def SieveRun.inputsHere (x : SieveRun) : Bool :=
  let c := SieveCmd.ofBytes x.cmd
  (c.inQ == 0xFFFF || x.input.isSome) && (c.xLoc != 2 || x.xAt.isSome) && (c.zLoc != 2 || x.zAt.isSome)

/-- The input barrow that the command is to read by no longer lies in its slot (10 R249). -/
def Dev.sieveStale (d : Dev) (x : SieveRun) : Bool := x.input.any (fun k => !d.takenFresh k)

/-- The command begins: its parameters come into the buffer, or a fault ends it (R270, R285, R288). -/
def Dev.sieveBegins (d : Dev) (b : BedCfg) (die sv : Nat) (x : SieveRun) : Dev :=
  let p := if d.sieveStale x then (d, 0#5, some Cause.stale) else d.loadParams b die sv x.bed (SieveCmd.ofBytes x.cmd)
  (p.1.setSieve die sv { p.1.sieve die sv with
    startT := p.1.now, run := some { x with started := true, flags := p.2.1, poison := p.2.2 } }).setFld
      (.sieve die sv) Reg.SIEVE_STS.STATE 1

/-- SIEVE_START: the command begins once its inputs are filled (R285). -/
def execSieveStart (t die sieve : Nat) (s : State) : Host.Outcome State Fault Refusal :=
  s.run t (.sieve die sieve) (fun d =>
    match (d.sieve die sieve).run with
    | none => d
    | some x => match d.bed x.bed with
      | none => d
      | some b => if x.started || x.poison.isSome || !x.inputsHere then d else d.sieveBegins b.cfg die sieve x)

/-- The bed of a command stops it before its last row: it is HALTED, or a replant of it is in CONFIG (R287). -/
def Dev.bedStopsEarly (d : Dev) (bed : Nat) : Bool :=
  match d.bed bed with
  | some x => x.state == .halted || (x.state == .replant && d.fld .trellis Reg.TRELLIS_STS.LSTATE == 4)
  | none => false

/-- The bytes that `rows` rows take at Y, and the location of Y; without Y both are 0 (R286, Table 10.7). -/
def SieveCmd.yBytes (c : SieveCmd) (rows : Nat) : Nat :=
  if !c.hasY then 0 else if c.yLoc = 2 then round64 (c.bytes c.fmtY rows) else c.bytes c.fmtY rows
def Dev.sieveYAddr (d : Dev) (c : SieveCmd) (x : SieveRun) : Nat :=
  if !c.hasY then 0
  else if c.yLoc = 2 then
    match d.furOfAddr c.yAddr with
    | some f =>
      let g := d.fur f.1 f.2.1 f.2.2
      bitsOf c.yAddr 56 48 * 2 ^ 48 + f.2.2 * 2 ^ 32 + (x.yAt.getD g.head) % g.bytes
    | none => c.yAddr
  else c.yAddr

/-- A bench operand's range is released (R286). -/
def Dev.releaseInput (d : Dev) (a n : Nat) (at_ : Option Nat) : Dev :=
  match at_, d.furOfAddr a with
  | some k, some f => d.modFur f.1 f.2.1 f.2.2 (fun g => g.release k n)
  | _, _ => d

/-- The rounding bytes after `rows` rows of Y are written as zeros, and the claim's lines are marked filled: those of the rows that
are done, or all of a POISONED command's (R287, 09 Table 9.4). -/
def Dev.sieveFill (d : Dev) (c : SieveCmd) (x : SieveRun) (rows : Nat) (poisoned : Bool) : Dev :=
  match x.yAt, d.furOfAddr c.yAddr with
  | some k, some f =>
    let n := c.bytes c.fmtY rows
    if c.yLoc = 2 then
      ((if poisoned then d else d.furWrite f.1 f.2.1 f.2.2 (k + n) (lanesOf (List.replicate (c.yBytes rows - n) 0#8))).modFur f.1
        f.2.1 f.2.2 (fun g => g.fillRange k (c.yBytes (if poisoned then c.rows else rows))))
    else d
  | _, _ => d

/-- Core cycles in RUN are counted (Table 11.9). -/
def Dev.sieveRan (d : Dev) (die sv : Nat) (x : SieveRun) : Dev :=
  if x.started then d.countSat (.sieve die sv) Reg.SIEVE_BUSY.CYCLES (d.cyclesFrom (d.sieve die sv).startT d.now) else d

/-- The command retires: its lines are marked filled, its inputs released, one barrow posted where it has a slot; a cause, or a slot
generation that no longer matches, makes that barrow POISONED, and puts the queue in ERROR or without one halts the bed (R286,
R288, 10 R249, R260). -/
def Dev.sieveEnds (d : Dev) (die sv : Nat) (x : SieveRun) (rows : Nat) (flags : FlagSet) (cause : Option Nat) : Dev :=
  let c := SieveCmd.ofBytes x.cmd
  let b := Blk.sieve die sv
  let poisonC := match cause with
    | some e => some e
    | none => if d.sieveStale x then some Cause.stale else none
  let late := d.isLate (deadline48 x.openT c.dryNs 0)
  let bar : Barrow := ⟨d.sieveYAddr c x, c.yBytes (if poisonC.isSome then c.rows else rows), 0, if c.hasY then c.yLoc else 0, 3,
    true, if poisonC.isSome then 0#5 else flags, false, poisonC.isSome, late, poisonC.getD 0⟩
  let d1 := (d.sieveRan die sv x).sieveFill c x rows poisonC.isSome
  let d2 := (d1.releaseInput c.xAddr (c.bytes c.fmtX c.rows) x.xAt).releaseInput c.zAddr (c.bytes c.fmtZ c.rows) x.zAt
  let d3 := match x.input with
    | some t => (d2.releaseSlot t).1
    | none => d2
  let posted := match x.claimed with
    | some k => d3.postAt k bar
    | none => (d3, true)
  let d4 := posted.1
  let fault := if posted.2 then poisonC else some Cause.stale
  let d5 := match fault with
    | some e => (d4.setFld b Reg.SIEVE_STS.FAULT 1).setFld b Reg.SIEVE_STS.CAUSE e
    | none => d4
  let d6 := match poisonC with
    | some e =>
      let d6 := if x.claimed.isSome then d5.poisonBed x.bed else d5
      match queueOf c.queue with
        | some q => d6.queueError q e
        | none => d6.haltBed x.bed 3
    | none => d5
  (((d6.setSieve die sv { d6.sieve die sv with run := none }).setFld b Reg.SIEVE_STS.STATE 0).retireItem x.seq).sieveNext die sv

/-- The command has what its retirement needs: it has started or is poisoned, its output range unless poisoned, and a slot
where it names a queue; one that its bed stops waits for neither (R287). -/
def SieveRun.mayRetire (x : SieveRun) (stops : Bool) : Bool :=
  let c := SieveCmd.ofBytes x.cmd
  (x.poison.isSome || (x.started && (c.yLoc != 2 || x.yAt.isSome || stops))) && (c.queue == 0xFFFF || x.claimed.isSome || stops)

/-- The rows that the command may have done: all, or some where its bed stops it early; none without the range that Y needs. -/
def SieveRun.rowsOk (x : SieveRun) (stops : Bool) (rows : Nat) : Bool :=
  let c := SieveCmd.ofBytes x.cmd
  if c.yLoc = 2 ∧ x.yAt = none then rows == 0
  else rows == c.rows || (decide (rows < c.rows) && stops)

/-- SIEVE_RETIRE: the command's rows are done, `rows` of them where its bed stops it early, and it retires (R272, R286 to
R288). -/
def execSieveRetire (t die sieve rows : Nat) (s : State) : Host.Outcome State Fault Refusal :=
  s.run t (.sieve die sieve) (fun d =>
    match (d.sieve die sieve).run with
    | none => d
    | some x => match d.bed x.bed with
      | none => d
      | some bed =>
        let stops := d.bedStopsEarly x.bed
        if !x.mayRetire stops || d.lost.contains (.sieve die sieve) then d
        else match x.poison with
          | some e => d.sieveEnds die sieve x 0 0#5 (some e)
          | none =>
            if !x.rowsOk stops rows then d
            else
              let w := d.sieveWalk bed.cfg die sieve (SieveCmd.ofBytes x.cmd) x rows
              (w.dev.countWrap (.sieve die sieve) Reg.SIEVE_ROWS.COUNT w.done).sieveEnds die sieve x w.done w.flags w.cause)

/-! ### The tray and SIEVE_CTL -/

/-- CMD = TRAY_CLEAR: accepted only while the Sieve is IDLE, with no command running (R278). -/
def Dev.trayClearCmd (d : Dev) (die sv : Nat) : Dev :=
  let b := Blk.sieve die sv
  if d.fld b Reg.SIEVE_STS.STATE = 0 ∧ (d.sieve die sv).run = none then
    (d.setFld b Reg.SIEVE_STS.STATE 3).setSieve die sv { d.sieve die sv with clearT := some d.now }
  else d.setFld b Reg.SIEVE_STS.CMD_IGN 1

/-- SIEVE_CTL takes the merged word `new`, and the command in `cmd` starts (Table 11.7). -/
def Dev.sieveCtlWritten (d : Dev) (die sv : Nat) (new cmd : Word) : Dev :=
  let d1 := d.setWord (.sieve die sv) 0x0 new
  match bitsOf cmd.toNat 3 0 with
  | 0 => d1
  | 1 => d1.trayClearCmd die sv
  | _ => d1.setFld (.sieve die sv) Reg.SIEVE_STS.CMD_IGN 1

/-- TRAY_CLEAR (R278). -/
def execTrayClear (t : Nat) (src : Source) (die sieve : Nat) (s : State) : Host.Outcome State Fault Refusal :=
  s.access t src (.sieve die sieve) (fun d => d.cmdRow src (.sieve die sieve) 0x0 (fun d => d.trayClearCmd die sieve))

/-- Every entry of a Sieve's tray is +0 with clean check bits. -/
def Dev.clearTray (d : Dev) (die sv : Nat) : Dev :=
  let key (k : Nat) : Bool := k / 2 ^ 44 == 3 && k % 2 ^ 44 / 2 ^ 18 == die * 4 + sv
  { d.renewTray (die * 4 + sv) 0 with synd := d.synd.filter (fun e => !key e.1), rewrites := d.rewrites.filter (fun k => !key k) }

/-- TRAY_CLEAR_DONE: 32,768 core cycles after the command, every entry is +0 and the Sieve is IDLE (R278). -/
def execTrayClearDone (t die sieve : Nat) (s : State) : Host.Outcome State Fault Refusal :=
  s.run t (.sieve die sieve) (fun d =>
    match (d.sieve die sieve).clearT with
    | some c =>
      if d.fld (.sieve die sieve) Reg.SIEVE_STS.STATE = 3 ∧ c + 32768 * coreCycle ≤ d.now then
        (((d.clearTray die sieve).setSieve die sieve { d.sieve die sieve with clearT := none }).setFld (.sieve die sieve)
          Reg.SIEVE_STS.STATE 0).sieveNext die sieve
      else d
    | none => d)

/-- SIEVE_TRAY_A or SIEVE_TRAY_B (offset `o`) takes the merged word `new`: only while IDLE, else CMD_IGN; a write of B
stores the whole entry at SIEVE_TRAY_IDX (Table 11.9). -/
def Dev.trayWritten (d : Dev) (die sv o : Nat) (new : Word) : Dev :=
  let b := Blk.sieve die sv
  if d.fld b Reg.SIEVE_STS.STATE ≠ 0 then d.setFld b Reg.SIEVE_STS.CMD_IGN 1
  else if o = 0x24 then d.setWord b 0x24 new
  else (d.setWord b 0x28 new).setTray (trayIndex die sv (d.fld b Reg.SIEVE_TRAY_IDX.ENTRY))
    (BitVec.ofNat 64 (new.toNat * 2 ^ 32 + (d.word b 0x24).toNat))

/-- SIEVE_TRAY_WRITE: the write of SIEVE_TRAY_B (R276, Table 11.9). -/
def execSieveTrayWrite (t : Nat) (src : Source) (die sieve : Nat) (data : Word) (s : State) : Host.Outcome State Fault Refusal :=
  s.access t src (.sieve die sieve) (fun d => d.rowWrite src (.sieve die sieve) 0x28 (fun d => d.trayWritten die sieve 0x28 data))

end Machine
end Sys2Proof
end

