-- ==== Sys2Proof/Machine/Mower.lean ====
section
/-! DEFINITION. The Mowers (12): their command and its checks, the square norm, the update and the working copy block by
block, and their registers. -/
namespace Sys2Proof
namespace Machine

/-! ### The command (Table 12.3) -/

/-- The fields of a Mower command; `zeros`: its must-be-0 fields are 0. -/
structure MowCmd where
  op    : Nat
  endStep : Bool
  accum : Bool
  rndM  : Nat
  rndW  : Nat
  ovfW  : Nat
  fmtG  : Nat
  fmtW  : Nat
  tsW   : Nat
  n     : Nat
  queue : Nat
  inQ   : Nat
  gAddr : Nat
  mAddr : Nat
  msAddr : Nat
  wAddr : Nat
  wsAddr : Nat
  imgAddr : Nat
  tagAddr : Nat
  tagCount : Nat
  gLoc  : Nat
  mLoc  : Nat
  wLoc  : Nat
  iLoc  : Nat
  dryNs : Nat
  tensorM : Nat
  tensorW : Nat
  e0    : Nat
  zeros : Bool
  deriving DecidableEq, Repr

/-- The fields of a command's 128 bytes. -/
def MowCmd.ofBytes (c : List Byte) : MowCmd where
  op := cmdNum c 0 1
  endStep := (cmdNum c 1 1).testBit 0
  accum := (cmdNum c 1 1).testBit 1
  rndM := bitsOf (cmdNum c 2 1) 2 0
  rndW := bitsOf (cmdNum c 3 1) 2 0
  ovfW := bitsOf (cmdNum c 3 1) 4 3
  fmtG := bitsOf (cmdNum c 4 1) 4 0
  fmtW := bitsOf (cmdNum c 5 1) 4 0
  tsW := cmdNum c 6 1
  n := cmdNum c 8 4
  queue := cmdNum c 0xC 2
  inQ := cmdNum c 0xE 2
  gAddr := cmdNum c 0x10 8
  mAddr := cmdNum c 0x18 8
  msAddr := cmdNum c 0x20 8
  wAddr := cmdNum c 0x28 8
  wsAddr := cmdNum c 0x30 8
  imgAddr := cmdNum c 0x38 8
  tagAddr := cmdNum c 0x40 8
  tagCount := cmdNum c 0x48 2
  gLoc := bitsOf (cmdNum c 0x4A 1) 1 0
  mLoc := bitsOf (cmdNum c 0x4A 1) 3 2
  wLoc := bitsOf (cmdNum c 0x4A 1) 5 4
  iLoc := bitsOf (cmdNum c 0x4A 1) 7 6
  dryNs := cmdNum c 0x4C 4
  tensorM := cmdNum c 0x50 4
  tensorW := cmdNum c 0x54 4
  e0 := cmdNum c 0x58 8
  zeros := decide (cmdNum c 1 1 < 4 ∧ cmdNum c 2 1 < 8 ∧ cmdNum c 3 1 < 32 ∧ cmdNum c 4 1 < 32 ∧ cmdNum c 5 1 < 32) &&
    cmdNum c 7 1 == 0 && cmdNum c 0x4B 1 == 0 && cmdNum c 0x60 32 == 0 &&
    (decide (0xC ≤ bitsOf (cmdNum c 5 1) 4 0 ∧ bitsOf (cmdNum c 5 1) 4 0 ≤ 0x11) || cmdNum c 0x30 8 == 0) &&
    (cmdNum c 0 1 == 2 || (cmdNum c 0x40 8 == 0 && cmdNum c 0x48 2 == 0))

/-- What the operation uses (Table 12.1): G, M and its scales, W and its scales, the image, the tags. -/
def MowCmd.usesG (c : MowCmd) : Bool := c.op == 1 || c.op == 2
def MowCmd.usesM (c : MowCmd) : Bool := c.op == 2 || c.op == 3
def MowCmd.usesImg (c : MowCmd) : Bool := c.op == 1 || c.op == 2

/-- The formats of G and W. -/
def MowCmd.fG (c : MowCmd) : Fmt := fmtOf c.fmtG
def MowCmd.fW (c : MowCmd) : Fmt := fmtOf c.fmtW

/-- Blocks of 32 elements. -/
def MowCmd.blocks (c : MowCmd) : Nat := c.n / 32

/-- An operand in memory: its location, address and bytes. -/
structure MemSpan where
  loc  : Nat
  addr : Nat
  n    : Nat
  deriving DecidableEq, Repr

/-- The operands that a command uses. -/
def MowCmd.spans (c : MowCmd) : List MemSpan :=
  (if c.usesG then [⟨c.gLoc, c.gAddr, c.fG.packedBytes c.n⟩] else []) ++
    (if c.usesM then [⟨c.mLoc, c.mAddr, 3 * c.n⟩, ⟨c.mLoc, c.msAddr, c.blocks⟩, ⟨c.wLoc, c.wAddr, c.fW.packedBytes c.n⟩] ++
      (if c.fW.isMx then [⟨c.wLoc, c.wsAddr, c.blocks⟩] else []) else []) ++
    (if c.usesImg then [⟨c.iLoc, c.imgAddr, 96⟩] else []) ++ (if c.op = 2 then [⟨c.iLoc, c.tagAddr, 16 * c.tagCount⟩] else [])

/-- Two operands overlap. -/
def MemSpan.overlaps (a b : MemSpan) : Bool :=
  a.loc == b.loc && a.n != 0 && b.n != 0 && decide (a.addr < b.addr + b.n ∧ b.addr < a.addr + a.n)

/-- Some two of the operands overlap. -/
def anyOverlap : List MemSpan → Bool
  | [] => false
  | x :: xs => xs.any (fun y => x.overlaps y) || anyOverlap xs

/-- The code of the first check of Table 12.4 that a command fails at issue, 0 if none (R303). An address with bits that its
location does not use has a nonzero must-be-0 field, and a BS24 element of 3 bytes asks no alignment (DEDUCED, entry 26). -/
def Dev.mowRefusal (d : Dev) (die bed : Nat) (c : MowCmd) : Nat :=
  let wOk := (decide (1 ≤ c.fmtW ∧ c.fmtW ≤ 0x11)) && (Fmt.ofCode c.fmtW).isSome
  let gOk := decide (1 ≤ c.fmtG ∧ c.fmtG ≤ 3)
  let unaligned (f : Fmt) (a : Nat) : Bool := (f.bits == 32 && a % 4 != 0) || (f.bits == 16 && a % 2 != 0)
  if !(decide (1 ≤ c.op ∧ c.op ≤ 3)) || !c.zeros || c.spans.any (fun s => decide (s.loc < 2) && !addrOk s.loc s.addr) then 0x50
  else if (c.usesG && !gOk) || (c.usesM && !wOk) || (Fmt.ofCode c.fmtG).isNone || (Fmt.ofCode c.fmtW).isNone || c.rndM == 6 || c.rndW == 6 || c.ovfW == 2 then 0x51
  else if c.n % 32 != 0 || (c.op == 2 && !(decide (1 ≤ c.tagCount ∧ c.tagCount ≤ 1024))) || (c.usesG && unaligned c.fG c.gAddr) ||
      (c.usesM && unaligned c.fW c.wAddr) then 0x52
  else if c.spans.any (fun s => decide (2 ≤ s.loc)) then 0x53
  else if anyOverlap c.spans then 0x54
  else if (c.queue != 0xFFFF && !d.queueOk (.mower die) bed c.queue) ||
      (c.inQ != 0xFFFF && !(d.isBarrowQueue c.inQ && d.qfld c.inQ Ctx.bed == bed && !d.queueInError c.inQ)) then 0x57
  else 0

/-! ### Runs -/

/-- A Mower's run after `g`. -/
def Dev.modMow (d : Dev) (die : Nat) (g : MowerRun → MowerRun) : Dev :=
  let s := d.mower die
  match s.run with
  | some x => d.setMower die { s with run := some (g x) }
  | none => d

/-- The binary64 value in a LO and HI pair of a Mower, and the device with another. -/
def Dev.mow64 (d : Dev) (die : Nat) (lo hi : Fld) : Val :=
  Fmt.binary64.decode (d.fld (.mower die) hi * 2 ^ 32 + d.fld (.mower die) lo)
def Dev.setMow64 (d : Dev) (die : Nat) (lo hi : Fld) (v : Val) : Dev :=
  let c := (Fmt.binary64.deliver .nearest true 0 v).1
  (d.setFld (.mower die) lo (c % 2 ^ 32)).setFld (.mower die) hi (c / 2 ^ 32)

/-- The schedule in a Mower's registers. -/
def Dev.schedule (d : Dev) (die : Nat) : Schedule :=
  let b := Blk.mower die
  { mult := d.fld b Reg.ALM_CFG.MULT, clip := d.isSet b Reg.ALM_CFG.CLIP_EN, decay := d.fld b Reg.ALM_CFG.DECAY,
    warmup := d.fld b Reg.ALM_WARMUP.STEPS, decaySteps := d.fld b Reg.ALM_DECAY_STEPS.STEPS,
    period := d.fld b Reg.ALM_PERIOD.STEPS, stepInt := d.fld b Reg.ALM_STEP_INT.STEPS,
    etaInit := d.mow64 die Reg.ALM_ETA_INIT_LO.ETA_INIT Reg.ALM_ETA_INIT_HI.ETA_INIT,
    etaPeak := d.mow64 die Reg.ALM_ETA_PEAK_LO.ETA_PEAK Reg.ALM_ETA_PEAK_HI.ETA_PEAK,
    etaMin := d.mow64 die Reg.ALM_ETA_MIN_LO.ETA_MIN Reg.ALM_ETA_MIN_HI.ETA_MIN,
    gamma := d.mow64 die Reg.ALM_GAMMA_LO.GAMMA Reg.ALM_GAMMA_HI.GAMMA,
    t := d.mow64 die Reg.MOW_CLIP_LO.T Reg.MOW_CLIP_HI.T }

/-- A command ends with a cause: its barrow will be POISONED; its queue enters ERROR, or without one its bed halts (R306, 10
R260). -/
def Dev.mowFault (d : Dev) (die cause : Nat) : Dev :=
  match (d.mower die).run with
  | none => d
  | some x =>
    let d1 := ((d.setFld (.mower die) Reg.MOW_STS.FAULT 1).setFld (.mower die) Reg.MOW_STS.CAUSE cause).modMow die
      (fun y => { y with begun := true, ended := true, poison := some cause })
    match queueOf (MowCmd.ofBytes x.cmd).queue with
    | some q => d1.queueError q cause
    | none => d1.haltBed x.bed 3

/-- The same at an access, which a glasshouse that refuses it counts. -/
def Dev.mowFaultAt (d : Dev) (die : Nat) (e : Nat × Option Nat) : Dev := (d.countRefused e.2).mowFault die e.1

/-! ### Operands -/

/-- The address of byte `i` of an operand. -/
def MemSpan.at (s : MemSpan) (i : Nat) : Mem × Nat := (locMem s.loc (s.addr + i)).getD (.hbm, 0)

/-- The fault that `n` bytes of an operand from byte `i` on give: their addresses, by the first and the last of them (no
boundary of a region lies between), then their words where they are read; with the die whose glasshouse refuses them (R306, 09
R230). -/
def Dev.mowCause (d : Dev) (b : BedCfg) (s : MemSpan) (i n : Nat) (write : Bool) : Option (Nat × Option Nat) :=
  let fault (k : Nat) : Option (Nat × Option Nat) :=
    let a := s.at k
    if s.loc = 0 then (d.hbmFault b write a.2).map (fun e => (e, none))
    else (d.ghFault b (a.2 / 2 ^ 26) (a.2 % 2 ^ 26)).map (fun e =>
      (e, if b.inGh (a.2 / 2 ^ 26) (a.2 % 2 ^ 26) then none else some (a.2 / 2 ^ 26)))
  if n = 0 then none
  else firstFault [fault i, fault (i + n - 1),
    if !write && d.anyBad (s.at i).1 (s.at i).2 n then some (Cause.ueConvert, none) else none]

/-- Bytes of an operand. -/
def Dev.spanBytes (d : Dev) (s : MemSpan) (i n : Nat) : List Byte := d.readBytes (s.at i).1 (s.at i).2 n

/-- Bytes of an operand meet their checkers, and bytes are written to one. -/
def Dev.spanNote (d : Dev) (to_ : Place) (bed : Nat) (s : MemSpan) (i n : Nat) : Dev :=
  d.noteFrom bed to_ ((s.at i).1.wordsOf (s.at i).2 n)
def Dev.spanWrite (d : Dev) (s : MemSpan) (i : Nat) (bs : List Byte) : Dev := d.writeBytes (s.at i).1 (s.at i).2 bs

/-- The operands. -/
def MowCmd.g (c : MowCmd) : MemSpan := ⟨c.gLoc, c.gAddr, c.fG.packedBytes c.n⟩
def MowCmd.m (c : MowCmd) : MemSpan := ⟨c.mLoc, c.mAddr, 3 * c.n⟩
def MowCmd.ms (c : MowCmd) : MemSpan := ⟨c.mLoc, c.msAddr, c.blocks⟩
def MowCmd.w (c : MowCmd) : MemSpan := ⟨c.wLoc, c.wAddr, c.fW.packedBytes c.n⟩
def MowCmd.ws (c : MowCmd) : MemSpan := ⟨c.wLoc, c.wsAddr, c.blocks⟩
def MowCmd.img (c : MowCmd) : MemSpan := ⟨c.iLoc, c.imgAddr, 96⟩
def MowCmd.tags (c : MowCmd) : MemSpan := ⟨c.iLoc, c.tagAddr, 16 * c.tagCount⟩

/-! ### Tags (R292) -/

/-- The tag `i`: its STEP, and the reason of Table 12.7 for which it fails against a step number, if any. -/
def Dev.tagStep (d : Dev) (c : MowCmd) (i : Nat) : Nat := numAt (d.spanBytes c.tags (16 * i) 16) 0 4
def Dev.tagFault (d : Dev) (c : MowCmd) (step i : Nat) : Option Nat :=
  let bs := d.spanBytes c.tags (16 * i) 16
  let st := numAt bs 8 1
  if numAt bs 0 4 ≠ step then some 0
  else if !st.testBit 0 then some 1
  else if 2 ≤ st || !allZero (bs.drop 9) then some 2
  else none

/-- The first failing tag with its reason. -/
def Dev.firstTagFault (d : Dev) (c : MowCmd) (step : Nat) : Option (Nat × Nat) :=
  (List.range c.tagCount).findSome? (fun i => (d.tagFault c step i).map (fun r => (i, r)))

/-- A failing tag holds the UPDATE in SKEW, recorded and logged (R292). -/
def Dev.enterSkew (d : Dev) (die : Nat) (x : MowerRun) (tag reason step : Nat) : Dev :=
  let b := Blk.mower die
  let d1 := ((((((d.setFld b Reg.MOW_STS.STATE 3).setFld b Reg.MOW_STS.STEP_SKEW 1).setFld b Reg.MOW_SKEW.VALID 1).setFld b
    Reg.MOW_SKEW.REASON reason).setFld b Reg.MOW_SKEW.TAG tag).setFld b Reg.MOW_SKEW_STEP.STEP step).modMow die
      (fun y => { y with begun := true, skew := true })
  d1.logPush { d1.entry b Ev.stepSkew 2 with bed := x.bed }

/-! ### The update (R295 to R298) -/

/-- The global norm image, as the value n2 comes from; `none`: 06 R162 makes it invalid, and n2 is a free value (entry 22). -/
def Dev.normImage (d : Dev) (c : MowCmd) : Option Long := Long.ofBytes (d.spanBytes c.img 0 96)

/-- The Mower refuses an UPDATE at its start (R300, R303): the item goes, its input barrow is released, its bed halts. -/
def Dev.refuseUpdate (d : Dev) (die : Nat) (x : MowerRun) (code : Nat) : Dev :=
  let b := Blk.mower die
  let d1 := match x.input with
    | some t => (d.releaseSlot t).1
    | none => d
  let d2 := ((d1.setFld b Reg.MOW_STS.REFUSED 1).setFld b Reg.MOW_STS.CAUSE code).setFld b Reg.MOW_STS.STATE 0
  { d2.setMower die { d2.mower die with run := none } with items := d2.items.filter (fun i => i.seq != x.seq) }.haltBed x.bed 3

/-- The step quantities of an UPDATE whose tags agree: η, the norm, c and k, or the outcome of a non-finite norm. -/
def Dev.startUpdate (d : Dev) (die : Nat) (x : MowerRun) (bc : BedCfg) (c : MowCmd) : Dev :=
  let b := Blk.mower die
  let a := d.schedule die
  let code := a.refusal
  if code ≠ 0 then d.refuseUpdate die x code
  else match d.mowCause bc c.img 0 96 false with
    | some e => (d.spanNote (.die die .mower) x.bed c.img 0 96).mowFaultAt die e
    | none =>
      let d1 := d.spanNote (.die die .mower) x.bed c.img 0 96
      let eta := (a.eta (d1.fld b Reg.MOW_STEP.STEP)).run 0#5
      let d2 := (d1.setMow64 die Reg.ALM_ETA_LO.ETA Reg.ALM_ETA_HI.ETA eta.1).setFld b Reg.MOW_STS.STATE 1
      let img := d2.normImage c
      if img.any (fun i => i.nan || i.posInf) then
        ((d2.setFld b Reg.MOW_STS.NONFINITE 1).setFld b Reg.MOW_STS.OUTCOME 2).modMow die (fun y => { y with
          begun := true, ended := true, flags := eta.2 ||| FlagSet.inv })
      else
        let n2 := match img with
          | some i => (i.result .nearest, d2)
          | none => (Fmt.binary64.decode (Config.freeNorm d2.takeFree.1).toNat, d2.takeFree.2)
        let q := (a.stepOf eta.1 n2.1).run eta.2
        let d3 := ((n2.2.setMow64 die Reg.MOW_NORM_LO.NORM Reg.MOW_NORM_HI.NORM q.1.1).setMow64 die Reg.MOW_C_LO.C
          Reg.MOW_C_HI.C q.1.2.1).setMow64 die Reg.MOW_K_LO.K Reg.MOW_K_HI.K q.1.2.2
        (d3.setFld b Reg.MOW_STS.OUTCOME (bit q.1.2.2.isZero)).modMow die (fun y => { y with
          begun := true, ended := c.n == 0, flags := q.2 })

/-- The master values of block `k` as stored (05 R125). -/
def Dev.masters (d : Dev) (c : MowCmd) (k : Nat) : List Val :=
  let s := (byteAt (d.spanBytes c.ms k 1) 0).toNat
  let bs := d.spanBytes c.m (96 * k) 96
  (List.range 32).map (fun i => (Fmt.bs24.elem bs i).underScale s)

/-- The row and column of element `i` for R133 (R302). -/
def MowCmd.draw (c : MowCmd) (key : DrawKey) (i : Nat) : Nat := key.draw ((c.e0 + i) / 4096) ((c.e0 + i) % 4096)

/-- One block of masters is written (R129, R295). -/
def Dev.writeMasters (d : Dev) (bc : BedCfg) (die : Nat) (c : MowCmd) (k : Nat) (vs : List Val) : Dev × FlagSet :=
  let rnd := (Rnd.ofCode c.rndM ((Rnd.ofCode bc.round .nearest).getD .nearest)).getD .nearest
  let key : DrawKey := ⟨bc.jobSeed, c.tensorM, d.fld (.mower die) Reg.MOW_STEP.STEP⟩
  let y := Fmt.bs24.deliverBlock rnd (((List.range 32).zip vs).map (fun p => (p.2, c.draw key (32 * k + p.1))))
  ((d.spanWrite c.m (96 * k) (Fmt.bs24.pack y.2.1)).spanWrite c.ms k [BitVec.ofNat 8 y.1], y.2.2)

/-- One block of the working copy is written from the stored masters (R296). -/
def Dev.writeCopy (d : Dev) (bc : BedCfg) (die : Nat) (c : MowCmd) (k : Nat) : Dev × FlagSet :=
  let f := c.fW
  let rnd := (Rnd.ofCode c.rndW ((Rnd.ofCode bc.round .nearest).getD .nearest)).getD .nearest
  let ieee := (ieeeMode f c.ovfW bc.ieee).getD false
  let key : DrawKey := ⟨bc.jobSeed, c.tensorW, d.fld (.mower die) Reg.MOW_STEP.STEP⟩
  let vs := ((List.range 32).zip (d.masters c k)).map (fun p => (p.2, c.draw key (32 * k + p.1)))
  let at_ := k * f.packedBytes 32
  if f.isMx then
    let y := f.deliverBlock rnd vs
    ((d.spanWrite c.w at_ (f.pack y.2.1)).spanWrite c.ws k [BitVec.ofNat 8 y.1], y.2.2)
  else
    let es := vs.map (fun v => f.deliverScaled (if f.tensorScaled then c.tsW else 0x7F) rnd ieee v.2 v.1)
    (d.spanWrite c.w at_ (f.pack (es.map (fun e => e.1))), es.foldl (fun a e => a ||| e.2) 0#5)

/-- The cause that block `k` of an UPDATE or COPY gives. -/
def Dev.blockCause (d : Dev) (bc : BedCfg) (c : MowCmd) (writesM : Bool) (k : Nat) : Option (Nat × Option Nat) :=
  let g := c.fG.packedBytes 32
  let w := c.fW.packedBytes 32
  firstFault ((if c.op = 2 then [d.mowCause bc c.g (k * g) g false] else []) ++
    [d.mowCause bc c.m (96 * k) 96 false, d.mowCause bc c.ms k 1 false] ++
    (if writesM then [d.mowCause bc c.m (96 * k) 96 true, d.mowCause bc c.ms k 1 true] else []) ++
    [d.mowCause bc c.w (k * w) w true] ++ (if c.fW.isMx then [d.mowCause bc c.ws k 1 true] else []))

/-- The words that a block reads meet their checkers. -/
def Dev.noteBlock (d : Dev) (die bed : Nat) (c : MowCmd) (k : Nat) : Dev :=
  let g := c.fG.packedBytes 32
  let d1 := if c.op = 2 then d.spanNote (.die die .mower) bed c.g (k * g) g else d
  (d1.spanNote (.die die .mower) bed c.m (96 * k) 96).spanNote (.die die .mower) bed c.ms k 1

/-- One block of an UPDATE or COPY: masters, where k is not zero, and working copy (R295 to R297, R305). -/
def Dev.mowBlock (d : Dev) (bc : BedCfg) (die : Nat) (c : MowCmd) (k : Nat) : Dev :=
  let step := d.mow64 die Reg.MOW_K_LO.K Reg.MOW_K_HI.K
  let moves := c.op == 2 && !step.isZero
  let g := c.fG.packedBytes 32
  let gs := d.spanBytes c.g (k * g) g
  let vs := ((d.masters c k).zip (List.range 32)).map (fun p => p.1.minus (step.mul (c.fG.elem gs p.2)))
  let m := if moves then d.writeMasters bc die c k vs else (d, 0#5)
  let w := m.1.writeCopy bc die c k
  (w.1.setFld (.mower die) Reg.MOW_BLOCKS.COUNT (k + 1)).modMow die (fun y => { y with
    flags := y.flags ||| m.2 ||| w.2, ended := k + 1 == c.blocks })

/-- The next `n` blocks of a command, until one ends it with a cause. -/
def Dev.mowBlocks (bc : BedCfg) (die : Nat) (c : MowCmd) : Nat → Dev → Dev
  | 0, d => d
  | n + 1, d =>
    match (d.mower die).run with
    | none => d
    | some x =>
      let k := d.fld (.mower die) Reg.MOW_BLOCKS.COUNT
      if x.ended || x.skew || !x.begun then d
      else
        let moves := c.op == 2 && !(d.mow64 die Reg.MOW_K_LO.K Reg.MOW_K_HI.K).isZero
        let cause := d.blockCause bc c moves k
        let d1 := d.noteBlock die x.bed c k
        match cause with
        | some e => d1.mowFaultAt die e
        | none => Dev.mowBlocks bc die c n (d1.mowBlock bc die c k)

/-- The command has what it begins with: its input barrow, where it takes one. -/
def MowerRun.hasInput (x : MowerRun) : Bool := (MowCmd.ofBytes x.cmd).inQ == 0xFFFF || x.input.isSome

/-- The input barrow's slot no longer holds its generation. -/
def Dev.mowStale (d : Dev) (x : MowerRun) : Bool := match x.input with | some t => !d.takenFresh t | none => false

/-- A command of operation `op` begins or goes on at a Mower: `f` on its run, its bed's configuration and its fields. -/
def Dev.mowGo (d : Dev) (die op : Nat) (f : Dev → MowerRun → BedCfg → MowCmd → Dev) : Dev :=
  match (d.mower die).run with
  | none => d
  | some x => match d.bed x.bed with
    | none => d
    | some b =>
      let c := MowCmd.ofBytes x.cmd
      if c.op ≠ op || x.ended || x.skew || x.poison.isSome || !x.hasInput || d.lost.contains (.mower die) then d
      else if x.begun then f d x b.cfg c
      else if d.mowStale x then d.mowFault die Cause.stale
      else f (d.setFld (.mower die) Reg.MOW_BLOCKS.COUNT 0) x b.cfg c

/-- UPDATE begins: its tags are checked against MOW_STEP, and its step quantities formed. -/
def Dev.beginUpdate (d : Dev) (die : Nat) (x : MowerRun) (bc : BedCfg) (c : MowCmd) : Dev :=
  let cause := firstFault ((List.range c.tagCount).map (fun i => d.mowCause bc c.tags (16 * i) 16 false))
  let d1 := d.spanNote (.die die .mower) x.bed c.tags 0 (16 * c.tagCount)
  match cause with
  | some e => d1.mowFaultAt die e
  | none => match d1.firstTagFault c (d1.fld (.mower die) Reg.MOW_STEP.STEP) with
    | some t => d1.enterSkew die x t.1 t.2 (d1.tagStep c t.1)
    | none => d1.startUpdate die x bc c

/-! ### The commands -/

/-- A Mower that runs none takes the first command it has accepted (R305). -/
def Dev.mowerNext (d : Dev) (die : Nat) : Dev :=
  let st := d.mower die
  if st.run.isSome then d
  else match d.firstAccepted die .mower 0 with
    | some i => (d.setMower die { st with run := some ⟨i.seq, i.bed, i.openT, i.cfg.cmd, none, none, false, false, false, 0#5, none⟩ }).setFld
        (.mower die) Reg.MOW_STS.STATE 2
    | none => d

/-- MOWER_ISSUE: a Mower accepts its next MOWER item, or refuses it on the first failing check (R303, R305). -/
def execMowerIssue (t die : Nat) (s : State) : Host.Outcome State Fault Refusal :=
  s.run t (.mower die) (fun d =>
    let b := Blk.mower die
    match d.nextItem die .mower 0 with
    | none => d
    | some i =>
      let code := d.mowRefusal die i.bed (MowCmd.ofBytes i.cfg.cmd)
      if code ≠ 0 then
        let d1 := (d.setFld b Reg.MOW_STS.REFUSED 1).setFld b Reg.MOW_STS.CAUSE code
        { d1 with items := d1.items.filter (fun j => j.seq != i.seq) }.haltBed i.bed 3
      else (d.acceptItem i.seq).mowerNext die)

/-- The square of every gradient element joins the image, block by block, until one ends the command. -/
def Dev.normBlocks (bc : BedCfg) (die bed : Nat) (c : MowCmd) : Nat → Nat → Dev → Long → Dev × Long × Option (Nat × Option Nat)
  | 0, _, d, a => (d, a, none)
  | n + 1, k, d, a =>
    let g := c.fG.packedBytes 32
    let cause := d.mowCause bc c.g (k * g) g false
    let d1 := d.spanNote (.die die .mower) bed c.g (k * g) g
    match cause with
    | some e => (d1, a, some e)
    | none =>
      let bs := d1.spanBytes c.g (k * g) g
      Dev.normBlocks bc die bed c n (k + 1) d1 (a.add ((List.range 32).map (fun i => (c.fG.elem bs i).mul (c.fG.elem bs i))))

/-- The image that NORM writes: its own, or under IMG_ACCUM combined with the one at IMG_ADDR; `none`: 06 R163 has that refused
(R291; entry 22). -/
def Dev.normOut (d : Dev) (c : MowCmd) (a : Long) : Option (List Byte) :=
  if !c.accum then some a.bytes
  else ((Long.ofBytes (d.spanBytes c.img 0 96)).filter (fun o => !o.wide)).map (fun o => (o.combine a).bytes)

/-- NORM (R291). -/
def execMowerNorm (t die : Nat) (s : State) : Host.Outcome State Fault Refusal :=
  s.run t (.mower die) (fun d => d.mowGo die 1 (fun d x bc c =>
    let d0 := d.setFld (.mower die) Reg.MOW_STS.STATE 1
    let w := Dev.normBlocks bc die x.bed c c.blocks 0 d0 (Long.start false)
    let imgC := firstFault ((if c.accum then [w.1.mowCause bc c.img 0 96 false] else []) ++ [w.1.mowCause bc c.img 0 96 true])
    match w.2.2, imgC with
    | some e, _ => w.1.mowFaultAt die e
    | none, some e => (if c.accum then w.1.spanNote (.die die .mower) x.bed c.img 0 96 else w.1).mowFaultAt die e
    | none, none =>
      let d1 := if c.accum then w.1.spanNote (.die die .mower) x.bed c.img 0 96 else w.1
      match d1.normOut c w.2.1 with
      | some o => (d1.spanWrite c.img 0 o).modMow die (fun y => { y with begun := true, ended := true, flags := w.2.1.flags })
      | none => d1.takeFree.2.mowFault die (Config.freeCause d1.takeFree.1).toNat))

/-- UPDATE: at its start the tags and the step; then the next `blocks` blocks (R292, R295 to R298). -/
def execMowerUpdate (t die blocks : Nat) (s : State) : Host.Outcome State Fault Refusal :=
  s.run t (.mower die) (fun d => d.mowGo die 2 (fun d x bc c =>
    let d1 := if x.begun then d else d.beginUpdate die x bc c
    Dev.mowBlocks bc die c (min blocks c.blocks) d1))

/-- COPY: the next `blocks` blocks of the working copy (R296). -/
def execMowerCopy (t die blocks : Nat) (s : State) : Host.Outcome State Fault Refusal :=
  s.run t (.mower die) (fun d => d.mowGo die 3 (fun d _ bc c =>
    let d1 := (d.setFld (.mower die) Reg.MOW_STS.STATE 1).modMow die (fun y => { y with begun := true, ended := c.n == 0 })
    Dev.mowBlocks bc die c (min blocks c.blocks) d1))

/-- CMD = ADOPT: in SKEW, with every tag COMPLETE, well formed and of one STEP, MOW_STEP takes that STEP and the update
runs (R293). -/
def Dev.adoptCmd (d : Dev) (die : Nat) : Dev :=
  let b := Blk.mower die
  let ign := d.setFld b Reg.MOW_STS.CMD_IGN 1
  if d.fld b Reg.MOW_STS.STATE ≠ 3 then ign
  else match (d.mower die).run with
    | none => ign
    | some x => match d.bed x.bed with
      | none => ign
      | some bed =>
        let c := MowCmd.ofBytes x.cmd
        let step := d.tagStep c 0
        if (d.firstTagFault c step).isSome || d.bedStopsEarly x.bed then ign
        else (((d.setFld b Reg.MOW_STEP.STEP step).setFld b Reg.MOW_STS.STATE 1).modMow die (fun y => { y with skew := false })).startUpdate
          die { x with skew := false } bed.cfg c

/-- CMD = DISCARD: in SKEW, the command is to retire with nothing written (R293). -/
def Dev.discardCmd (d : Dev) (die : Nat) : Dev :=
  let b := Blk.mower die
  if d.fld b Reg.MOW_STS.STATE ≠ 3 then d.setFld b Reg.MOW_STS.CMD_IGN 1
  else ((d.setFld b Reg.MOW_STS.OUTCOME 3).setFld b Reg.MOW_STS.STATE 2).modMow die (fun y => { y with ended := true })

/-- MOW_CTL takes the merged word `new`, and the command in `cmd` starts (Table 12.5). -/
def Dev.mowCtlWritten (d : Dev) (die : Nat) (new cmd : Word) : Dev :=
  let d1 := d.setWord (.mower die) 0x0 new
  match bitsOf cmd.toNat 3 0 with
  | 0 => d1
  | 1 => d1.adoptCmd die
  | 2 => d1.discardCmd die
  | _ => d1.setFld (.mower die) Reg.MOW_STS.CMD_IGN 1

/-- ADOPT (R293). -/
def execMowerAdopt (t : Nat) (src : Source) (die : Nat) (s : State) : Host.Outcome State Fault Refusal :=
  s.access t src (.mower die) (fun d => d.cmdRow src (.mower die) 0x0 (fun d => d.adoptCmd die))

/-- DISCARD (R293). -/
def execMowerDiscard (t : Nat) (src : Source) (die : Nat) (s : State) : Host.Outcome State Fault Refusal :=
  s.access t src (.mower die) (fun d => d.cmdRow src (.mower die) 0x0 (fun d => d.discardCmd die))

/-- The bytes that a command's barrow covers: NORM's image; the blocks of W written, scales included; of a POISONED barrow,
all that was planned (Table 12.1, R305, 10 R260). -/
def MowCmd.outBytes (c : MowCmd) (done : Bool) (blocks : Nat) : Nat :=
  if c.op = 1 then (if done then 96 else 0) else c.fW.packedBytes (32 * blocks) + (if c.fW.isMx then blocks else 0)

/-- The barrow of a run that retires. -/
def Dev.mowBarrow (d : Dev) (die : Nat) (x : MowerRun) : Barrow :=
  let c := MowCmd.ofBytes x.cmd
  let p := x.poison.isSome
  let late := d.isLate (deadline48 x.openT c.dryNs 0)
  let blocks := if p then c.blocks else if x.skew || !x.begun then 0 else d.fld (.mower die) Reg.MOW_BLOCKS.COUNT
  ⟨if c.op = 1 then c.imgAddr else c.wAddr, c.outBytes (x.ended || p) blocks, 0, if c.op = 1 then c.iLoc else c.wLoc,
    if c.op = 1 then 2 else 3, true, if p then 0#5 else x.flags, false, p, late, x.poison.getD 0⟩

/-- The counters of a retired UPDATE, by OUTCOME (Table 12.7). -/
def Dev.countOutcome (d : Dev) (die : Nat) (x : MowerRun) : Dev :=
  let b := Blk.mower die
  if (MowCmd.ofBytes x.cmd).op ≠ 2 || x.poison.isSome || !x.ended then d
  else match d.fld b Reg.MOW_STS.OUTCOME with
    | 0 => d.countWrap b Reg.MOW_UPD_CNT.COUNT 1
    | 1 => d
    | _ => d.countSat b Reg.MOW_SUPP_CNT.COUNT 1

/-- The run retires: its barrow is posted where it has a slot, its input released, and MOW_STEP advances under END_STEP unless it was
held in SKEW (R293, R294). -/
def Dev.mowRetires (d : Dev) (die : Nat) (x : MowerRun) : Dev :=
  let c := MowCmd.ofBytes x.cmd
  let b := Blk.mower die
  let posted := match x.claimed with
    | some k => d.postAt k (d.mowBarrow die x)
    | none => (d, true)
  let d1 := posted.1
  let d2 := if posted.2 then d1 else (d1.setFld b Reg.MOW_STS.FAULT 1).setFld b Reg.MOW_STS.CAUSE Cause.stale
  let d3 := if x.poison.isSome && x.claimed.isSome then d2.poisonBed x.bed else d2
  let d4 := match x.input with
    | some k => (d3.releaseSlot k).1
    | none => d3
  let d5 := d4.countOutcome die x
  let d6 := if c.endStep && !x.skew then
      d5.setFld b Reg.MOW_STEP.STEP ((d5.fld b Reg.MOW_STEP.STEP + 1) % 2 ^ 32) else d5
  (((d6.setMower die { d6.mower die with run := none }).setFld b Reg.MOW_STS.STATE 0).retireItem x.seq).mowerNext die

/-- MOWER_RETIRE: a command whose work has ended, or whose bed stops it early, retires; a slot generation that no longer matches at
the release of its input is the fault STALE (R294, R305, R306, 10 R249). -/
def execMowerRetire (t die : Nat) (s : State) : Host.Outcome State Fault Refusal :=
  s.run t (.mower die) (fun d =>
    match (d.mower die).run with
    | none => d
    | some x =>
      let stops := x.begun && d.bedStopsEarly x.bed
      if !(x.ended || x.poison.isSome || stops) || ((MowCmd.ofBytes x.cmd).queue != 0xFFFF && x.claimed.isNone && !stops) then d
      else
        let d1 := if x.poison.isNone && d.mowStale x then d.mowFault die Cause.stale else d
        match (d1.mower die).run with
        | some y => d1.mowRetires die y
        | none => d1)

/-! ### Mirrored registers (R301) -/

/-- The register is one of ALM_CFG to ALM_GAMMA or MOW_CLIP. -/
def mowMirrored (o : Nat) : Bool := o == 0x14 || o == 0x18 || decide (0x100 ≤ o ∧ o ≤ 0x130)

/-- A mirrored register takes the merged word `new`: at the bed's lowest Mower while it is IDLE, with the others to follow at
the next chime; elsewhere it is ignored. A Mower of no bed keeps its own values. -/
def Dev.mowMirrorWritten (d : Dev) (die o : Nat) (new : Word) : Dev :=
  let b := Blk.mower die
  match (d.bedOfMower die).bind d.bed with
  | none => d.setWord b o new
  | some x =>
    if x.cfg.mowers.head? ≠ some die then d.setFld b Reg.MOW_STS.MIRROR_WR 1
    else if d.fld b Reg.MOW_STS.STATE ≠ 0 then d.setFld b Reg.MOW_STS.CMD_IGN 1
    else (x.cfg.mowers.drop 1).foldl (fun d m =>
      d.setMower m { d.mower m with mirror := (d.mower m).mirror.filter (fun e => e.1 != o) ++ [(o, new)] }) (d.setWord b o new)

/-- At a chime every Mower takes what was written for it. -/
def Dev.takeMirrors (d : Dev) : Dev :=
  (List.range 8).foldl (fun d m =>
    let s := d.mower m
    s.mirror.foldl (fun d e => d.setWord (.mower m) e.1 e.2) (d.setMower m { s with mirror := [] })) d

/-- MOW_STEP takes the merged word `new`: only while IDLE (Table 12.7). -/
def Dev.mowStepWritten (d : Dev) (die : Nat) (new : Word) : Dev :=
  if d.fld (.mower die) Reg.MOW_STS.STATE = 0 then d.setWord (.mower die) 0x8 new
  else d.setFld (.mower die) Reg.MOW_STS.CMD_IGN 1

/-- MOWER_MIRROR_WRITE: the base write of a mirrored register (R301). -/
def execMowerMirrorWrite (t : Nat) (src : Source) (die off : Nat) (data : Word) (s : State) : Host.Outcome State Fault Refusal :=
  s.access t src (.mower die) (fun d =>
    if !mowMirrored off then d
    else d.rowWrite src (.mower die) off (fun d =>
      d.mowMirrorWritten die off (writeMerge (.mower die) off .base data (d.word (.mower die) off))))

end Machine
end Sys2Proof
end

