-- ==== Sys2Proof/Machine/Rill.lean ====
section
/-! DEFINITION. The commands of the rills (10 R244, R256 to R263, R236). -/
namespace Sys2Proof
namespace Machine

/-- A descriptor is refused: REFUSED and CAUSE, the item goes, and its bed halts (R244). -/
def Dev.refuseRill (d : Dev) (die e bed seq code : Nat) : Dev :=
  let d1 := (d.setFld (.rill die e) Reg.RILL_STS.REFUSED 1).setFld (.rill die e) Reg.RILL_STS.CAUSE code
  { d1 with items := d1.items.filter (fun i => i.seq != seq) }.haltBed bed 3

/-- The descriptor has a gate destination that no route reaches (14 R340). -/
def Dev.noRoute (d : Dev) (r : RillDesc) : Bool := r.dstLoc == 5 && !r.empty && (d.route (bitsOf r.dstAddr 63 48)).isNone

/-- The run of a descriptor that begins. -/
def Item.rillRun (i : Item) : RillRun where
  seq := i.seq
  bed := i.bed
  openT := i.openT
  desc := i.cfg.cmd
  barrow := 0
  outBytes := 0
  claimed := none
  input := none
  srcAt := none
  dstAt := none
  doneRow := 0
  doneI0 := 0
  flags := 0#5
  blocks := 0
  fault := none
  pageReqs := 0
  asked := false
  hostIn := []
  sent := false
  tags := []
  poison := none
  tainted := none

/-- The rill may begin a descriptor: it is IDLE, or all requests of those before have been issued (R233). -/
def Dev.rillFree (d : Dev) (die e : Nat) : Bool :=
  match (d.rill die e).run with
  | none => decide (d.fld (.rill die e) Reg.RILL_STS.STATE ≤ 1)
  | some x => d.fld (.rill die e) Reg.RILL_STS.STATE == 1 && x.allIssued

/-- The rill's descriptor is `x`; one whose answers are awaited stands behind. -/
def Dev.rillRuns (d : Dev) (die e : Nat) (x : RillRun) : Dev :=
  let st := d.rill die e
  (d.setRill die e { st with run := some x, trail := st.trail ++ st.run.toList }).setFld (.rill die e) Reg.RILL_STS.STATE 1

/-- An empty descriptor claims its slot, posts its one barrow and retires; without a free slot it waits for one (R265). -/
def Dev.rillEmpty (d : Dev) (die e : Nat) (r : RillDesc) : Dev :=
  match queueOf r.outQ with
  | none => d.rillFinish die e
  | some q =>
    if d.canClaim d.lplot (.rill die e) q then
      ((d.claimSlot (.rill die e) q).modRun die e (fun y => { y with claimed := some (d.newClaim (.rill die e) q) })).rillFinish
        die e
    else d

/-- RILL_DESC_START: a rill takes its next descriptor and refuses it on the first failing check, or begins it; a
gate destination without a route is a fault from the start (R233, R244, 14 R340). -/
def execRillDescStart (t die rill : Nat) (s : State) : Host.Outcome State Fault Refusal :=
  s.run t (.rill die rill) (fun d =>
    if !d.rillFree die rill then d
    else match d.nextItem die .rill rill with
      | none => d
      | some i => match d.bed i.bed with
        | none => d
        | some b =>
          let r := RillDesc.ofBytes i.cfg.cmd
          let code := d.rillRefusal die rill i.bed b.cfg r
          if code ≠ 0 then d.refuseRill die rill i.bed i.seq code
          else
            let d1 := (d.acceptItem i.seq).rillRuns die rill i.rillRun
            if d1.noRoute r then
              (d1.gateLast 0xF (bitsOf r.dstAddr 43 32) (bitsOf r.dstAddr 63 48)).rillUnrecov die rill Cause.gateClosed
            else if r.empty then d1.rillEmpty die rill r
            else d1.rillProgress die rill)

/-! ### Faults -/

/-- The fault that the registers hold is this one: the host, the side and the address (R257). -/
def Dev.sameHostFault (d : Dev) (die e : Nat) (addr : Nat) (write : Bool) : Bool :=
  let b := Blk.rill die e
  d.fld b Reg.RILL_FAULT_HI.ADDR_HI * 2 ^ 32 + d.fld b Reg.RILL_FAULT_LO.ADDR_LO == addr % 2 ^ 64 &&
    d.fld b Reg.RILL_FAULT_INFO.SPACE == 2 && d.fld b Reg.RILL_FAULT_INFO.WRITE == bit write

/-- The fault of a translation at a row and element: the barrow is held, the cursor and the address are recorded, and the
rill waits (R256). -/
def Dev.enterFaultWait (d : Dev) (die e : Nat) (x : RillRun) (row i0 addr : Nat) (write host : Bool) : Dev :=
  let b := Blk.rill die e
  let r := x.fields
  let top := r.firstRow x.barrow
  let row := if r.transpose then top + (row - top) / 64 * 64 else row
  let again := d.sameHostFault die e addr write
  let d2 := d.setCursor die e x row i0
  let d3 := (d2.setFld b Reg.RILL_FAULT_LO.ADDR_LO (addr % 2 ^ 32)).setFld b Reg.RILL_FAULT_HI.ADDR_HI (addr / 2 ^ 32 % 2 ^ 32)
  let d4 := ((d3.setFld b Reg.RILL_FAULT_INFO.VALID 1).setFld b Reg.RILL_FAULT_INFO.SPACE (if host then 2 else 1)).setFld b
    Reg.RILL_FAULT_INFO.WRITE (bit write)
  let d5 := (d4.setFld b Reg.RILL_FAULT_INFO.PASID_EN (bit (host && r.pasidEn))).setFld b Reg.RILL_FAULT_INFO.PASID
    (if host then r.pasid else 0)
  let d6 := (d5.setFld b Reg.RILL_STS.FAULT 1).setFld b Reg.RILL_STS.STATE 3
  let d7 := d6.modRun die e (fun y => { y with
    doneRow := row, doneI0 := i0, fault := some ⟨row, i0, addr, write, host⟩
    pageReqs := if host then (if again then y.pageReqs + 1 else 1) else 0 })
  if host then d7.emit [.pageRequest (.rill die e) addr r.pasidArg] else d7.emit [.rillFaultIrq die e]

/-- The elements before the one that faults are complete at their destination; a transposing rill's are with its blocks (R256, 08
R206). -/
def Dev.rillPartial (d : Dev) (die e : Nat) (x : RillRun) (until_ : Option (Nat × Nat)) : Dev × Option (Nat × Nat × RErr) :=
  if x.fields.transpose then (d, d.firstStop (d.runCfg x) die e x.fields x.plan x.place until_ (d.rillRows die e x))
  else d.rillDeliver die e x until_

/-- Host bytes that come before an element in walk order. -/
def RillRun.hostBefore (x : RillRun) (row i0 : Nat) : Nat :=
  if x.plan.sLoc = 3 then
    (x.plan.rows.filter (fun w => decide (w.row < row))).foldl (fun s w => s + memRow x.plan.fS x.plan.kind w.n) 0 +
      eltStart x.plan.fS x.plan.kind i0
  else 0

/-- The address of element `i0` of a row, or of its scale, at the source or at the destination (R239, R240). -/
def RowPlan.eltAddr (w : RowPlan) (p : Plan) (i0 : Nat) (write scale : Bool) : Nat :=
  match write, scale with
  | false, false => w.sAddr + eltStart p.fS p.kind i0
  | false, true => w.sScale + i0 / 32
  | true, false => w.dAddr + eltStart p.fD p.kind i0
  | true, true => w.dScale + i0 / 32

/-- RILL_FAULT: a translation fails, the host's at the element and on the side given, or a device-virtual one at the first element
whose entry does not serve. A host translation that fails after two page requests for the address is unrecoverable (R256 to
R258). -/
def execRillFault (t die rill : Nat) (kind : RillFaultKind) (s : State) : Host.Outcome State Fault Refusal :=
  s.run t (.rill die rill) (fun d =>
    match (d.rill die rill).run with
    | none => d
    | some x =>
      let r := x.fields
      let ready := d.fld (.rill die rill) Reg.RILL_STS.STATE == 1 && x.bad.isNone && !r.empty && !x.sent &&
        d.rillReady die rill x && !d.inputStale x
      match kind with
      | .virt =>
        if !ready || !x.hostHere then d
        else
          let p := d.rillPartial die rill x none
          (match p.2 with
            | some (row, i0, .page a w) => p.1.enterFaultWait die rill x row i0 a w false
            | _ => d)
      | .host row i0 write scale =>
        match x.plan.rows.find? (fun w => w.row == row && decide (i0 < w.n)) with
        | none => d
        | some w =>
          let a := w.eltAddr x.plan i0 write scale
          if !ready || (if write then r.dstLoc else x.plan.sLoc) != 3 || decide (x.hostIn.length < x.hostBefore row i0) ||
              decide (row < x.doneRow ∨ (row = x.doneRow ∧ i0 < x.doneI0)) ||
              (scale && !(if write then x.plan.fD else x.plan.fS).blockScaled) then d
          else if decide (2 ≤ x.pageReqs) && d.sameHostFault die rill a write then d.rillUnrecov die rill Cause.hostFault
          else
            let p := d.rillPartial die rill x (some (row, i0))
            (match p.2 with
              | some (row', i0', .page 0x10000000000000000 false) => p.1.enterFaultWait die rill x row' i0' a write true
              | _ => d))

/-- The rill resumes at the cursor element (R259). -/
def Dev.rillResumes (d : Dev) (die e : Nat) : Dev :=
  ((d.setFld (.rill die e) Reg.RILL_STS.STATE 1).modRun die e (fun y => { y with fault := none })).rillProgress die e

/-- The response to a rill's page request: Success lets it translate again; any other makes the fault unrecoverable; one
that finds no host fault waiting is ignored (R257, R261). -/
def Dev.rillPageResponse (d : Dev) (die e : Nat) (success : Bool) : Dev :=
  match (d.rill die e).run.bind (fun x => x.fault) with
  | some f =>
    if !f.host then d
    else if success then d.rillResumes die e
    else d.rillUnrecov die e Cause.hostFault
  | none => d

/-! ### RILL_CTL -/

/-- CMD = RESUME and FAIL: only in FAULT_WAIT (R258, R261). -/
def Dev.rillResumeCmd (d : Dev) (die e : Nat) : Dev :=
  if d.fld (.rill die e) Reg.RILL_STS.STATE = 3 then d.rillResumes die e
  else d.setFld (.rill die e) Reg.RILL_STS.CMD_IGN 1
def Dev.rillFailCmd (d : Dev) (die e : Nat) : Dev :=
  if d.fld (.rill die e) Reg.RILL_STS.STATE = 3 then d.rillUnrecov die e Cause.virtFault
  else d.setFld (.rill die e) Reg.RILL_STS.CMD_IGN 1

/-- CMD = CANCEL; a rill that is CANCELLING already goes on so (R262). -/
def Dev.rillCancelCmd (d : Dev) (die e : Nat) : Dev :=
  if d.fld (.rill die e) Reg.RILL_STS.STATE = 4 then d else d.cancelRill die e

/-- CMD = INVAL: the cached translations are discarded (R236). -/
def Dev.rillInval (d : Dev) (die e : Nat) : Dev := d.setRill die e { d.rill die e with cache := [] }

/-- RILL_CTL takes the merged word `new`, and the command in `cmd` starts (Table 10.11). -/
def Dev.rillCtlWritten (d : Dev) (die e : Nat) (new cmd : Word) : Dev :=
  let d1 := d.setWord (.rill die e) 0x0 new
  match bitsOf cmd.toNat 3 0 with
  | 0 => d1
  | 1 => d1.rillCancelCmd die e
  | 2 => d1.rillResumeCmd die e
  | 3 => d1.rillFailCmd die e
  | 4 => d1.rillInval die e
  | _ => d1.setFld (.rill die e) Reg.RILL_STS.CMD_IGN 1

/-- RILL_RESUME (R258). -/
def execRillResume (t : Nat) (src : Source) (die rill : Nat) (s : State) : Host.Outcome State Fault Refusal :=
  s.access t src (.rill die rill) (fun d => d.cmdRow src (.rill die rill) 0x0 (fun d => d.rillResumeCmd die rill))

/-- RILL_FAIL (R258). -/
def execRillFail (t : Nat) (src : Source) (die rill : Nat) (s : State) : Host.Outcome State Fault Refusal :=
  s.access t src (.rill die rill) (fun d => d.cmdRow src (.rill die rill) 0x0 (fun d => d.rillFailCmd die rill))

/-- RILL_CANCEL (R262). -/
def execRillCancel (t : Nat) (src : Source) (die rill : Nat) (s : State) : Host.Outcome State Fault Refusal :=
  s.access t src (.rill die rill) (fun d => d.cmdRow src (.rill die rill) 0x0 (fun d => d.rillCancelCmd die rill))

/-- INVAL (R236). -/
def execInval (t : Nat) (src : Source) (die rill : Nat) (s : State) : Host.Outcome State Fault Refusal :=
  s.access t src (.rill die rill) (fun d => d.cmdRow src (.rill die rill) 0x0 (fun d => d.rillInval die rill))

/-- CANCEL_DONE: the cancel completes; the rill is IDLE, and the time it took is reported (R263). -/
def execCancelDone (t die rill : Nat) (s : State) : Host.Outcome State Fault Refusal :=
  s.run t (.rill die rill) (fun d =>
    let st := d.rill die rill
    match st.cancelT with
    | some c =>
      if d.fld (.rill die rill) Reg.RILL_STS.STATE = 4 then
        (((d.setRill die rill { st with cancelT := none }).setFld (.rill die rill) Reg.RILL_STS.STATE 0).setFld
          (.rill die rill) Reg.RILL_STS.CANCEL_DONE 1).setFld (.rill die rill) Reg.RILL_CANCEL_LAT.LAT_NS
            (min ((d.now - c) / 64) 0xFFFFFFFF)
      else d
    | none => d)

end Machine
end Sys2Proof
end

