-- ==== Sys2Proof/Machine/TrugOps.lean ====
section
/-! DEFINITION. What the Trug engine works with (13): commands, member tables, shards, packets, and the arithmetic of node
sums and shards. -/
namespace Sys2Proof
namespace Machine

/-! ### The command (Table 13.2) -/

/-- The fields of a Trug command; `zeros`: its must-be-0 fields are 0. -/
structure TrugCmd where
  op    : Nat
  empty : Bool
  rnd   : Nat
  ovf   : Nat
  fmtIn : Nat
  fmtOut : Nat
  grp   : Nat
  queue : Nat
  bucket : Nat
  step  : Nat
  e     : Nat
  inQ   : Nat
  srcAddr : Nat
  dstAddr : Nat
  tagAddr : Nat
  sLoc  : Nat
  dLoc  : Nat
  tLoc  : Nat
  dryNs : Nat
  zeros : Bool
  deriving DecidableEq, Repr

/-- The fields of a command's 64 bytes. -/
def TrugCmd.ofBytes (c : List Byte) : TrugCmd where
  op := cmdNum c 0 1
  empty := (cmdNum c 1 1).testBit 0
  rnd := bitsOf (cmdNum c 2 1) 2 0
  ovf := bitsOf (cmdNum c 2 1) 4 3
  fmtIn := bitsOf (cmdNum c 3 1) 4 0
  fmtOut := bitsOf (cmdNum c 4 1) 4 0
  grp := bitsOf (cmdNum c 5 1) 3 0
  queue := cmdNum c 6 2
  bucket := cmdNum c 8 4
  step := cmdNum c 0xC 4
  e := cmdNum c 0x10 4
  inQ := cmdNum c 0x14 2
  srcAddr := cmdNum c 0x18 8
  dstAddr := cmdNum c 0x20 8
  tagAddr := cmdNum c 0x28 8
  sLoc := bitsOf (cmdNum c 0x30 1) 1 0
  dLoc := bitsOf (cmdNum c 0x30 1) 3 2
  tLoc := bitsOf (cmdNum c 0x30 1) 5 4
  dryNs := cmdNum c 0x34 4
  zeros := decide (cmdNum c 1 1 < 2 ∧ cmdNum c 2 1 < 32 ∧ cmdNum c 3 1 < 32 ∧ cmdNum c 4 1 < 32 ∧ cmdNum c 5 1 < 16 ∧
    cmdNum c 0x30 1 < 64) && cmdNum c 0x16 2 == 0 && cmdNum c 0x31 3 == 0 && cmdNum c 0x38 8 == 0

/-- The bucket holds images. -/
def TrugCmd.images (c : TrugCmd) : Bool := c.fmtIn == 0x18

/-- The sum is delivered to every member. -/
def TrugCmd.all (c : TrugCmd) : Bool := c.op == 2

/-- Units of the bucket (R309). -/
def TrugCmd.units (c : TrugCmd) : Nat := if c.images then c.e else c.e / 32

/-- The code of the first check of Table 13.3 that a command fails at issue, 0 if none (R312). -/
def Dev.trugRefusal (d : Dev) (bed : Nat) (c : TrugCmd) : Nat :=
  let bin (f : Nat) : Bool := decide (1 ≤ f ∧ f ≤ 3)
  let bad (loc a : Nat) : Bool := decide (loc < 2) && !addrOk loc a
  if !(c.op == 1 || c.op == 2) || !c.zeros || bad c.sLoc c.srcAddr || bad c.dLoc c.dstAddr || bad c.tLoc c.tagAddr then 0x60
  else if !(bin c.fmtIn || c.images) || !(bin c.fmtOut || (c.images && (c.fmtOut == 0 || c.fmtOut == 0x18))) || c.rnd == 6 ||
      c.ovf == 2 then 0x61
  else if (!c.images && c.e % 32 != 0) || (c.all && decide ((if c.images then 2048 else 65536) < c.e)) then 0x62
  else if d.fldI .trug Reg.TRUG_GRP_CTL.VALID c.grp == 0 then 0x63
  else if decide (2 ≤ c.sLoc ∨ 2 ≤ c.dLoc ∨ 2 ≤ c.tLoc) then 0x64
  else if (c.queue != 0xFFFF && !d.queueOk .trug bed c.queue) ||
      (c.inQ != 0xFFFF && !(d.isBarrowQueue c.inQ && d.qfld c.inQ Ctx.bed == bed && !d.queueInError c.inQ)) then 0x65
  else 0

/-! ### Groups and shards (R307, R309, R313) -/

/-- A member (Table 13.1). -/
structure Member where
  dev  : Nat
  node : Nat
  rank : Nat
  deriving DecidableEq, Repr

/-- The address of a group's member table, and its members. -/
def Dev.memberBase (d : Dev) (g : Nat) : Nat :=
  (d.fldI .trug Reg.TRUG_GRP_BASE_HI.BASE_HI g * 2 ^ 32 + d.fldI .trug Reg.TRUG_GRP_BASE_LO.BASE_LO g) % 2 ^ 40
def Dev.memberBytes (d : Dev) (g m : Nat) : List Byte := d.readBytes .hbm (d.memberBase g + 8 * m) 8
def Member.ofBytes (b : List Byte) : Member := ⟨numAt b 0 2, numAt b 2 2 % 4096, numAt b 4 1 % 8⟩
def Dev.members (d : Dev) (g : Nat) : List Member :=
  (List.range (d.fldI .trug Reg.TRUG_GRP_COUNT.COUNT g)).map (fun m => Member.ofBytes (d.memberBytes g m))

/-- This device's member index. -/
def Dev.selfOf (d : Dev) (g : Nat) : Nat := d.fldI .trug Reg.TRUG_GRP_SELF.MEMBER g

/-- The indices of the members of a node, ascending. -/
def nodeMembers (ms : List Member) (node : Nat) : List Nat :=
  (((List.range ms.length).zip ms).filter (fun p => p.2.node == node)).map (fun p => p.1)

/-- The node of member `m`, and its position among the members of its node. -/
def nodeOf (ms : List Member) (m : Nat) : Nat := (ms.getD m ⟨0, 0, 0⟩).node
def posOf (ms : List Member) (m : Nat) : Nat := (nodeMembers ms (nodeOf ms m)).idxOf m

/-- The collector in a node for the shard of owner `o` (R313). -/
def collectorIn (ms : List Member) (node o : Nat) : Nat :=
  let ns := nodeMembers ms node
  ns.getD (posOf ms o % ns.length) 0

/-- The nodes of a group, ascending. -/
def groupNodes (ms : List Member) : List Nat := (ms.map (fun m => m.node)).eraseDups

/-- The first unit of member `m`'s shard among `u` units and `g` members; the next member's first unit ends it. -/
def shardLo (u g m : Nat) : Nat := u * m / g
def shardUnits (u g m : Nat) : Nat := shardLo u g (m + 1) - shardLo u g m

/-! ### Packets (Table 13.4) -/

/-- The header of a packet; `zeros`: its must-be-0 fields are 0. -/
structure TrugHead where
  type  : Nat
  fmt   : Nat
  grp   : Nat
  empty : Bool
  last  : Bool
  all   : Bool
  mix   : Bool
  bucket : Nat
  step  : Nat
  gepoch : Nat
  e     : Nat
  src   : Nat
  owner : Nat
  offset : Nat
  count : Nat
  nflags : Nat
  zeros : Bool
  deriving DecidableEq, Repr

/-- The header's 32 bytes. -/
def TrugHead.bytes (h : TrugHead) : List Byte :=
  leBytes 1 h.type ++ leBytes 1 h.fmt ++ leBytes 1 h.grp
    ++ leBytes 1 (bit h.empty + 2 * bit h.last + 4 * bit h.all + 8 * bit h.mix)
    ++ leBytes 4 h.bucket ++ leBytes 4 h.step ++ leBytes 4 h.gepoch ++ leBytes 4 h.e ++ leBytes 2 h.src ++ leBytes 2 h.owner
    ++ leBytes 4 h.offset ++ leBytes 2 h.count ++ leBytes 1 h.nflags ++ leBytes 1 0

/-- The header that 32 bytes hold. -/
def TrugHead.ofBytes (b : List Byte) : TrugHead where
  type := numAt b 0 1
  fmt := numAt b 1 1 % 32
  grp := numAt b 2 1 % 16
  empty := (numAt b 3 1).testBit 0
  last := (numAt b 3 1).testBit 1
  all := (numAt b 3 1).testBit 2
  mix := (numAt b 3 1).testBit 3
  bucket := numAt b 4 4
  step := numAt b 8 4
  gepoch := numAt b 0xC 4
  e := numAt b 0x10 4
  src := numAt b 0x14 2 % 2 ^ 15
  owner := numAt b 0x16 2 % 2 ^ 15
  offset := numAt b 0x18 4
  count := numAt b 0x1C 2
  nflags := numAt b 0x1E 1 % 32
  zeros := decide (numAt b 1 1 < 32 ∧ numAt b 2 1 < 16 ∧ numAt b 3 1 < 16 ∧ numAt b 0x14 2 < 2 ^ 15 ∧ numAt b 0x16 2 < 2 ^ 15 ∧
    numAt b 0x1E 1 < 32) && numAt b 0x1F 1 == 0

/-- The header of a packet that an instance holds. -/
def TrugPkt.fields (p : TrugPkt) : TrugHead := TrugHead.ofBytes p.head

/-- Bytes of a unit of a format: 32 elements, or an image of a kind. -/
def unitBytes (fmt : Nat) (wide : Bool) : Nat := if fmt = 0x18 then imageBytes wide else 4 * (fmtOf fmt).bits

/-- Bytes of a unit as a shard delivers it: one element of an image, or 32 elements. -/
def TrugCmd.outUnit (c : TrugCmd) (wide : Bool) : Nat :=
  if c.fmtOut = 0x18 then imageBytes wide else if c.images then (fmtOf c.fmtOut).bits / 8 else 4 * (fmtOf c.fmtOut).bits

/-- The packets that carry units of `ub` bytes: at most 8,192 bytes each, the last one marked; at least one. -/
def packetsOf (h : TrugHead) (ub : Nat) (body : List Byte) : List TrugPkt :=
  let per := if ub = 0 then 1 else 8192 / ub
  let n := max 1 (ceilDiv body.length (per * ub))
  ((List.range n).zip (pieces (per * ub) n body)).map (fun p =>
    ⟨{ h with last := p.1 + 1 == n, offset := p.1 * per, count := if ub = 0 then 0 else p.2.length / ub }.bytes, p.2, none, false⟩)

/-! ### Contributions as values -/

/-- SIZE_MIX of Table 13.3. -/
def sizeMixCode : Nat := 0x66

/-- A contribution to a shard: codes of binary32 values, or images; the cause with which the shard has no sum, 0 if none (R325,
R328). -/
structure Part where
  nums : List Nat
  imgs : List Long
  cause : Nat
  deriving DecidableEq, Repr

/-- Images of a kind in bytes; one that R162 makes invalid counts as one of another KIND (DESIGN CHOICE, entry 27). -/
def imagesOf (ub n : Nat) (bs : List Byte) : List (Option Long) := (pieces ub n bs).map Long.ofBytes

/-- An element code of a format as a binary32 value: one of binary32 as it is, another converted (R317, 05 R126, R136). -/
def toSingle (fmt : Fmt) (code : Nat) : Flagged Nat :=
  if fmt = .binary32 then pure code
  else do
    let r := Fmt.binary32.deliver .nearest true 0 (fmt.decode code)
    raiseFlags r.2
    pure r.1

/-- The payload of a stream of packets of format `fmt`: NODESUM payloads are in binary32. -/
def partOf (fmt : Nat) (ps : List TrugPkt) : Flagged Part :=
  if fmt = 0x18 then
    let is := ps.flatMap (fun p =>
      let ub := if p.fields.count = 0 then 96 else p.body.length / p.fields.count
      imagesOf ub p.fields.count p.body)
    pure ⟨[], is.filterMap id, if is.any (fun i => i.isNone) then sizeMixCode else 0⟩
  else do
    let f := fmtOf fmt
    let ns ← mapF (toSingle f) (ps.flatMap (fun p => (List.range (p.fields.count * 32)).map (fun i => f.elemAt (byteAt p.body) i)))
    pure ⟨ns, [], 0⟩

/-- The stream is absent: its one packet is EMPTY (R315). -/
def absentStream (ps : List TrugPkt) : Bool := ps.any (fun p => p.fields.empty)

/-- One addition of R317 on binary32 codes: rounding to odd with IEEE overflow. -/
def addOdd (a b : Nat) : Flagged Nat := do
  let r := Fmt.binary32.deliver .odd true 0 ((Fmt.binary32.decode a).plus (Fmt.binary32.decode b))
  raiseFlags r.2
  pure r.1

/-- The first of two causes. -/
def orCause (a b : Nat) : Nat := if a = 0 then b else a

/-- Two parts are added: values pairwise, images under R163; parts of other lengths or KINDs do not fit (R318, R325). -/
def Part.join (a b : Part) : Flagged Part := do
  let ns ← mapF (fun p => addOdd p.1 p.2) (a.nums.zip b.nums)
  let fits := a.nums.length == b.nums.length && a.imgs.length == b.imgs.length &&
    (a.imgs.zip b.imgs).all (fun p => p.1.wide == p.2.wide)
  pure ⟨ns, (a.imgs.zip b.imgs).map (fun p => p.1.combine p.2), orCause (orCause a.cause b.cause) (if fits then 0 else sizeMixCode)⟩

/-- A pair of which either side may be absent; a value beside an absent one passes unchanged (R315). -/
def joinAbsent (a b : Option Part) : Flagged (Option Part) :=
  match a, b with
  | some x, some y => do
    let z ← x.join y
    pure (some z)
  | some x, none => pure (some x)
  | none, y => pure y

/-- One level of the tree: neighbours are joined. -/
def joinPairs : List (Option Part) → Flagged (List (Option Part))
  | a :: b :: r => do
    let x ← joinAbsent a b
    let xs ← joinPairs r
    pure (x :: xs)
  | xs => pure xs

/-- The tree of R315 over ranks 0 to 7. -/
def treeSum (ps : List (Option Part)) : Flagged (Option Part) := do
  let a ← joinPairs ps
  let b ← joinPairs a
  let c ← joinPairs b
  pure (c.headD none)

/-- The node sums are added in order (R316). -/
def chainSum : Option Part → List (Option Part) → Flagged (Option Part)
  | acc, [] => pure acc
  | acc, p :: ps => do
    let x ← joinAbsent acc p
    chainSum x ps

/-- The bytes of a node sum: binary32 values, or images. -/
def Part.sumBytes (p : Part) : List Byte := Fmt.binary32.pack p.nums ++ p.imgs.flatMap (fun i => i.bytes)

/-- A shard of `n` units with nothing in it: +0, or EMPTY images (R316). -/
def emptyPart (images : Bool) (n : Nat) : Part :=
  if images then ⟨[], List.replicate n (Long.start false), 0⟩ else ⟨List.replicate (32 * n) 0, [], 0⟩

/-! ### Instances -/

/-- The packets of one stream: a type, a source and an owner. -/
def TrugInst.stream (x : TrugInst) (type src owner : Nat) : List TrugPkt :=
  x.pkts.filter (fun p => let h := p.fields; h.type == type && h.src == src && h.owner == owner)

/-- The stream has come to its LAST packet. -/
def streamDone (ps : List TrugPkt) : Bool := ps.any (fun p => p.fields.last)

/-- The device with instance `i` as given. -/
def Dev.setTrug (d : Dev) (i : Nat) (x : TrugInst) : Dev := { d with trugs := d.trugs.set i x }

/-- Open instances of a share: lodge 0 sums even buckets, lodge 1 odd ones (R314). -/
def Dev.openTrugs (d : Dev) (l : Nat) : Nat := (d.trugs.filter (fun x => !x.closed && x.bucket % 2 == l)).length

/-- The staging region of a share: its first address and the one after its last (R321, Table 13.7). -/
def Dev.stageRegion (d : Dev) (l : Nat) : Nat × Nat :=
  let base := d.fld .trug Reg.TRUG_STAGE_BASE_HI.BASE_HI * 2 ^ 32 + d.fld .trug Reg.TRUG_STAGE_BASE_LO.BASE_LO * 2 ^ 21
  let half := d.fld .trug Reg.TRUG_STAGE_SIZE.SIZE * 2 ^ 20
  (base + l * half, base + (l + 1) * half)

/-- The ranges of the share's region that staged packets take, in whole 32 bytes. -/
def Dev.stagedRanges (d : Dev) (l : Nat) : List (Nat × Nat) :=
  (d.trugs.filter (fun x => x.bucket % 2 == l)).flatMap (fun x => x.pkts.filterMap (fun p =>
    p.staged.map (fun s => (s.1, s.1 + 32 * ceilDiv (32 + s.2) 32))))

/-- The place in the share's region for a packet whose payload is `n` bytes: the lowest that no other takes; `none`: the region is
full (DESIGN CHOICE, entry 27). -/
def Dev.stagePlace (d : Dev) (l n : Nat) : Option Nat :=
  let r := d.stageRegion l
  let taken := d.stagedRanges l
  let len := 32 * ceilDiv (32 + n) 32
  ((r.1 :: taken.map (fun t => t.2)).filter (fun a => decide (r.1 ≤ a ∧ a + len ≤ r.2) &&
    taken.all (fun t => decide (a + len ≤ t.1 ∨ t.2 ≤ a)))).min?

/-- The first packet, in order of summation, that differs as `p` says: its source and STEP (R324). -/
def firstMix (p : TrugHead → Bool) (ss : List (Nat × List TrugPkt)) : Option (Nat × Nat) :=
  ss.findSome? (fun s => (s.2.find? (fun q => p q.fields)).map (fun q => (s.1, q.fields.step)))

/-- A packet's STEP differs from the command's, or a node sum says that one did (R324). -/
def TrugCmd.stepDiffers (c : TrugCmd) (h : TrugHead) : Bool := h.step != c.step || h.mix

/-- A packet's E or format differs from the receiver's command (R325). -/
def TrugCmd.sizeDiffers (c : TrugCmd) (fmt : Nat) (h : TrugHead) : Bool := h.e != c.e || h.fmt != fmt

/-- A node sum that a cause keeps from being formed: no units, not EMPTY, the cause in OFFSET (DESIGN CHOICE, entry 27). -/
def TrugHead.noSum (h : TrugHead) : Bool := h.type == 2 && h.count == 0 && !h.empty && h.offset != 0

/-- The cause with which a stream of packets leaves its shard without a sum, 0 if none (R325, R328). -/
def TrugCmd.streamCause (c : TrugCmd) (fmt : Nat) (ps : List TrugPkt) : Nat :=
  if ps.any (fun p => p.bad) then Cause.ueConvert
  else match ps.find? (fun p => p.fields.noSum) with
    | some p => p.fields.offset
    | none => if ps.any (fun p => c.sizeDiffers fmt p.fields) then sizeMixCode else 0

/-- The contributions to the shard of owner `o` in this device's node, by source in ascending rank. -/
def TrugInst.contribs (x : TrugInst) (ms : List Member) (self o : Nat) : List (Nat × List TrugPkt) :=
  (nodeMembers ms (nodeOf ms self)).map (fun m => (m, x.stream 1 m o))

/-- The node sum for owner `o`, with its flags and the cause, if any, with which there is none (R315, R323, R325, R328). -/
def TrugInst.nodeSum (x : TrugInst) (c : TrugCmd) (ms : List Member) (self o : Nat) : Option Part × FlagSet :=
  let cs := x.contribs ms self o
  let byRank (r : Nat) : Flagged (Option Part) :=
    match cs.find? (fun s => (ms.getD s.1 ⟨0, 0, 0⟩).rank == r) with
    | some s => if absentStream s.2 then pure none else do
        let p ← partOf c.fmtIn s.2
        pure (some p)
    | none => pure none
  let y := (do
    let ps ← mapF byRank (List.range 8)
    treeSum ps : Flagged (Option Part)).run 0#5
  let cause := cs.foldl (fun e s => orCause e (c.streamCause c.fmtIn s.2)) 0
  if cause = 0 then y else (some { y.1.getD (emptyPart c.images 0) with cause := cause }, y.2)

/-- The share's record of a difference in STEP (R324). -/
def Dev.noteMix (d : Dev) (m : Nat × Nat) : Dev :=
  (((d.setFld .trug Reg.TRUG_STS.STEP_MIX 1).setFld .trug Reg.TRUG_MIX_MEMBER.VALID 1).setFld .trug
    Reg.TRUG_MIX_MEMBER.MEMBER m.1).setFld .trug Reg.TRUG_MIX_STEP.STEP m.2

/-- The owner's shard: the node sums in ascending node, with its flags, and the cause, if any, with which there is none (R316 to R319,
R325, R328). -/
def TrugInst.shard (x : TrugInst) (c : TrugCmd) (ms : List Member) (self : Nat) : Part × FlagSet :=
  let units := shardUnits c.units ms.length self
  let streams := (groupNodes ms).map (fun nd => x.stream 2 (collectorIn ms nd self) self)
  let r := (do
    let parts ← mapF (fun ps => if absentStream ps then pure none else do
      let p ← partOf (if c.images then 0x18 else 1) ps
      pure (some p)) streams
    chainSum none parts : Flagged (Option Part)).run 0#5
  let nf := streams.foldl (fun f ps => ps.foldl (fun f p => f ||| BitVec.ofNat 5 p.fields.nflags) f) 0#5
  let p := r.1.getD (emptyPart c.images units)
  let fits := p.nums.length == (if c.images then 0 else 32 * units) && p.imgs.length == (if c.images then units else 0)
  let cause := streams.foldl (fun e ps => orCause e (c.streamCause c.fmtIn ps)) 0
  ({ p with cause := orCause (orCause cause p.cause) (if fits then 0 else sizeMixCode) }, r.2 ||| nf)

/-- Every node sum for this device's shard has come. -/
def TrugInst.shardReady (x : TrugInst) (ms : List Member) (self : Nat) : Bool :=
  (groupNodes ms).all (fun nd => streamDone (x.stream 2 (collectorIn ms nd self) self))

/-- The shard in FMT_OUT: its bytes and flags (R318). A stochastic rounding takes free draws (entry 27). -/
def Part.deliver (p : Part) (c : TrugCmd) (b : BedCfg) (occ : Nat) : List Byte × FlagSet :=
  let imgFlags := p.imgs.foldl (fun f i => f ||| i.flags) 0#5
  if c.fmtOut = 0x18 then (p.imgs.flatMap (fun i => i.bytes), imgFlags)
  else
    let f := fmtOf c.fmtOut
    let rnd := (Rnd.ofCode c.rnd ((Rnd.ofCode b.round .nearest).getD .nearest)).getD .nearest
    let ieee := (ieeeMode f c.ovf b.ieee).getD false
    let vs := if c.images then p.imgs.map (fun i => i.result rnd) else p.nums.map Fmt.binary32.decode
    let es := ((List.range vs.length).zip vs).map (fun v => f.deliver rnd ieee (Config.freeDraw occ v.1).toNat v.2)
    (f.pack (es.map (fun e => e.1)), es.foldl (fun a e => a ||| e.2) imgFlags)

end Machine
end Sys2Proof
end

