-- ==== Sys2Proof/Machine/Trug.lean ====
section
/-! DEFINITION. The Trug engine (13 R307 to R328): its commands, its packets, and its groups. -/
namespace Sys2Proof
namespace Machine

/-! ### Sending -/

/-- A packet goes to a member over its route (R314). -/
def Dev.sendTrug (d : Dev) (dev : Nat) (p : TrugPkt) : Dev :=
  d.sendMsg ⟨Msg.trug, dev, d.devId, 0, p.body.length, 0, 0, 0, 0⟩ p.head p.body

/-- Packets go to a member, or join the instance when the member is this device itself (R313). -/
def Dev.deliverTrug (d : Dev) (x : TrugInst) (ms : List Member) (self m : Nat) (ps : List TrugPkt) : Dev × TrugInst :=
  if m = self then (d, { x with pkts := x.pkts ++ ps })
  else (ps.foldl (fun d p => d.sendTrug (ms.getD m ⟨0, 0, 0⟩).dev p) d, x)

/-- The header that this device's packets of a command carry. -/
def Dev.trugHead (d : Dev) (c : TrugCmd) (type fmt owner : Nat) : TrugHead :=
  { type := type, fmt := fmt, grp := c.grp, empty := false, last := false, all := c.all, mix := false, bucket := c.bucket,
    step := c.step, gepoch := d.fldI .trug Reg.TRUG_GRP_EPOCH.EPOCH c.grp, e := c.e, src := d.selfOf c.grp, owner := owner,
    offset := 0, count := 0, nflags := 0, zeros := true }

/-- The contributions of a command to every shard: to its node's collectors (R314, R322). -/
def Dev.sendContribs (c : TrugCmd) (ms : List Member) (self : Nat) (src : List Byte) (ub : Nat) :
    List Nat → Dev → TrugInst → Dev × TrugInst
  | [], d, x => (d, x)
  | o :: os, d, x =>
    let none_ := c.empty || c.e == 0
    let n := shardUnits c.units ms.length o
    let body := if none_ then [] else (src.drop (shardLo c.units ms.length o * ub)).take (n * ub)
    let h := { d.trugHead c 1 c.fmtIn o with empty := none_ }
    let r := d.deliverTrug x ms self (collectorIn ms (nodeOf ms self) o) (packetsOf h ub body)
    Dev.sendContribs c ms self src ub os r.1 r.2

/-- The packets of a node sum for owner `o`: EMPTY where every contribution is absent; without a sum, one that gives the cause (R315,
R325; DESIGN CHOICE, entry 27). -/
def nodePackets (c : TrugCmd) (h : TrugHead) (part : Option Part) : List TrugPkt :=
  match part with
  | none => packetsOf { h with empty := true } 0 []
  | some p =>
    if p.cause ≠ 0 then [⟨{ h with last := true, offset := p.cause }.bytes, [], none, false⟩]
    else packetsOf h (if c.images then imageBytes (p.imgs.any (fun i => i.wide)) else 128) p.sumBytes

/-- The node sums that have become complete go to their owners; a member whose STEP, E or format differs is recorded (R314, R315, R323,
R324). -/
def Dev.sendNodeSums (c : TrugCmd) (ms : List Member) (self : Nat) : List Nat → Dev → TrugInst → Dev × TrugInst
  | [], d, x => (d, x)
  | o :: os, d, x =>
    let cs := x.contribs ms self o
    if collectorIn ms (nodeOf ms self) o ≠ self || x.sentTo.contains o || !cs.all (fun s => streamDone s.2) then
      Dev.sendNodeSums c ms self os d x
    else
      let r := x.nodeSum c ms self o
      let mix := firstMix (fun h => c.stepDiffers h || c.sizeDiffers c.fmtIn h) cs
      let h := { d.trugHead c 2 c.fmtIn o with mix := mix.isSome, nflags := r.2.toNat }
      let d1 := match mix with
        | some m => d.noteMix m
        | none => d
      let d2 := if r.1.any (fun p => p.cause == sizeMixCode) then d1.setFld .trug Reg.TRUG_STS.SIZE_MIX 1 else d1
      let s := d2.deliverTrug { x with sentTo := x.sentTo ++ [o] } ms self o (nodePackets c h r.1)
      Dev.sendNodeSums c ms self os s.1 s.2

/-- The occasion of free draws, when the rounding is stochastic. -/
def Dev.drawOccasion (d : Dev) (c : TrugCmd) (b : BedCfg) : Nat × Dev :=
  if Rnd.ofCode c.rnd ((Rnd.ofCode b.round .nearest).getD .nearest) = some .stochastic then d.takeFree else (0, d)

/-- Under ALLREDUCE the finished shard goes to every other member, and a copy stays, with all its flags (R314). -/
def Dev.sendResults (d : Dev) (b : BedCfg) (c : TrugCmd) (ms : List Member) (self : Nat) (x : TrugInst) : Dev × TrugInst :=
  if !c.all || x.results || !x.shardReady ms self then (d, x)
  else
    let p := x.shard c ms self
    if p.1.cause ≠ 0 then (d, { x with results := true })
    else
      let o := d.drawOccasion c b
      let y := p.1.deliver c b o.1
      let ub := c.outUnit (p.1.imgs.any (fun i => i.wide))
      let h := o.2.trugHead c 3 c.fmtOut self
      let ps := packetsOf { h with nflags := p.2.toNat } ub y.1
      let d1 := (List.range ms.length).foldl (fun d m => if m = self then d
        else ps.foldl (fun d q => d.sendTrug (ms.getD m ⟨0, 0, 0⟩).dev q) d) o.2
      (d1, { x with results := true, pkts := x.pkts ++ packetsOf { h with nflags := (p.2 ||| y.2).toNat } ub y.1 })

/-- The turn of the node sum of a collector has come: those of every earlier node are here (R316, R321). -/
def TrugInst.turn (x : TrugInst) (ms : List Member) (self src : Nat) : Bool :=
  ((groupNodes ms).takeWhile (fun nd => nd != nodeOf ms src)).all (fun nd => streamDone (x.stream 2 (collectorIn ms nd self) self))

/-- A packet of a bed's instance leaves the staging of share `l`: its words are read back and checked (R321, R328). -/
def Dev.unstage (d : Dev) (bed l : Nat) (p : TrugPkt) : Dev × TrugPkt :=
  match p.staged with
  | none => (d, p)
  | some (a, n) => (d.noteFrom bed (.lodge l) (Mem.hbm.wordsOf a (32 + n)),
      { p with body := d.readBytes .hbm (a + 32) n, staged := none, bad := d.anyBad .hbm a (32 + n) })

/-- Those of a list of packets that `may` names leave staging. -/
def Dev.unstageAll (may : TrugPkt → Bool) (bed l : Nat) : List TrugPkt → Dev → Dev × List TrugPkt
  | [], d => (d, [])
  | p :: ps, d =>
    let y := if may p then d.unstage bed l p else (d, p)
    let z := Dev.unstageAll may bed l ps y.1
    (z.1, y.2 :: z.2)

/-- Packets of an instance whose command has started, and node sums whose turn has come, leave staging. -/
def Dev.unhold (d : Dev) (x : TrugInst) (bed : Nat) (ms : List Member) (self : Nat) : Dev × TrugInst :=
  let y := Dev.unstageAll (fun p => p.fields.type != 2 || x.turn ms self p.fields.src) bed (x.bucket % 2) x.pkts d
  (y.1, { x with pkts := y.2 })

/-- This device owes no node sum of the instance any more. -/
def TrugInst.dutiesDone (x : TrugInst) (ms : List Member) (self : Nat) : Bool :=
  (List.range ms.length).all (fun o => collectorIn ms (nodeOf ms self) o != self || x.sentTo.contains o)

/-- Instance `i` does what its packets allow: node sums and results go out; a closed one that owes nothing is gone. -/
def Dev.trugProgress (d : Dev) (i : Nat) : Dev :=
  match d.trugs[i]? with
  | none => d
  | some x => match x.run with
    | none => d
    | some r => match d.bed r.bed with
      | none => d
      | some b =>
        if r.poison.isSome then d
        else
          let c := TrugCmd.ofBytes r.cmd
          let ms := d.members c.grp
          let self := d.selfOf c.grp
          let u := d.unhold x r.bed ms self
          let s := Dev.sendNodeSums c ms self (List.range ms.length) u.1 u.2
          let v := s.1.unhold s.2 r.bed ms self
          let q := v.1.sendResults b.cfg c ms self v.2
          if q.2.closed && q.2.dutiesDone ms self then { q.1 with trugs := q.1.trugs.eraseIdx i } else q.1.setTrug i q.2

/-! ### Issue and start -/

/-- TRUG_ISSUE: the engine accepts the next TRUG item of a bed, or refuses it on the first failing check (R312). -/
def execTrugIssue (t bed : Nat) (s : State) : Host.Outcome State Fault Refusal :=
  s.run t .trug (fun d =>
    match d.arriving bed [0, 1] (fun c => c.kind == .trug) with
    | none => d
    | some i =>
      let code := d.trugRefusal bed (TrugCmd.ofBytes i.cfg.cmd)
      if code ≠ 0 then
        let d1 := (d.setFld .trug Reg.TRUG_STS.REFUSED 1).setFld .trug Reg.TRUG_STS.CAUSE code
        { d1 with items := d1.items.filter (fun j => j.seq != i.seq) }.haltBed bed 3
      else
        let d1 := d.acceptItem i.seq
        { d1 with trugWait := d1.trugWait ++ [⟨i.seq, bed, i.openT, i.cfg.cmd, none, none, none⟩] })

/-- The regions of a bed hold an operand whole, with the permission; else the cause, or that of its words, with the die whose glasshouse
refuses it (R310, R328, 09 R230). -/
def Dev.spanCause (d : Dev) (b : BedCfg) (s : MemSpan) (write : Bool) : Option (Nat × Option Nat) :=
  let rs := if s.loc = 0 then (b.hbm.filter (fun r => if write then r.write else r.read)).map (fun r => (r.base, r.base + r.size))
    else (b.gh.filter (fun r => r.die == bitsOf s.addr 42 40)).map (fun r => (r.base * 65536, (r.base + r.size) * 65536))
  let lo := if s.loc = 0 then s.addr else s.addr % 2 ^ 26
  if s.n = 0 then none
  else if !covered rs (rs.length + 1) lo (lo + s.n) then
    some (Cause.partition, if s.loc = 0 then none else some (bitsOf s.addr 42 40))
  else d.mowCause b s 0 s.n write

/-- The source bucket of a command: its unit in bytes, and its span; the KIND of its first image is that of all. -/
def Dev.trugSource (d : Dev) (c : TrugCmd) : Nat × MemSpan :=
  let wide := c.images && c.e != 0 && !c.empty && d.spanBytes ⟨c.sLoc, c.srcAddr, 1⟩ 0 1 == [2#8]
  let ub := unitBytes c.fmtIn wide
  (ub, ⟨c.sLoc, c.srcAddr, if c.empty then 0 else c.units * ub⟩)

/-- The instance that a starting command takes: the oldest of its bucket without a command (R320). -/
def Dev.instFor (d : Dev) (c : TrugCmd) : Option Nat :=
  d.trugs.findIdx? (fun x => x.grp == c.grp && x.bucket == c.bucket && x.run.isNone && !x.closed)

/-- A command that cannot begin, or ends, with a cause of its own: FAULT, CAUSE, and its queue in ERROR; without a queue its
bed halts (R328, 10 R260). -/
def Dev.trugFault (d : Dev) (r : TrugRun) (cause : Nat) : Dev :=
  let d1 := (d.setFld .trug Reg.TRUG_STS.FAULT 1).setFld .trug Reg.TRUG_STS.CAUSE cause
  match queueOf (TrugCmd.ofBytes r.cmd).queue with
  | some q => d1.queueError q cause
  | none => d1.haltBed r.bed 3

/-- TRUG_START: a command of a bed that has its input barrow starts: its instance opens or is joined, and its
contributions go out (R311, R314, R320, R322). -/
def execTrugStart (t bed : Nat) (s : State) : Host.Outcome State Fault Refusal :=
  s.run t .trug (fun d =>
    match d.trugWait.find? (fun r => r.bed == bed && ((TrugCmd.ofBytes r.cmd).inQ == 0xFFFF || r.input.isSome)), d.bed bed with
    | some r, some b =>
      let c := TrugCmd.ofBytes r.cmd
      let at_ := d.instFor c
      if at_.isNone && decide (4096 ≤ d.openTrugs (c.bucket % 2)) then d
      else
        let d1 := { d with trugWait := d.trugWait.erase r }
        let i := at_.getD d.trugs.length
        let d2 := if at_.isSome then d1 else { d1 with trugs := d1.trugs ++ [⟨c.grp, c.bucket, none, [], [], false, false⟩] }
        let put (d : Dev) (r : TrugRun) : Dev := match d.trugs[i]? with
          | some x => d.setTrug i { x with run := some r }
          | none => d
        match r.poison with
        | some e => (put d2 r).trugFault r e
        | none =>
          let sp := d2.trugSource c
          let stale := match r.input with | some k => !d2.takenFresh k | none => false
          let cause := if stale then some (Cause.stale, none) else d2.spanCause b.cfg sp.2 false
          let d3 := if stale then d2 else d2.spanNote (.lodge (c.bucket % 2)) bed sp.2 0 sp.2.n
          (match cause with
            | some e => ((put d3 { r with poison := some e.1 }).countRefused e.2).trugFault r e.1
            | none =>
              let d4 := put d3 r
              let ms := d4.members c.grp
              let self := d4.selfOf c.grp
              match d4.trugs[i]? with
              | some x =>
                let w := Dev.sendContribs c ms self (d4.spanBytes sp.2 0 sp.2.n) sp.1 (List.range ms.length) d4 x
                (w.1.setTrug i w.2).trugProgress i
              | none => d4)
    | _, _ => d)

/-! ### Packets (R308, R320, R321) -/

/-- A packet that this device has no part in: it is neither its collector nor its owner, nor a result under ALLREDUCE. -/
def strangePacket (h : TrugHead) (ms : List Member) (self : Nat) : Bool :=
  match h.type with
  | 1 => nodeOf ms h.src != nodeOf ms self || collectorIn ms (nodeOf ms self) h.owner != self
  | 2 => h.owner != self || collectorIn ms (nodeOf ms h.src) self != h.src
  | _ => h.owner != h.src

/-- The instance of a packet: the oldest of its bucket whose stream from that source is not complete (R320). -/
def Dev.instOf (d : Dev) (h : TrugHead) : Option Nat :=
  d.trugs.findIdx? (fun x => x.grp == h.grp && x.bucket == h.bucket && !streamDone (x.stream h.type h.src h.owner) &&
    (h.type != 3 || x.run.isNone || x.run.any (fun r => (TrugCmd.ofBytes r.cmd).all)))

/-- TRUG_PACKET_RECEIVE: the oldest whole Trug message of a port is matched to its instance, summed or staged; a foreign one
is discarded; one that finds no room stays, so that its credits are withheld (R308, R320, R321). -/
def execTrugPacketReceive (t port : Nat) (s : State) : Host.Outcome State Fault Refusal :=
  s.run t .trug (fun d =>
    match (d.port port).firstMsg 1 with
    | none => d
    | some m =>
      let head := m.head.drop 32
      let h := TrugHead.ofBytes head
      let len := m.fields.length
      let free (d : Dev) : Dev := d.modPort port (fun x => x.freeMsg m)
      let shaped := decide (1 ≤ h.type ∧ h.type ≤ 3) && h.zeros && (h.type == 2 || !h.mix) && (h.type != 1 || h.nflags == 0) &&
        (h.count == 0) == (len == 0) && (h.count == 0 || len % h.count == 0) && (!h.empty || h.count == 0)
      if !shaped then (free d).violation port 1 0
      else
        let ms := d.members h.grp
        let n := ms.length
        let self := d.selfOf h.grp
        if d.fldI .trug Reg.TRUG_GRP_CTL.VALID h.grp = 0 || h.gepoch != d.fldI .trug Reg.TRUG_GRP_EPOCH.EPOCH h.grp ||
            decide (n ≤ h.src) || decide (n ≤ h.owner) || strangePacket h ms self then
          ((free d).countSat .trug Reg.TRUG_FOREIGN_CNT.COUNT 1).setFld .trug Reg.TRUG_STS.FOREIGN 1
        else
          let l := h.bucket % 2
          let at_ := d.instOf h
          let x := (at_.bind (fun i => d.trugs[i]?)).getD ⟨h.grp, h.bucket, none, [], [], false, false⟩
          let held := x.run.isNone || (h.type == 2 && !x.turn ms self h.src)
          let put (d : Dev) (p : TrugPkt) : Dev :=
            let y := { x with pkts := x.pkts ++ [p] }
            let i := at_.getD d.trugs.length
            (if at_.isSome then d.setTrug i y else { d with trugs := d.trugs ++ [y] }).trugProgress i
          if at_.isNone && decide (4096 ≤ d.openTrugs l) then d
          else if !held then put (free d) ⟨head, m.body.take len, none, false⟩
          else match d.stagePlace l len with
            | none => d.setFld .trug Reg.TRUG_STS.STAGE_FULL 1
            | some a => put ((free d).writeBytes .hbm a (head ++ m.body.take len)) ⟨head, [], some (a, len), false⟩)

/-! ### Closing (R316 to R320, R324, R325, R328) -/

/-- The first difference of STEP in the owner's order of summation (R324). -/
def TrugInst.ownerMix (x : TrugInst) (c : TrugCmd) (ms : List Member) (self : Nat) : Option (Nat × Nat) :=
  (groupNodes ms).findSome? (fun nd =>
    let k := collectorIn ms nd self
    if k = self then firstMix (fun h => c.stepDiffers h || c.sizeDiffers c.fmtIn h) (x.contribs ms self self)
    else firstMix c.stepDiffers [(k, x.stream 2 k self)])

/-- The tag of Table 12.2. -/
def tagBytes (step bucket : Nat) (complete : Bool) : List Byte :=
  leBytes 4 step ++ leBytes 4 bucket ++ leBytes 1 (bit complete) ++ leBytes 7 0

/-- What a command delivers: pieces by their place in the destination, its bytes in all, and its flags. -/
structure TrugOut where
  pieces : List (Nat × List Byte)
  total  : Nat
  flags  : FlagSet
  deriving DecidableEq, Repr

/-- The shard, or under ALLREDUCE the shards of all members, where they go (R311, R318). -/
def TrugInst.output (x : TrugInst) (c : TrugCmd) (b : BedCfg) (ms : List Member) (self occ : Nat) : TrugOut :=
  if c.all then
    let streams := (List.range ms.length).map (fun o => (o, x.stream 3 o o))
    let wide := streams.any (fun s => s.2.any (fun p => p.fields.count != 0 && p.body.length / p.fields.count == 560))
    let ub := c.outUnit wide
    let fl := streams.foldl (fun f s => s.2.foldl (fun f p => f ||| BitVec.ofNat 5 p.fields.nflags) f) 0#5
    ⟨streams.map (fun s => (shardLo c.units ms.length s.1 * ub, s.2.flatMap (fun p => p.body))), c.units * ub, fl⟩
  else
    let p := x.shard c ms self
    let y := p.1.deliver c b occ
    ⟨[(0, y.1)], y.1.length, p.2 ||| y.2⟩

/-- The barrow of a command, and its planned length where nothing is delivered (R319, 10 R260). -/
def Dev.trugBarrow (d : Dev) (r : TrugRun) (c : TrugCmd) (len : Nat) (flags : FlagSet) (poison : Option Nat) : Barrow :=
  let late := d.isLate (deadline48 r.openT c.dryNs 0)
  ⟨c.dstAddr, len, 0, c.dLoc, if c.images then 2 else 3, true, if poison.isSome then 0#5 else flags, false, poison.isSome, late,
    poison.getD 0⟩

/-- The command of instance `i` retires with its barrow; the instance closes, and stays only for node sums it owes. -/
def Dev.trugRetire (d : Dev) (i : Nat) (x : TrugInst) (r : TrugRun) (bar : Barrow) (keep : Bool) : Dev :=
  let posted := match r.claimed with
    | some k => d.postAt k bar
    | none => (d, true)
  let d1 := if posted.2 then posted.1 else (posted.1.setFld .trug Reg.TRUG_STS.FAULT 1).setFld .trug Reg.TRUG_STS.CAUSE Cause.stale
  let d2 := if bar.poisoned then d1.poisonBed r.bed else d1
  let d3 := match r.input with
    | some k => (d2.releaseSlot k).1
    | none => d2
  let d4 := if keep then d3.setTrug i { x with closed := true } else { d3 with trugs := d3.trugs.eraseIdx i }
  ((d4.countWrap .trug Reg.TRUG_BUCKETS.COUNT 1).retireItem r.seq)

/-- A command ends with a cause of its own, and its barrow is POISONED, unless its bed has halted with it. -/
def Dev.trugPoison (d : Dev) (x : TrugInst) (r : TrugRun) (cause len : Nat) (keep : Bool) : Dev :=
  let d1 := d.trugFault r cause
  match d1.trugs.findIdx? (fun y => y.run.any (fun q => q.seq == r.seq)) with
  | some i => d1.trugRetire i x r (d1.trugBarrow r (TrugCmd.ofBytes r.cmd) len 0#5 (some cause)) keep
  | none => d1

/-- The planned bytes of a command's output, images taken to be of the smaller KIND. -/
def TrugCmd.planned (c : TrugCmd) (ms : List Member) (self : Nat) : Nat :=
  (if c.all then c.units else shardUnits c.units ms.length self) * c.outUnit false

/-- An instance whose shard is complete writes data, tag and barrow, and closes; SIZE_MIX and other causes post a POISONED barrow; a
slot generation that no longer matches at the release of the input is the fault STALE (R320, R324, R325, R328, 10 R249). -/
def Dev.closeTrug (d : Dev) (i : Nat) (x : TrugInst) (r : TrugRun) (b : BedCfg) : Dev :=
  let c := TrugCmd.ofBytes r.cmd
  let ms := d.members c.grp
  let self := d.selfOf c.grp
  let plan := c.planned ms self
  let keep := !x.dutiesDone ms self
  match r.poison with
  | some e => d.trugRetire i x r (d.trugBarrow r c plan 0#5 (some e)) false
  | none =>
    let results := (List.range ms.length).all (fun o => streamDone (x.stream 3 o o))
    let cause := orCause (x.shard c ms self).1.cause (if c.all then
      (List.range ms.length).foldl (fun e o => orCause e (c.streamCause c.fmtOut (x.stream 3 o o))) 0 else 0)
    if !x.shardReady ms self || (c.all && cause == 0 && !results) then d
    else
      let tag : MemSpan := ⟨c.tLoc, c.tagAddr, 16⟩
      let own := x.ownerMix c ms self
      let mix := match own with
        | some m => some m
        | none => if c.all then firstMix c.stepDiffers ((List.range ms.length).map (fun o => (o, x.stream 3 o o))) else none
      let d0 := match mix with
        | some m => d.noteMix m
        | none => d
      if cause = sizeMixCode then
        let d1 := d0.setFld .trug Reg.TRUG_STS.SIZE_MIX 1
        (if (d1.spanCause b tag true).isNone then d1.spanWrite tag 0 (tagBytes c.step c.bucket false) else d1).trugPoison
          x r cause plan keep
      else if cause ≠ 0 then d0.trugPoison x r cause plan keep
      else
        let o := if c.all then (0, d0) else d0.drawOccasion c b
        let y := x.output c b ms self o.1
        let dst : MemSpan := ⟨c.dLoc, c.dstAddr, y.total⟩
        match firstFault [o.2.spanCause b dst true, o.2.spanCause b tag true] with
        | some e => (o.2.countRefused e.2).trugPoison x r e.1 plan keep
        | none =>
          let d1 := (y.pieces.foldl (fun d p => d.spanWrite dst p.1 p.2) o.2).spanWrite tag 0
            (tagBytes c.step c.bucket mix.isNone)
          if r.input.any (fun k => !d1.takenFresh k) then d1.trugPoison x r Cause.stale plan keep
          else d1.trugRetire i x r (d1.trugBarrow r c y.total y.flags none) keep

/-- TRUG_INSTANCE_CLOSE: the oldest instance of a bucket whose command has started writes what it owns and closes, once its
barrow slot is claimed where it names a queue (R320). -/
def execTrugInstanceClose (t grp bucket : Nat) (s : State) : Host.Outcome State Fault Refusal :=
  s.run t .trug (fun d =>
    match d.trugs.findIdx? (fun x => x.grp == grp && x.bucket == bucket && x.run.isSome && !x.closed) with
    | none => d
    | some i => match d.trugs[i]? with
      | none => d
      | some x => match x.run with
        | none => d
        | some r => match d.bed r.bed with
          | none => d
          | some b =>
            if (TrugCmd.ofBytes r.cmd).queue ≠ 0xFFFF ∧ r.claimed = none then d else d.closeTrug i x r b.cfg)

/-! ### Registers (R307, R327, Tables 13.5, 13.7) -/

/-- Every open instance of a group closes and its staged packets are discarded (R327). -/
def Dev.purgeGroup (d : Dev) (g : Nat) : Dev :=
  let gone := d.trugs.filter (fun x => x.grp == g)
  ({ d with trugs := d.trugs.filter (fun x => x.grp != g) }.countSat .trug Reg.TRUG_DROP_CNT.COUNT
    (gone.foldl (fun (n : Nat) (x : TrugInst) => n + x.staged.length) 0)).countWrap .trug Reg.TRUG_BUCKETS.COUNT
      (gone.filter (fun (x : TrugInst) => !x.closed)).length

/-- TRUG_CTL takes the merged word `new`, and the command in `cmd` starts (Table 13.5). -/
def Dev.trugCtlWritten (d : Dev) (new cmd : Word) : Dev :=
  let d1 := d.setWord .trug 0x0 new
  match bitsOf cmd.toNat 3 0 with
  | 0 => d1
  | 1 => d1.purgeGroup (bitsOf new.toNat 15 12)
  | _ => d1.setFld .trug Reg.TRUG_STS.CMD_IGN 1

/-- PURGE: the base write of CMD = PURGE with its group (R327). -/
def execTrugPurge (t : Nat) (src : Source) (grp : Nat) (s : State) : Host.Outcome State Fault Refusal :=
  s.access t src .trug (fun d => d.rowWrite src .trug 0x0 (fun d =>
    d.trugCtlWritten (writeMerge .trug 0x0 .base (BitVec.ofNat 32 (grp % 16 * 2 ^ 12)) (d.word .trug 0x0)) 1#32))

/-- The entries rise by node and rank, each at most once (R307). -/
def membersRise : List Member → Bool
  | a :: b :: r => decide (a.node < b.node ∨ (a.node = b.node ∧ a.rank < b.rank)) && membersRise (b :: r)
  | _ => true

/-- The table of a group keeps the rules of R307. -/
def Dev.groupOk (d : Dev) (g : Nat) : Bool :=
  let n := d.fldI .trug Reg.TRUG_GRP_COUNT.COUNT g
  let ms := d.members g
  decide (1 ≤ n ∧ n ≤ 32768) && d.memberBase g % 8 == 0 && !d.anyBad .hbm (d.memberBase g) (8 * n) &&
    (List.range n).all (fun m => let b := d.memberBytes g m; decide (numAt b 2 2 < 4096 ∧ numAt b 4 1 < 8) && allZero (b.drop 5)) &&
    membersRise ms && (ms.filter (fun m => m.dev == d.devId)).length == 1

/-- TRUG_GRP_CTL of a group takes the merged word `new`: VALID = 1 checks the table; 0 ends the group's validity, which alone
is writable while VALID is 1 (R307, DEDUCED, entry 27). -/
def Dev.grpCtlWritten (d : Dev) (g : Nat) (new : Word) : Dev :=
  let b := Blk.trug
  let was := d.fldI b Reg.TRUG_GRP_CTL.VALID g
  let on := new.toNat.testBit 0
  if was = 1 && on then d.setFld b Reg.TRUG_STS.CMD_IGN 1
  else if !on then (d.setWord b (0x100 + g * 0x20) new).setFldI b Reg.TRUG_GRP_SELF.VALID g 0
  else
    let n := d.fldI b Reg.TRUG_GRP_COUNT.COUNT g
    let d1 := d.noteFrom 0xFF (.lodge d.wardenLodge) (Mem.hbm.wordsOf (d.memberBase g) (8 * min n 32768))
    if d.groupOk g then
      (((d1.setWord b (0x100 + g * 0x20) new).setFldI b Reg.TRUG_GRP_SELF.VALID g 1).setFldI b Reg.TRUG_GRP_SELF.MEMBER g
        ((d.members g).findIdx (fun m => m.dev == d.devId)))
    else (d1.setWord b (0x100 + g * 0x20) (new &&& ~~~1#32)).setFld b Reg.TRUG_STS.GRP_BAD 1

/-- Another register of a group (offset `o` in its 0x20 bytes) takes the merged word `new`: only while VALID is 0. -/
def Dev.grpWritten (d : Dev) (g o : Nat) (new : Word) : Dev :=
  if d.fldI .trug Reg.TRUG_GRP_CTL.VALID g = 0 then d.setWord .trug (0x100 + g * 0x20 + o) new
  else d.setFld .trug Reg.TRUG_STS.CMD_IGN 1

/-- TRUG_STAGE_SIZE takes the merged word `new`: only while no instance is open (Table 13.7). -/
def Dev.stageSizeWritten (d : Dev) (new : Word) : Dev :=
  if d.openTrugs 0 + d.openTrugs 1 = 0 then d.setWord .trug 0x10 new else d.setFld .trug Reg.TRUG_STS.CMD_IGN 1

/-- GROUP_VALIDATE: the base write of VALID = 1 (R307). -/
def execGroupValidate (t : Nat) (src : Source) (grp : Nat) (s : State) : Host.Outcome State Fault Refusal :=
  s.access t src .trug (fun d => d.rowWrite src .trug (0x100 + grp * 0x20) (fun d =>
    d.grpCtlWritten grp (writeMerge .trug (0x100 + grp * 0x20) .base 1#32 (d.word .trug (0x100 + grp * 0x20)))))

end Machine
end Sys2Proof
end

