-- ==== Sys2Proof/Machine/Barrow.lean ====
section
/-! DEFINITION. The stages of a barrow's slot (10 R247 to R250, R478): claim, post, take and release, by an engine whose
work in hand calls for it, or by software. -/
namespace Sys2Proof
namespace Machine

/-- The register block of a unit that handles barrows; software acts at the QUEUE block. -/
def Agent.blk : Agent → Blk
  | .rill d e => .rill d e
  | .plot d p => .plot d p
  | .sieve d s => .sieve d s
  | .mower d => .mower d
  | .trug => .trug
  | .software => .queue

/-- The bed halts at the next chime for a POISONED barrow: its cause as the consumer's outputs carry it (R248, R478). -/
def Barrow.poisonCause (b : Barrow) (bad : Bool) : Option Nat :=
  if bad then some Cause.ueConvert else if b.poisoned then some Cause.propagated else none

/-! ### Claims -/

/-- The claimer's instance of a bucket that waits for a slot of a queue: the first command whose own claim is missing. -/
def Dev.trugWaits (d : Dev) (q : Nat) : Option Nat :=
  d.trugs.findIdx? (fun x => match x.run with
    | some r => (TrugCmd.ofBytes r.cmd).queue == q && r.claimed.isNone
    | none => false)

/-- The unit's work in hand waits for a slot of queue `q` (R250). -/
def Dev.wantsSlot (d : Dev) (a : Agent) (q : Nat) : Bool :=
  match a with
  | .rill i e => match (d.rill i e).run with
    | some x => x.fields.outQ == q && q != 0xFFFF && x.claimed.isNone && (x.bad.isSome || x.hasInput || x.fields.empty)
    | none => false
  | .plot i p => match (d.plot i p).nextPass with
    | some x => x.fields.queue == q && q != 0xFFFF && x.slot.isNone &&
        (decide (d.fld (.plot i p) Reg.PLOT_STS.STATE < 2) || x.replay)
    | none => false
  | .sieve i s => match (d.sieve i s).run with
    | some x => (SieveCmd.ofBytes x.cmd).queue == q && q != 0xFFFF && x.claimed.isNone
    | none => false
  | .mower i => match (d.mower i).run with
    | some x => (MowCmd.ofBytes x.cmd).queue == q && q != 0xFFFF && x.claimed.isNone && ((x.begun && (!x.skew || x.ended)) || x.poison.isSome)
    | none => false
  | .trug => q != 0xFFFF && (d.trugWaits q).isSome
  | .software => true

/-- The unit's work in hand notes the slot it has claimed. -/
def Dev.noteClaim (d : Dev) (a : Agent) (q : Nat) (c : ClaimedSlot) : Dev :=
  match a with
  | .rill i e => d.modRun i e (fun x => { x with claimed := some c })
  | .plot i p => match (d.plot i p).nextPass with
    | some x => d.modPass i p x.seq (fun y => { y with slot := some c })
    | none => d
  | .sieve i s => d.modSieve i s (fun x => { x with claimed := some c })
  | .mower i => d.modMow i (fun x => { x with claimed := some c })
  | .trug => match d.trugWaits q with
    | some n => match d.trugs[n]? with
      | some x => d.setTrug n { x with run := x.run.map (fun (r : TrugRun) => { r with claimed := some c }) }
      | none => d
    | none => d
  | .software => d

/-- A rill goes on after its barrow has got what it waited for. -/
def Dev.goOn (d : Dev) (a : Agent) : Dev :=
  match a with
  | .rill i e => if (d.rill i e).run.any (fun x => x.fields.empty && x.claimed.isSome) then d.rillFinish i e else d.rillProgress i e
  | _ => d

/-- BARROW_CLAIM: the producer claims the next slot of its queue for the barrow it begins, while fewer than LIMIT are
outstanding; else it waits (R250). -/
def execBarrowClaim (t : Nat) (agent : Agent) (q : Nat) (s : State) : Host.Outcome State Fault Refusal :=
  s.run t agent.blk (fun d =>
    if d.wantsSlot agent q && d.canClaim d.lplot agent q then
      ((d.claimSlot agent q).noteClaim agent q (d.newClaim agent q)).goOn agent
    else d)

/-! ### Posts -/

/-- The barrow that software posts. -/
def BarrowArg.barrow (b : BarrowArg) : Barrow :=
  ⟨b.addr, b.length, 0, b.loc, b.path, b.last, b.flags, false, b.poisoned, false, b.cause⟩

/-- BARROW_POST: software posts into its oldest claimed slot; a rill posts the barrow in hand once its data is complete at
its destination. The other engines post as their command retires (R246, R249, R250). -/
def execBarrowPost (t : Nat) (agent : Agent) (q : Nat) (b : BarrowArg) (s : State) : Host.Outcome State Fault Refusal :=
  s.run t agent.blk (fun d =>
    match agent with
    | .software => (d.postSlot .software q b.barrow).1
    | .rill i e => d.rillPosts i e q
    | _ => d)

/-! ### Takes -/

/-- The first command of the Trug engine that waits for a barrow of a queue. -/
def TrugRun.waitsFor (q : Nat) (r : TrugRun) : Bool :=
  (TrugCmd.ofBytes r.cmd).inQ == q && q != 0xFFFF && r.input.isNone

/-- The unit's work in hand waits for a barrow of queue `q`. -/
def Dev.wantsBarrow (d : Dev) (a : Agent) (q : Nat) : Bool :=
  match a with
  | .rill i e => match (d.rill i e).run with
    | some x => x.fields.inQ == q && q != 0xFFFF && x.input.isNone && x.bad.isNone && !x.fields.empty
    | none => false
  | .plot _ _ => false
  | .sieve i s => match (d.sieve i s).run with
    | some x => (SieveCmd.ofBytes x.cmd).inQ == q && q != 0xFFFF && x.input.isNone && x.poison.isNone
    | none => false
  | .mower i => match (d.mower i).run with
    | some x => (MowCmd.ofBytes x.cmd).inQ == q && q != 0xFFFF && x.input.isNone && x.poison.isNone
    | none => false
  | .trug => d.trugWait.any (TrugRun.waitsFor q)
  | .software => true

/-- The list with its first waiting command after `g`. -/
def giveFirst (p : TrugRun → Bool) (g : TrugRun → TrugRun) : List TrugRun → List TrugRun
  | [] => []
  | r :: rs => if p r then g r :: rs else r :: giveFirst p g rs

/-- The unit's work in hand has the barrow it waited for; a POISONED one poisons the work, and a length that is no whole
number of elements where a rill needs them is the fault BAD_SIZE (R243, R248). -/
def Dev.noteTaken (d : Dev) (a : Agent) (q : Nat) (k : TakenBarrow) (cause : Option Nat) : Dev :=
  match a with
  | .rill i e => match (d.rill i e).run with
    | some x =>
      let r := x.fields
      let d1 := d.modRun i e (fun y => { y with input := some k, tainted := cause })
      (match cause with
        | some c => d1.setFld (.rill i e) Reg.RILL_STS.CAUSE c
        | none =>
          if r.srcLoc == 7 && (r.convert || r.transpose) && (elemsIn r.fS r.srcTs k.barrow.length).isNone then
            d1.rillUnrecov i e 0x22
          else d1)
    | none => d
  | .plot _ _ => d
  | .sieve i s => d.modSieve i s (fun y => { y with input := some k, poison := cause })
  | .mower i =>
    let d1 := d.modMow i (fun y => { y with input := some k })
    match cause with
    | some c => d1.mowFault i c
    | none => d1
  | .trug =>
    let give (r : TrugRun) : TrugRun := { r with input := some k, poison := cause }
    { d with trugWait := giveFirst (TrugRun.waitsFor q) give d.trugWait }
  | .software => d

/-- BARROW_TAKE: the consumer takes the next posted barrow of its queue (R247 to R250, R478). -/
def execBarrowTake (t : Nat) (agent : Agent) (q : Nat) (s : State) : Host.Outcome State Fault Refusal :=
  s.run t agent.blk (fun d =>
    if !d.wantsBarrow agent q then d
    else match d.takeSlot agent q with
      | none => d
      | some (b, d1) => match d1.taken.getLast? with
        | none => d1
        | some k => (d1.noteTaken agent q k (b.poisonCause (d.nextBad q))).goOn agent)

/-! ### Releases -/

/-- BARROW_RELEASE: software releases the oldest barrow it has taken from the queue. An engine releases its input as the
barrow or the command that used it is done (R249, R250). -/
def execBarrowRelease (t : Nat) (agent : Agent) (q : Nat) (s : State) : Host.Outcome State Fault Refusal :=
  s.run t agent.blk (fun d =>
    match agent with
    | .software => match d.firstTaken .software q with
      | some k => (d.releaseSlot k).1
      | none => d
    | _ => d)

end Machine
end Sys2Proof
end

