-- ==== Sys2Proof/Machine/Loader.lean ====
section
/-! DEFINITION. The trellis loader: the whole check of an image (03 R78), a full load (R77 to R81), the replant of a bed
(R82 to R87, R477) and the loader's commands and errors (R88 to R90). -/
namespace Sys2Proof
namespace Machine

/-! ### The check of an image -/

/-- The logical plots that the BED_MAP section of bed `b` lists, as they stand. -/
def rawPlots (img : Nat → Byte) (es : List DirEntry) (b : Nat) : List Nat :=
  match es.find? (fun e => e.bed == b && e.typ == 1) with
  | none => []
  | some e => (List.range (min 512 (imgNum img (e.off + 2) 2))).map (fun i =>
      imgNum img (e.off + 16 + 8 * imgNum img (e.off + 4) 1 + 4 * i) 2)

/-- The dies that hold the listed plots, ascending. -/
def diesOf (plots : List Nat) : List Nat := (List.range 8).filter (fun k => plots.any (fun L => L / 64 == k))

/-- The lowest die of the listed plots. -/
def lowestDie (plots : List Nat) : Nat := match diesOf plots with | [] => 0 | k :: _ => k

/-- What the loader asks of the device while it checks. -/
structure LoadView where
  /-- Physical plot of a logical plot by the map that the load would bring into force (R76). -/
  phys    : List (Option (Nat × Nat))
  stackOk : List Bool
  engFail : List Nat
  deriving DecidableEq, Repr

/-- The physical plot of logical plot `L`. -/
def LoadView.physOf (v : LoadView) (L : Nat) : Option (Nat × Nat) := (v.phys[L]?).join

/-- Step 6 of R78 for one section: its contents. The links of a ring list are checked with the list (R67). -/
def checkContents (img : Nat → Byte) (v : LoadView) (es : List DirEntry) (e : DirEntry) : Except LErr Unit :=
  match e.typ with
  | 1 => match readBedMap img v.physOf e with
    | .error er => .error er
    | .ok m => mustAll (fun i => match m.ring[i]? with
      | some r => must (linkDirs r (ringNext m.ring i)).isSome e.index LCode.ringLink
          (e.off + 16 + 8 * m.turnstiles.length + 4 * i)
      | none => .ok ()) (List.range m.ring.length)
  | 2 => (readArith img e).map (fun _ => ())
  | 3 => (readMemory img (fun s => v.stackOk[s]?.getD false) e).map (fun _ => ())
  | 4 => (readRoutes img e).map (fun _ => ())
  | 5 => (readFurrows img (rawPlots img es e.bed) e).map (fun _ => ())
  | 6 => (readProgram img (e.die == lowestDie (rawPlots img es e.bed)) e).map (fun _ => ())
  | _ => .ok ()

/-- The section of a type of bed `b`. -/
def secOf (es : List DirEntry) (b typ : Nat) : DirEntry :=
  (es.find? (fun e => e.bed == b && e.typ == typ)).getD ⟨noSec, typ, b, 0, 0, 0, 0⟩

/-- The configuration that the checked sections of bed `b` give (R65 to R75). -/
def readBed (img : Nat → Byte) (v : LoadView) (es : List DirEntry) (b : Nat) : Except LErr BedCfg :=
  match readBedMap img v.physOf (secOf es b 1), readArith img (secOf es b 2),
    readMemory img (fun s => v.stackOk[s]?.getD false) (secOf es b 3), readRoutes img (secOf es b 4),
    readFurrows img (rawPlots img es b) (secOf es b 5),
    mapAll (fun e => readProgram img (e.die == lowestDie (rawPlots img es b)) e)
      (es.filter (fun e => e.bed == b && e.typ == 6)) with
  | .ok m, .ok a, .ok p, .ok r, .ok f, .ok ps => .ok
    { ringCount := m.rings, turnstiles := m.turnstiles, ring := m.ring, exact := a.exact, unchecked := a.unchecked,
      policyStop := a.policyStop, round := a.round, ieee := a.ieee, jobSeed := a.jobSeed, pcMask := p.pcMask,
      hbm := p.hbm, gh := p.gh, rillMask := r.rills, sieveMask := r.sieves, mowerMask := r.mowers,
      routes := r.routes, furs := f, start := match ps with | [] => 0 | q :: _ => q.1,
      progs := ps.map (fun q => q.2) }
  | .error er, _, _, _, _, _ => .error er
  | _, .error er, _, _, _, _ => .error er
  | _, _, .error er, _, _, _ => .error er
  | _, _, _, .error er, _, _ => .error er
  | _, _, _, _, .error er, _ => .error er
  | _, _, _, _, _, .error er => .error er

/-- The logical plots of a bed. -/
def BedCfg.plots (c : BedCfg) : List Nat := c.ring.map (fun r => r.lplot)

/-- Two HBM regions of different beds overlap and are not both SHARED (R71). -/
def HbmRegion.clash (x y : HbmRegion) : Bool :=
  decide (x.base < y.base + y.size ∧ y.base < x.base + x.size) && !(x.shared && y.shared)

/-- Two glasshouse regions overlap. -/
def GhRegion.clash (x y : GhRegion) : Bool :=
  x.die == y.die && decide (x.base < y.base + y.size ∧ y.base < x.base + x.size)

/-- What two beds both take: ring-link directions, plots, memory and engines, each a check of R78 step 7 with the type of
the section that is at fault and its code (R67, R71, R73). -/
def BedCfg.sharesLinks (x y : BedCfg) : Bool :=
  (bedLinks x.ringCount x.ring).any (fun l => (bedLinks y.ringCount y.ring).contains l)
def BedCfg.sharesPlots (x y : BedCfg) : Bool := x.plots.any (fun L => y.plots.contains L)
def BedCfg.sharesMemory (x y : BedCfg) : Bool :=
  x.hbm.any (fun r => y.hbm.any (fun s => r.clash s)) || x.gh.any (fun r => y.gh.any (fun s => r.clash s))
def BedCfg.sharesEngines (x y : BedCfg) : Bool :=
  (x.rillMask &&& y.rillMask) != 0 || (x.sieveMask &&& y.sieveMask) != 0 || (x.mowerMask &&& y.mowerMask) != 0

/-- Every engine of the bed lies where R73 lets it and passed BIST (R73, 19 R433). -/
def BedCfg.enginesOk (c : BedCfg) (fails : List Nat) : Bool :=
  (List.range 128).all (fun i => !c.rillMask.testBit i || !fails.contains (Blk.rill (i / 16) (i % 16)).base)
  && (List.range 32).all (fun i => !c.sieveMask.testBit i ||
      (c.plots.any (fun L => L / 16 == i) && !fails.contains (Blk.sieve (i / 4) (i % 4)).base))
  && (List.range 8).all (fun i => !c.mowerMask.testBit i ||
      (c.plots.any (fun L => L / 64 == i) && !fails.contains (Blk.mower i).base))
  && c.gh.all (fun g => !fails.contains ((Blk.gh g.die).base + 1 + g.base / 96))

/-- An item names an engine of the bed, or a plot that the bed holds on the item's die (R73). -/
def BedCfg.itemEngineOk (c : BedCfg) (die : Nat) (i : ItemCfg) : Bool :=
  match i.kind with
  | .rill => c.rillMask.testBit (die * 16 + i.unit)
  | .sieve => c.sieveMask.testBit (die * 4 + i.unit)
  | .mower => c.mowerMask.testBit die
  | .pass => c.plots.contains (die * 64 + i.unit)
  | _ => true

/-- No PASS item forwards from the last plot of an arc of the ring it names (08 R201). -/
def BedCfg.passArcOk (c : BedCfg) (die : Nat) (i : ItemCfg) : Bool :=
  match i.kind with
  | .pass =>
    let m := leNat (i.cmd.take 1)
    !(m.testBit 5 && endsArc c.turnstiles c.ring (bitsOf m 6 6) (die * 64 + i.unit))
  | _ => true

/-- A PROGRAM section steps through the same records as the bed's first one (R75). -/
def BedCfg.programAgrees (c : BedCfg) (q : ProgCfg) (start : Nat) : Bool :=
  match c.progs with
  | [] => true
  | p :: _ => q.records.map (fun r => (r.next, r.repeats, r.halt, r.irq))
      == p.records.map (fun r => (r.next, r.repeats, r.halt, r.irq)) && start == c.start

/-- The beds to check, each with the beds that it must not disturb: those of the running image that stay, and the beds
before it in the directory. -/
def withBefore (others : List BedCfg) : List (Nat × BedCfg) → List (Nat × BedCfg × List BedCfg)
  | [] => []
  | (b, c) :: rest => (b, c, others) :: withBefore (others ++ [c]) rest

/-- The PROGRAM sections, each with the bytes that its die's store must hold up to it: those of the programs in force
and of the sections before it (R75, R84). -/
def storeLoads (running : List BedCfg) (es : List DirEntry) : List (DirEntry × Nat) :=
  let ps := es.filter (fun e => e.typ == 6)
  ps.map (fun e => (e,
    running.foldl (fun n c => n + (c.progs.filter (fun p => p.die == e.die)).foldl (fun n p => n + p.storeBytes) 0) 0
    + (ps.filter (fun x => x.die == e.die && decide (x.index ≤ e.index))).foldl (fun n x => n + (x.len - 16)) 0))

/-- A section fails a check of step 7 (entry 58). -/
def failsAt (e : DirEntry) (code : Nat) (ok : Bool) : Except LErr Unit := must ok e.index code e.off

/-- Step 7 of R78, in its order: ring links across beds; overlaps; engine ownership, with the turnstiles' rills and the
items' engines; store space; the match of PROGRAM sections and dies; and last, where the rule does not place them, the
records that must agree and the slots (entry 75). `others`: the beds of the running image that stay, all of whose
resources a replant leaves alone; `code`: the code for taking another bed's resource (R83); `running`: the programs that
the stores hold; `slotsOk`: the slots of a bed fit (R81). -/
def checkSpans (es : List DirEntry) (v : LoadView) (others running : List BedCfg) (code : Nat → Nat)
    (slotsOk : BedCfg → Bool) (starts : Nat → List Nat) (bs : List (Nat × BedCfg)) : Except LErr Unit :=
  let bb := withBefore others bs
  let alone (typ cd : Nat) (ok : BedCfg → Bool) : Except LErr Unit :=
    mustAll (fun x => failsAt (secOf es x.1 typ) cd (ok x.2)) bs
  let across (typ cd : Nat) (clash : BedCfg → BedCfg → Bool) : Except LErr Unit :=
    mustAll (fun x => failsAt (secOf es x.1 typ) (code cd) (!x.2.2.any (fun y => clash x.2.1 y))) bb
  let programs (f : Nat → BedCfg → DirEntry → Except LErr Unit) : Except LErr Unit :=
    mustAll (fun x => mustAll (f x.1 x.2) (es.filter (fun e => e.bed == x.1 && e.typ == 6))) bs
  both (mustAll (fun x => both
      (failsAt (secOf es x.1 1) LCode.ringDir (decide (bedLinks x.2.1.ringCount x.2.1.ring).Nodup))
      (failsAt (secOf es x.1 1) (code LCode.ringDir) (!x.2.2.any (fun y => x.2.1.sharesLinks y)))) bb) <|
  both (across 1 LCode.plot BedCfg.sharesPlots) <|
  both (across 3 LCode.partition BedCfg.sharesMemory) <|
  both (across 4 LCode.engine BedCfg.sharesEngines) <|
  both (alone 4 LCode.engine (fun c => c.enginesOk v.engFail)) <|
  both (alone 1 LCode.turnstile (fun c =>
    c.turnstiles.all (fun t => c.rillMask.testBit (t.lplot / 64 * 16 + t.rill)))) <|
  both (programs (fun _ c e => match c.progs.find? (fun p => p.die == e.die) with
    | none => .ok ()
    | some p => both (failsAt e LCode.engine (p.records.all (fun r => r.items.all (c.itemEngineOk e.die))))
        (failsAt e LCode.program (p.records.all (fun r => r.items.all (c.passArcOk e.die)))))) <|
  both (mustAll (fun x => failsAt x.1 LCode.storeFull (decide (x.2 ≤ 2 ^ 21))) (storeLoads running es)) <|
  both (programs (fun _ c e => failsAt e LCode.sectionSet ((diesOf c.plots).contains e.die))) <|
  both (mustAll (fun x => must ((diesOf x.2.plots).all (fun k => (x.2.progs.map (fun p => p.die)).contains k))
    noSec LCode.sectionSet 0) bs) <|
  both (mustAll (fun x => mustAll (fun y => failsAt y.1 LCode.program (x.2.programAgrees y.2.1 y.2.2))
    ((es.filter (fun e => e.bed == x.1 && e.typ == 6)).zip (x.2.progs.zip (starts x.1)))) bs) <|
  alone 1 LCode.slots slotsOk

/-- Steps 1 to 6 of R78, and the beds that the image defines. `key`: the key of a KEY_ID that may sign trellis images
(19 R436). `counter`: the anti-rollback counter (R64, 19 R437); `noIdent`: a warden without identity refuses every
image (19 R439). -/
def checkImage (img : Nat → Byte) (v : LoadView) (isReplant : Bool) (bed src len counter : Nat) (noIdent : Bool)
    (key : Nat → Option Nat) : Except LErr (Header × List DirEntry × List (Nat × BedCfg) × Nat) :=
  match readHeader img isReplant bed src len with
  | .error er => .error er
  | .ok h =>
    let es := (List.range h.sections).map (readEntry img)
    let dirEnd := 0x40 + 48 * h.sections
    let dig := Config.sm3 (imgBytes img 0 dirEnd)
    let sig := (es.find? (fun e => e.typ == 7)).getD ⟨noSec, 7, 0xFF, 0xFF, 0, 0, 0⟩
    match both (must (decide (dirEnd ≤ h.len)) noSec LCode.layout 0x20) <|
      both (checkEntries img h dirEnd es) <|
      both (checkSectionSet h es) <|
      both (must (key h.keyId).isSome noSec LCode.key 0x1C) <|
      both (must (Config.sm2Verify ((key h.keyId).getD 0) dig (imgBig img sig.off 32) (imgBig img (sig.off + 32) 32))
        sig.index LCode.sigFail sig.off) <|
      both (must (!noIdent && decide (counter ≤ h.secVer)) noSec LCode.rollback 0x18) <|
      both (mustAll (fun e => must (e.typ == 7 || Config.sm3 (imgBytes img e.off e.len) == e.digest)
        e.index LCode.digest (0x50 + 48 * e.index)) es) <|
      mustAll (checkContents img v es) es with
    | .error er => .error er
    | .ok _ => match mapAll (fun b => (readBed img v es b).map (fun c => (b, c))) (dirBeds es) with
      | .error er => .error er
      | .ok bs => .ok (h, es, bs, dig)

/-- The START values of the bed's PROGRAM sections. -/
def startsOf (img : Nat → Byte) (es : List DirEntry) (b : Nat) : List Nat :=
  (es.filter (fun e => e.bed == b && e.typ == 6)).map (fun e => imgNum img (e.off + 8) 4)

/-- At most 32 of the beds up to `c` hold plots on any die of `c` (R81). -/
def slotsFit (bs : List (Nat × BedCfg)) (c : BedCfg) : Bool :=
  (diesOf c.plots).all (fun k =>
    decide (((bs.map (fun x => x.2)).filter (fun y => (diesOf y.plots).contains k)).length ≤ 32))

/-- Step 7 of R78 for a full image. -/
def checkFull (img : Nat → Byte) (v : LoadView) (es : List DirEntry) (bs : List (Nat × BedCfg)) : Except LErr Unit :=
  checkSpans es v [] [] id (slotsFit bs) (startsOf img es) bs

/-! ### The loader's registers -/

/-- An operation or command of the loader ends in an error (Table 3.8, Table 3.11). -/
def Dev.loaderErr (d : Dev) (e : LErr) : Dev :=
  (((d.setFld .trellis Reg.TRELLIS_ERR.CODE e.code).setFld .trellis Reg.TRELLIS_ERR.SECTION e.sec).setFld
    .trellis Reg.TRELLIS_ERR_OFF.OFFSET e.off).setFld .trellis Reg.TRELLIS_STS.ERR 1

/-- An operation of the loader ends well: DONE, and no error is recorded. -/
def Dev.loaderDone (d : Dev) : Dev :=
  (((d.setFld .trellis Reg.TRELLIS_ERR.CODE 0).setFld .trellis Reg.TRELLIS_ERR.SECTION noSec).setFld
    .trellis Reg.TRELLIS_ERR_OFF.OFFSET 0).setFld .trellis Reg.TRELLIS_STS.DONE 1

/-- LSTATE (Table 3.10). -/
def Dev.setLstate (d : Dev) (n : Nat) : Dev := d.setFld .trellis Reg.TRELLIS_STS.LSTATE n

/-- The loader has no operation left; a replant's first issue may still be awaited. -/
def Dev.loaderIdle (d : Dev) : Dev :=
  { d.setLstate 0 with loader := { LoaderSt.start with awaiting := d.loader.awaiting } }

/-- A bed of the running image is RUN, SLIPPING or REPLANT (R77). -/
def Dev.bedsRunning (d : Dev) : Bool :=
  d.beds.any (fun e => match e.2 with
    | some x => x.state == .run || x.state == .slipping || x.state == .replant | none => false)

/-- The staging address. -/
def Dev.stageAddr (d : Dev) : Nat :=
  d.fld .trellis Reg.TRELLIS_SRC_HI.SRC_HI * 2 ^ 32 + d.fld .trellis Reg.TRELLIS_SRC_LO.SRC_LO

/-- The staged image as the loader reads it from HBM; an address beyond the 40 bits of device HBM reads as nothing
written. -/
def Dev.staged (d : Dev) : Nat → Byte := fun o =>
  if d.stageAddr + o < 2 ^ 40 then d.readByte .hbm (d.stageAddr + o) else 0#8

/-- The stack is not FAILED and its controller's clock bit is set (17 R411, 19 R432). -/
def Dev.stackOk (d : Dev) (s : Nat) : Bool :=
  !(d.fld (.security d.wardenLodge) Reg.SEC_HBM_FAIL.STACKS).testBit s && d.clockOn (.hbmCtl (s / 2) (s % 2))

/-- The failures that the next full load brings into force (07 R190). -/
def Dev.mergedArr (d : Dev) : List Nat := (d.arrFail ++ d.arrNew).eraseDups
def Dev.mergedDef (d : Dev) : List Nat := (d.defFail ++ d.defNew).eraseDups

/-- What the loader asks of the device: for a full load with the failures recorded in service (07 R190). -/
def Dev.loadView (d : Dev) (full : Bool) : LoadView where
  phys := (List.range 512).map (if full then mapPlot d.mergedArr d.mergedDef else mapPlot d.arrFail d.defFail)
  stackOk := (List.range 16).map d.stackOk
  engFail := d.engFail

/-- The key of a KEY_ID that may sign trellis images: the vendor's, or an enrolled owner key of the warden lodge with
the permission (R78, 19 R436). -/
def Dev.imageKey (d : Dev) (id : Nat) : Option Nat :=
  if id = 0 then some Config.vendorKey
  else (d.owners.find? (fun o => o.lodge == d.wardenLodge && o.slot == id && o.perms.testBit 0)).map (fun o => o.key)

/-- The higher of the two lodges' counter 2 (19 R437). -/
def Dev.trellisCounter (d : Dev) : Nat :=
  max (d.fldI (.security 0) Reg.SEC_CTR.VALUE 2) (d.fldI (.security 1) Reg.SEC_CTR.VALUE 2)

/-- The check of the staged image for the operation in progress. TRELLIS_SRC and TRELLIS_LEN are read as VERIFY ends
(DESIGN CHOICE, entry 72). -/
def Dev.checkStaged (d : Dev) (isReplant : Bool) : Except LErr (Header × List DirEntry × List (Nat × BedCfg) × Nat) :=
  checkImage d.staged (d.loadView (!isReplant)) isReplant d.loader.bed d.stageAddr
    (d.fld .trellis Reg.TRELLIS_LEN.LEN) d.loader.counter
    (!d.isSet (.security d.wardenLodge) Reg.SEC_STS.IDENT_OK) d.imageKey

/-! ### Configuration -/

/-- A bed as a load or a replant leaves it, at record START (R80, R87). -/
def Bed.fresh (c : BedCfg) (slots : List (Nat × Nat)) : Bed where
  cfg := c
  slots := slots
  run := false
  runAt := 0
  policyStop := c.policyStop
  slipLimit := 4
  state := .idle
  haltCause := 0
  overrun := false
  hazard := false
  pc := c.start
  rep := 0
  ovrCnt := 0
  winCnt := 0
  slack := 0
  slips := 0
  openT := none
  lastRetire := none
  sample := none
  poisoned := false

/-- The slots of a full load: on each die, the beds that hold plots there in ascending number (R80). -/
def fullSlots (bs : List (Nat × BedCfg)) (b : Nat) (c : BedCfg) : List (Nat × Nat) :=
  (diesOf c.plots).map (fun k =>
    (k, (bs.filter (fun x => decide (x.1 < b) && (diesOf x.2.plots).contains k)).length))

/-- The furrow that a FURROWS entry sets (R74). -/
def FurCfg.furrow (f : FurCfg) : Furrow := { Furrow.start with base := f.base, size := f.size }

/-- The furrows of a bed's image are set (R74). -/
def Dev.setFurs (d : Dev) (c : BedCfg) : Dev :=
  c.furs.foldl (fun d f => match d.physOf f.lplot with
    | some (die, p) => d.setFur die p f.fur f.furrow
    | none => d) d

/-- The furrows that a replant's image does not list hold undefined values (R87). -/
def Dev.undefineFurs (d : Dev) (c : BedCfg) : Dev :=
  let t := d.takeFree
  c.plots.foldl (fun d L => match d.physOf L with
    | some (die, p) => (List.range 32).foldl (fun d f =>
        if c.furs.any (fun x => x.lplot == L && x.fur == f) then d
        else
          let v := Config.freeFurrow t.1 (furKey die p f)
          d.setFur die p f { Furrow.start with
            base := v.1 % 8192, size := v.2.1 % 8192, head := v.2.2.1, read := v.2.2.2.1, tail := v.2.2.2.2
            fill := ((List.range (v.2.1 % 8192)).filter (Config.freeFill t.1 (furKey die p f))).map (fun i =>
              v.2.2.2.2 / 64 + i) }) d
    | none => d) t.2

/-- The trays of the Sieves that a replant gives to the bed or takes from it hold undefined values; their check bits stay as they
were (11 R278; entry 5). -/
def Dev.undefineTrays (d : Dev) (old new : Nat) : Dev :=
  let t := d.takeFree
  (List.range 32).foldl (fun d k => if old.testBit k == new.testBit k then d else d.renewTray k (t.1 + 1)) t.2

/-- The plots of the list hold no tile, no accumulators and no pass; PLOT_STS shows it (R80, R87). -/
def Dev.clearPlots (d : Dev) (Ls : List Nat) : Dev :=
  Ls.foldl (fun d L => match d.physOf L with
    | some (die, p) => ((((d.setPlot die p PlotSt.start).setFld (.plot die p) Reg.PLOT_STS.ACC_VALID 0).setFld
        (.plot die p) Reg.PLOT_STS.SHADOW_VALID 0).setFld (.plot die p) Reg.PLOT_STS.LIVE_VALID 0).setFld
        (.plot die p) Reg.PLOT_STS.STATE 0
    | none => d) d

/-- The CLKEN words of die `k` that the loader writes: the engine, shed, glasshouse and plot bits of the beds in force
(17 R411). -/
def Dev.loaderClken (d : Dev) (k : Nat) : List (Nat × Nat) :=
  let cs := d.beds.filterMap (fun e => e.2.map (fun x => x.cfg))
  let any (f : BedCfg → Bool) : Bool := cs.any f
  let old := (d.word (.clock d.wardenLodge) (Reg.CLKEN_DIE.DIE_CTL.offAt k)).toNat
  let rills := cs.foldl (fun m c => m ||| bitsOf c.rillMask (16 * k + 15) (16 * k)) 0
  let sieves := cs.foldl (fun m c => m ||| bitsOf c.sieveMask (4 * k + 3) (4 * k)) 0
  let gh := old.testBit 6 || any (fun c => c.gh.any (fun g => g.die == k))
  let w := putBits (putBits (putBits (putBits (putBits old 27 24 sieves) 23 8 rills) 6 6 (bit gh)) 5 5
    (bit (any (fun c => c.mowerMask.testBit k)))) 4 4 (bit (any (fun c => (diesOf c.plots).contains k)))
  let plots := (List.range 68).foldl (fun m p => match d.bedOfPlot k p with
    | some _ => if d.arrFail.contains (k * 68 + p) || d.arrNew.contains (k * 68 + p) then m else m + 2 ^ p
    | none => m) 0
  [(0x200 + k * 0x20, w), (0x204 + k * 0x20, plots % 2 ^ 32), (0x208 + k * 0x20, plots / 2 ^ 32 % 2 ^ 32),
   (0x20C + k * 0x20, plots / 2 ^ 64)]

/-- A CLKEN word is written in both lodges' copies, with CLKEN_PEND until it takes effect (17 R399, R410). -/
def Dev.setClken (d : Dev) (o w : Nat) : Dev :=
  let v := BitVec.ofNat 32 w
  let d1 := (d.setWord (.clock 0) o v).setWord (.clock 1) o v
  if d.word (.clock 0) o = v ∧ d.word (.clock 1) o = v then d1
  else (d1.setFld (.clock 0) Reg.CLK_STS.CLKEN_PEND 1).setFld (.clock 1) Reg.CLK_STS.CLKEN_PEND 1

/-- The loader writes the clock enables (17 R411). -/
def Dev.writeClken (d : Dev) : Dev :=
  (List.range 8).foldl (fun d k => (d.loaderClken k).foldl (fun d w => d.setClken w.1 w.2) d) d

/-- Measurement 5 of both lodges takes a new value (19 R441). -/
def Dev.setMeas5 (d : Dev) (v : Nat) : Dev :=
  (List.range 8).foldl (fun d w =>
    let x := BitVec.ofNat 32 (leNat ((leBytes 32 v).reverse.drop (4 * w) |>.take 4))
    (d.setWord (.security 0) (0x100 + 5 * 0x20 + 4 * w) x).setWord (.security 1) (0x100 + 5 * 0x20 + 4 * w) x) d

/-- Measurement 5 as a digest number. -/
def Dev.meas5Bytes (d : Dev) : List Byte :=
  (List.range 8).flatMap (fun w => leBytes 4 (d.word (.security d.wardenLodge) (0x100 + 5 * 0x20 + 4 * w)).toNat)

/-- TRELLIS_BEDS names the beds defined. -/
def Dev.noteBeds (d : Dev) : Dev :=
  let m := d.bedIds.foldl (fun m b => m + 2 ^ b) 0
  (d.setFld .trellis Reg.TRELLIS_BEDS_LO.BEDS_LO m).setFld .trellis Reg.TRELLIS_BEDS_HI.BEDS_HI (m / 2 ^ 32)

/-- A full load takes effect (R80, R76, 07 R190, 17 R411, 19 R441). -/
def Dev.applyFull (d0 : Dev) (h : Header) (bs : List (Nat × BedCfg)) (dig : Nat) : Dev :=
  let d := d0.settleAll
  let d1 := { d with arrFail := d.mergedArr, defFail := d.mergedDef, arrNew := [], defNew := [],
                     beds := [], items := [], toIssue := [], furs := [], plots := [],
                     sieves := (d.sieves.map (fun (e : Nat × SieveSt) => (e.1, { e.2 with run := none }))).filter (fun e => e.2 != SieveSt.start)
                     mowers := (d.mowers.map (fun (e : Nat × MowerSt) => (e.1, { e.2 with run := none }))).filter (fun e => e.2 != MowerSt.start) }
  let d2 := bs.foldl (fun d x => ((d.setBed x.1 (some (Bed.fresh x.2 (fullSlots bs x.1 x.2)))).setFurs x.2).copyMirrors x.2) d1
  let d3 := (d2.clearPlots (List.range 512)).noteBeds.writeClken
  let d4 := (((d3.setFld .trellis Reg.TRELLIS_IMG_ID_LO.ID_LO h.imageId).setFld .trellis Reg.TRELLIS_IMG_ID_HI.ID_HI
    (h.imageId / 2 ^ 32)).setFld .trellis Reg.TRELLIS_SEC_VER.SEC_VERSION h.secVer).setFld
    .trellis Reg.TRELLIS_STS.LOADED 1
  d4.setMeas5 (Config.sm3 (leBytes 32 dig).reverse)

/-- The loader's writes to the dies carry the pair of the warden lodge: they have their effect `f` where every die of the
list holds it, and the dies that do not refuse them, so that nothing takes effect (R89, 16 R384, R387). -/
def Dev.loaderWrites (d : Dev) (dies : List Nat) (f : Dev → Dev) : Dev :=
  let l := d.wardenLodge
  match dies.filter (fun k => d.diePair k != d.lodgePair l) with
  | [] => f (d.noteFirstWrite l)
  | stale => stale.foldl (fun d k => d.refuseStale k l) d

/-- TRELLIS_LOAD_DONE: the check of the staged image ends, and the load takes effect or leaves the configuration
unchanged (R77 to R80); the first one ends step 9 of start-up (19 R428). -/
def execTrellisLoadDone (t : Nat) (s : State) : Host.Outcome State Fault Refusal :=
  s.run t .trellis (fun d =>
    if d.fld .trellis Reg.TRELLIS_STS.LSTATE = 1 ∧ d.loader.op = some .load then
      let ends (d : Dev) : Dev := d.loaderIdle.endStep d.wardenLodge 9 10
      if d.bedsRunning then ends (d.loaderErr ⟨noSec, LCode.bedsRunning, 0⟩)
      else match d.checkStaged false with
        | .error e => ends (d.loaderErr e)
        | .ok (h, es, bs, dig) => match checkFull d.staged (d.loadView true) es bs with
          | .error e => ends (d.loaderErr e)
          | .ok _ => d.loaderWrites (List.range 8) (fun d => ends (d.applyFull h bs dig).loaderDone)
    else d)

/-! ### Replant -/

/-- The staging region of a replant image: a region that the bed holds with read permission, or the keeper region of
the warden lodge for a bed that the running image does not define (R83). -/
def Dev.stagingOk (d : Dev) (b : Nat) : Bool :=
  let a := d.stageAddr
  let n := d.fld .trellis Reg.TRELLIS_LEN.LEN
  match d.bed b with
  | some x => x.cfg.hbm.any (fun r => r.read && decide (r.base ≤ a ∧ a + n ≤ r.base + r.size))
  | none =>
    let l := d.wardenLodge
    let base := d.fld (.lodgeCtl l) Reg.KEEPER_MEM_BASE_HI.BASE_HI * 2 ^ 32
      + d.fld (.lodgeCtl l) Reg.KEEPER_MEM_BASE_LO.BASE_LO * 2 ^ 21
    decide (base ≤ a ∧ a + n ≤ base + d.fld (.lodgeCtl l) Reg.KEEPER_MEM_SIZE.SIZE * 2 ^ 21)

/-- The beds other than `b` of the image in force. -/
def Dev.otherBeds (d : Dev) (b : Nat) : List BedCfg :=
  d.beds.filterMap (fun e => if e.1 = b then none else e.2.map (fun x => x.cfg))

/-- The lowest free slot of a die (R83). -/
def Dev.freeSlot (d : Dev) (die : Nat) : Option Nat := (List.range 32).find? (fun s => (d.bedAtSlot die s).isNone)

/-- The slots of a replanted bed: it keeps its slot on a die and takes the lowest free one on a new die (R83). -/
def Dev.replantSlots (d : Dev) (b : Nat) (c : BedCfg) : List (Nat × Nat) :=
  (diesOf c.plots).map (fun k =>
    (k, match (d.bed b).bind (fun x => x.slotOn k) with
      | some s => s
      | none => (d.freeSlot k).getD 32))

/-- Step 7 of R78 for a replant image of bed `b`: every resource of another bed is refused with RESOURCE (R83), and its
programs must fit beside those that run (R84). -/
def Dev.checkReplant (d : Dev) (es : List DirEntry) (b : Nat) (c : BedCfg) : Except LErr Unit :=
  checkSpans es (d.loadView false) (d.otherBeds b) (d.beds.filterMap (fun e => e.2.map (fun x => x.cfg)))
    (fun _ => LCode.resource) (fun c => (d.replantSlots b c).all (fun s => decide (s.2 < 32))) (startsOf d.staged es)
    [(b, c)]

/-- The items of a bed that are still unretired end as at a halt: what has not begun is discarded and its rills are
cancelled (R84, R53). -/
def Dev.endItems (d : Dev) (b : Nat) : Dev :=
  match d.bed b with
  | some x => (d.dropUnbegun b).cancelRills x.cfg
  | none => d

/-- CONFIG begins: the bed's unretired items end (R84). -/
def Dev.beginConfig (d : Dev) (b : Nat) : Dev := (d.endItems b).setLstate 4

/-- A Sieve or Mower command of the bed has not retired (R84, 11 R287, 12 R305). -/
def Dev.commandsLeft (d : Dev) (b : Nat) : Bool :=
  d.items.any (fun i => i.bed == b && (i.cfg.kind == .sieve || i.cfg.kind == .mower))

/-- REPLANT_ARMED: VERIFY ends; the replant arms, and goes straight to CONFIG when its bed is IDLE, HALTED or not yet
defined (R78, R83, R84). An image staged outside its region is refused before step 1 of R78, and REMOVE of a bed that
is not defined removes nothing (DESIGN CHOICE, entry 73). -/
def execReplantArmed (t : Nat) (s : State) : Host.Outcome State Fault Refusal :=
  s.run t .trellis (fun d =>
    if d.fld .trellis Reg.TRELLIS_STS.LSTATE = 1 ∧ d.loader.op = some .replant then
      let b := d.loader.bed
      if !d.stagingOk b then (d.loaderErr ⟨noSec, LCode.resource, 0⟩).loaderIdle
      else match d.checkStaged true with
        | .error e => (d.loaderErr e).loaderIdle
        | .ok (_, es, bs, dig) =>
          let arm (c : Option BedCfg) : Dev :=
            let d1 := { d.setLstate 2 with
              loader := { d.loader with cfg := c, digest := dig, armT := d.now, drained := false } }
            match d1.bed b with
            | some x => if x.state = .idle ∨ x.state = .halted then d1.beginConfig b else d1
            | none => d1.beginConfig b
          match bs with
          | [] => arm none
          | (_, c) :: _ => match d.checkReplant es b c with
            | .error e => (d.loaderErr e).loaderIdle
            | .ok _ => arm (some c)
    else d)

/-- REPLANT_DRAIN_END: the drain ends when every item of the bed has retired, or at the chime after the one that began
it, and CONFIG begins (R84). -/
def execReplantDrainEnd (t : Nat) (s : State) : Host.Outcome State Fault Refusal :=
  s.run t .trellis (fun d =>
    if d.fld .trellis Reg.TRELLIS_STS.LSTATE = 3
        ∧ (d.loader.drained = true ∨ d.items.any (fun i => i.bed == d.loader.bed) = false) then
      d.beginConfig d.loader.bed
    else d)

/-- The bed after CONFIG: its new configuration with RUN and SLIP_LIMIT as they were (R84, R87). -/
def Dev.replanted (d : Dev) (b : Nat) (c : BedCfg) : Bed :=
  let f := Bed.fresh c (d.replantSlots b c)
  match d.bed b with
  | some x => { f with run := x.run, runAt := d.now, slipLimit := x.slipLimit }
  | none => f

/-- The dies on which a bed's configuration has a part: its plots', rills' and glasshouse regions'. -/
def BedCfg.touchedDies (c : BedCfg) : List Nat :=
  (List.range 8).filter (fun k => c.plots.any (fun L => L / 64 == k)
    || bitsOf c.rillMask (16 * k + 15) (16 * k) != 0 || c.gh.any (fun g => g.die == k))

/-- What CONFIG writes: the bed is reconfigured and waits for its first issue, or stays IDLE, or is removed; the clock
enables and measurement 5 follow (R84 to R87, 17 R411, 19 R441). -/
def Dev.configBed (d0 : Dev) (b : Nat) : Dev :=
  let d := d0.settleAll
  let old := match d.bed b with | some x => x.cfg.plots | none => []
  let sieves := match d.bed b with | some x => x.cfg.sieveMask | none => 0
  let kept := match d.loader.cfg with | some c => c.sieveMask | none => 0
  let d1 := { (d.undefineTrays sieves kept).clearPlots old with
    items := d.items.filter (fun i => i.bed != b), toIssue := d.toIssue.filter (fun q => q.bed != b) }
  let d2 := match d.loader.cfg with
    | none => d1.setBed b none
    | some c => ((((d1.setBed b (some (d.replanted b c))).clearPlots c.plots).undefineFurs c).setFurs c).copyMirrors c
  let d3 := (d2.noteBeds.writeClken).setMeas5
    (Config.sm3 (d.meas5Bytes ++ (leBytes 32 d.loader.digest).reverse))
  let resumes := match d3.bed b with | some x => x.run | none => false
  let d4 := d3.setFld .trellis Reg.TRELLIS_REPLANT_LAT.LAT_NS 0
  ({ d4 with loader := { d4.loader with awaiting := if resumes then some (b, d.loader.armT) else none } }).loaderDone.loaderIdle

/-- REPLANT_CONFIG_END: CONFIG ends. It includes the end of the bed's Sieve and Mower commands, which retire first; a pass
that is still in an array then ends with its plot's reconfiguration (R84, R85; DESIGN CHOICE, entry 74). -/
def execReplantConfigEnd (t : Nat) (s : State) : Host.Outcome State Fault Refusal :=
  s.run t .trellis (fun d =>
    let b := d.loader.bed
    if d.fld .trellis Reg.TRELLIS_STS.LSTATE = 4 ∧ d.commandsLeft b = false then
      let old := match d.bed b with | some x => x.cfg.touchedDies | none => []
      let new := match d.loader.cfg with | some c => c.touchedDies | none => []
      d.loaderWrites (old ++ new).eraseDups (fun d => d.configBed b)
    else d)

/-! ### Commands -/

/-- CMD = LOAD (R77, R88). -/
def Dev.startLoad (d : Dev) : Dev :=
  if d.fld .trellis Reg.TRELLIS_STS.LSTATE ≠ 0 then d.loaderErr ⟨noSec, LCode.loaderBusy, 0⟩
  else if d.bedsRunning then d.loaderErr ⟨noSec, LCode.bedsRunning, 0⟩
  else { d.setLstate 1 with loader := { LoaderSt.start with op := some .load, counter := d.trellisCounter,
                                                            awaiting := d.loader.awaiting } }

/-- CMD = REPLANT of bed `b` (R84, R88). -/
def Dev.startReplant (d : Dev) (b : Nat) : Dev :=
  if d.fld .trellis Reg.TRELLIS_STS.LSTATE ≠ 0 then d.loaderErr ⟨noSec, LCode.loaderBusy, 0⟩
  else { (d.setLstate 1).setFld .trellis Reg.TRELLIS_STS.LBED b with
         loader := { LoaderSt.start with op := some .replant, bed := b, counter := d.trellisCounter,
                                         awaiting := d.loader.awaiting } }

/-- The operation in progress is abandoned in VERIFY or ARMED with a code; in DRAIN and CONFIG it goes on (R88,
R89). -/
def Dev.abandonLoad (d : Dev) (code : Nat) : Dev :=
  let l := d.fld .trellis Reg.TRELLIS_STS.LSTATE
  if l = 1 ∨ l = 2 then (d.loaderErr ⟨noSec, code, 0⟩).loaderIdle else d

/-- TRELLIS_CTL takes the merged word `new` and starts the command `cmd` (Table 3.9). -/
def Dev.trellisCtlWritten (d : Dev) (new cmd : Word) : Dev :=
  let d1 := d.setWord .trellis 0x0 new
  match bitsOf cmd.toNat 3 0 with
  | 0 => d1
  | 1 => d1.startLoad
  | 2 => d1.startReplant (bitsOf new.toNat 21 16)
  | 3 => d1.abandonLoad LCode.aborted
  | _ => d1.loaderErr ⟨noSec, LCode.badCmd, 0⟩

/-- TRELLIS_LOAD: the base write of CMD = LOAD (R77). -/
def execTrellisLoad (t : Nat) (src : Source) (s : State) : Host.Outcome State Fault Refusal :=
  s.access t src .trellis (fun d => d.rowWrite src .trellis 0x0 (fun d =>
    d.trellisCtlWritten (d.word .trellis 0x0) 1#32))

/-- TRELLIS_REPLANT: the base write of CMD = REPLANT and BED (R84). -/
def execTrellisReplant (t : Nat) (src : Source) (bed : BitVec 6) (s : State) : Host.Outcome State Fault Refusal :=
  s.access t src .trellis (fun d => d.rowWrite src .trellis 0x0 (fun d =>
    d.trellisCtlWritten (BitVec.ofNat 32 (putBits (d.word .trellis 0x0).toNat 21 16 bed.toNat)) 2#32))

/-- TRELLIS_ABORT: the base write of CMD = ABORT (R88). -/
def execTrellisAbort (t : Nat) (src : Source) (s : State) : Host.Outcome State Fault Refusal :=
  s.access t src .trellis (fun d => d.rowWrite src .trellis 0x0 (fun d =>
    d.trellisCtlWritten (d.word .trellis 0x0) 3#32))

end Machine
end Sys2Proof
end

