-- ==== Sys2Proof/Machine/Memory.lean ====
section
/-! DEFINITION. Requests at HBM pseudo-channels and glasshouse bank ports (09 R229, R230, 10 R234, R235, R252, R253): the
order in which waiting requests are served, what keepers get, and what a refused engine does. -/
namespace Sys2Proof
namespace Machine

/-! ### Arbitration (R252, R253) -/

/-- The deadline that a request carries: of a rill's barrow, or of the command of a Sieve, a Mower or the Trug engine; others
carry none (R252). -/
def Dev.deadlineOf (d : Dev) (r : MemReq) : Option Nat :=
  match r.agent with
  | some (.rill i e) => (d.rill i e).run.bind (fun x => deadline48 x.openT x.fields.dryNs (r.part * x.fields.dryStep))
  | some (.sieve i k) => (d.sieve i k).run.bind (fun x => deadline48 x.openT (SieveCmd.ofBytes x.cmd).dryNs 0)
  | some (.mower i) => (d.mower i).run.bind (fun x => deadline48 x.openT (MowCmd.ofBytes x.cmd).dryNs 0)
  | some .trug => ((d.trugWait ++ d.trugs.filterMap (fun x => x.run)).find? (fun x => x.seq == r.part)).bind
      (fun x => deadline48 x.openT (TrugCmd.ofBytes x.cmd).dryNs 0)
  | some (.plot _ _) | some .software | none => none

/-- A request at its arbiter: the request, its arrival, and the port it came by. -/
structure Waiting where
  req     : MemReq
  arrival : Nat
  port    : Nat
  deriving DecidableEq, Repr

/-- The bed whose routes a request's packets take turns its traffic across first (03 R72). -/
def Dev.crossFirst (d : Dev) (r : MemReq) (a b : Nat) : Bool :=
  match r.agent.bind (fun x => d.bed (d.bedOfAgent x)) with
  | some x => x.cfg.across a b
  | none => false

/-- The die of an engine. -/
def Agent.die? : Agent → Option Nat
  | .rill i _ | .plot i _ | .sieve i _ | .mower i => some i
  | .trug | .software => none

/-- A request as it stands at the memory of die `die`, at the router that `at_` gives for the one by which it entered the die and
by the port that `port` gives: it arrives after the latency of its path and the cycles it was queued (01 R23, R472). -/
def Dev.waiting (d : Dev) (die : Nat) (at_ : Router → Router) (port : Router → Nat) (r : MemReq) : Waiting :=
  let p := Agent.place r.src.lodge r.agent
  let across := d.crossFirst r ((r.agent.bind Agent.die?).getD die) die
  let e := p.entry across die
  let cycles := r.queued + (r.crossing.map (fun c => c.2)).sum
  ⟨r, r.issued + p.latency across die (at_ e) d.latticeCycle + cycles * d.latticeCycle, port e⟩

/-- The deadline by which a request is ordered, from now on: its own, or 20,000 ns after its arrival (R252). -/
def Dev.effective (d : Dev) (w : Waiting) : Nat :=
  d.fromNow ((d.deadlineOf w.req).getD ((w.arrival / 64 + 20000) % 2 ^ 48))

/-- A request as the arbiter orders it: its effective deadline beside it. -/
def Waiting.before (a b : Nat × Waiting) : Bool :=
  decide (a.1 < b.1) || (a.1 == b.1 &&
    (decide (a.2.arrival < b.2.arrival) || (a.2.arrival == b.2.arrival && decide (a.2.port ≤ b.2.port))))

/-- The first of a list by deadline, then age, then router port (R253). -/
def firstReq : List (Nat × Waiting) → Option (Nat × Waiting)
  | [] => none
  | r :: rs => match firstReq rs with
    | none => some r
    | some x => some (if Waiting.before r x then r else x)

/-- The request that is served next; an HBM pseudo-channel serves hits on the open row first among those within 64 ns of
the earliest deadline (R253). -/
def nextReq (rows : Bool) (rs : List (Nat × Waiting)) : Option (Nat × Waiting) :=
  match firstReq rs with
  | none => none
  | some e =>
    if !rows then some e
    else match firstReq (rs.filter (fun r => r.2.req.hit && decide (r.1 ≤ e.1 + 64))) with
      | some h => some h
      | none => some e

/-- The requests of a round in the order in which they are served; the number bounds them. -/
def serveOrder (rows : Bool) : Nat → List (Nat × Waiting) → List MemReq
  | 0, _ => []
  | n + 1, rs => match nextReq rows rs with
    | none => []
    | some r => r.2.req :: serveOrder rows n (rs.erase r)

/-- The order in which the requests of a round are served at a memory of a die. -/
def Dev.round (d : Dev) (rows : Bool) (die : Nat) (at_ : Router → Router) (port : Router → Nat) (rs : List MemReq) :
    List MemReq :=
  serveOrder rows rs.length (rs.map (fun r => let w := d.waiting die at_ port r; (d.effective w, w)))

/-! ### Addresses -/

/-- The pseudo-channel of a device HBM address, 0 to 31 of its stack (R234). -/
def pcOf (a : Nat) : Nat := bitsOf a 35 35 * 16 + bitsOf a 13 10

/-- The address is populated HBM of a stack that is not FAILED (R235, 19 R432). -/
def Dev.hbmPopulated (d : Dev) (a : Nat) : Bool :=
  decide (a < 2 ^ 40 ∧ a % 2 ^ 35 < 0x430000000) &&
    !(d.fld (.security d.wardenLodge) Reg.SEC_HBM_FAIL.STACKS).testBit (a / 2 ^ 36)

/-! ### The lattice's checks (01 R28, 18 R418) -/

/-- A packet whose header is uncorrectable is discarded at its destination port and logged (R28, Table 18.3). -/
def Dev.dropHeader (d : Dev) (die : Nat) : Dev :=
  let d1 := (d.setFld (.lattice die) Reg.LAT_STS.HDR_DROP 1).countSat (.lattice die) Reg.LAT_HDR_DROP_CNT.COUNT 1
  d1.logPush (d1.entry (.lattice die) Ev.ue 2)

/-- The same, for a request of an agent, which then waits. -/
def Dev.loseHeader (d : Dev) (die : Nat) (a : Option Agent) : Dev :=
  let d1 := d.dropHeader die
  match a with
  | some .trug | some .software | none => d1
  | some x => { d1 with lost := if d1.lost.contains x then d1.lost else d1.lost ++ [x] }

/-- A word that a lattice port of a die corrects in flight is counted, and logged under CE_LOG (R28, 18 R424). -/
def Dev.latticeUpset (d : Dev) (die : Nat) (u : Upset) : Dev :=
  match u with
  | .corrected =>
    let d1 := ((d.setFld (.lattice die) Reg.LAT_STS.CE 1).countSat (.lattice die) Reg.LAT_CE_CNT.COUNT 1).countSat
      .fault Reg.FAULT_CE_TOTAL.COUNT 1
    if d.isSet .fault Reg.FAULT_CTL.CE_LOG && !d.chime.ceLogged.contains (Blk.lattice die).base then
      { d1.logPush (d1.entry (.lattice die) Ev.ce 1) with
        chime := { d1.chime with ceLogged := d1.chime.ceLogged ++ [(Blk.lattice die).base] } }
    else d1
  | _ => d

/-- A request waited for footbridge crossings of dies (Table 1.11). -/
def Dev.noteCrossings (d : Dev) (r : MemReq) : Dev :=
  r.crossing.foldl (fun d c => d.countSat (.lattice c.1) Reg.LAT_XING_WAIT.CYCLES c.2) d

/-! ### Serving a request -/

/-- The rill's walk stops for good at an element that its request has reached: all before it is complete, and the fault
is unrecoverable (10 R260). -/
def Dev.rillHitsStop (d : Dev) (die e : Nat) : Dev :=
  match (d.rill die e).run with
  | none => d
  | some x =>
    if x.bad.isSome || x.fields.empty || d.fld (.rill die e) Reg.RILL_STS.STATE != 1 || !d.rillReady die e x || !x.hostHere ||
        x.fields.dstLoc == 5 || d.inputStale x then d
    else
      let w := d.rillPartial die e x none
      match w.2 with
      | some (row, i, .cause k g) => (w.1.modRun die e (fun y => { y with doneRow := row, doneI0 := i })).rillStops die e x
          (row, i, .cause k g)
      | _ => d

/-- A keeper's or gatehouse's load or store of populated memory: a load with an uncorrectable word is an access fault, and
every word read is met by its checker (18 R418); the issuer is answered. -/
def Dev.keeperServed (d : Dev) (m : Mem) (at_ : Nat) (r : MemReq) : Dev :=
  match r.op with
  | .read n =>
    let d1 := d.noteFrom 0xFF (.lodge r.src.lodge) (m.wordsOf at_ n)
    d1.emit [.answer r.src (if d.anyBad m at_ n then .accessFault else .bytes (d.readBytes m at_ n) false)]
  | .write bs => (d.writeBytes m at_ bs).emit [.answer r.src .done]

/-- The length of a request. -/
def MemOp.size : MemOp → Nat
  | .read n => n
  | .write bs => bs.length

/-- The request of one engine: a rill's that its bed's partition or the map refuses stops the rill's walk; what an engine
reads or writes takes effect with its command. -/
def Dev.engineServed (d : Dev) (a : Agent) (addr : Nat) (fault : Option Nat) : Dev :=
  match a, fault with
  | .rill i e, some _ => (d.emit [.served (some a) addr false]).rillHitsStop i e
  | _, some _ => d.emit [.served (some a) addr false]
  | _, none => d.emit [.served (some a) addr true]

/-- The partition that binds an agent. -/
def Dev.agentCfg (d : Dev) (a : Agent) : Option BedCfg := (d.bed (d.bedOfAgent a)).map (fun b => b.cfg)

/-- The operation writes. -/
def MemOp.writes : MemOp → Bool
  | .read _ => false
  | .write _ => true

/-- One request of a round is served at the memory of die `die`, at byte `at_` of the memory: `fault` is what its agent's
partition makes of it, `absent` that nothing is there for anyone. -/
def Dev.serve (d : Dev) (m : Mem) (die at_ : Nat) (fault : Option Nat) (absent : Bool) (r : MemReq) : Dev :=
  if r.upset = .header then d.loseHeader die r.agent
  else
    let d := (d.latticeUpset die r.upset).noteCrossings r
    match r.agent with
    | some a => d.engineServed a r.addr fault
    | none => if absent then d.emit [.answer r.src .accessFault] else d.keeperServed m at_ r

/-! ### The commands -/

/-- The request is one of a pseudo-channel: its bytes lie there, and its issuer sends requests over the lattice. -/
def MemReq.ofPc (r : MemReq) (stack pc : Nat) : Bool :=
  decide (r.addr < 2 ^ 40) && r.addr / 2 ^ 36 == stack && pcOf r.addr == pc && !r.src.isHost &&
    decide (r.addr % 1024 + r.op.size ≤ 1024)

/-- HBM_REQUEST: the requests that wait at a pseudo-channel are served, earliest deadline first (R252, R253). -/
def execHbmRequest (t stack pc : Nat) (reqs : List MemReq) (s : State) : Host.Outcome State Fault Refusal :=
  s.run t (.hbmCtl (stack / 2) (stack % 2)) (fun d =>
    (d.round true (stack / 2) (ctlRouter (stack % 2)) (ctlPort (stack % 2)) (reqs.filter (fun r => r.ofPc stack pc))).foldl
      (fun d r =>
      let fault := match r.agent.bind d.agentCfg with
        | some c => d.hbmFault c r.op.writes r.addr
        | none => if d.hbmPopulated r.addr then none else some Cause.unpopulated
      let absent := !d.hbmPopulated r.addr || !d.clockOn (.hbmCtl (stack / 2) (stack % 2))
      d.serve .hbm (stack / 2) r.addr fault absent r) d)

/-- The request is one of a glasshouse bank port: a Table 10.5 address within the die's bank (R229). -/
def MemReq.ofBank (r : MemReq) (die bank : Nat) : Bool :=
  bitsOf r.addr 42 40 == die && r.addr % 2 ^ 26 / 6291456 == bank && decide (bank < 8) && !r.src.isHost &&
    decide (r.addr % 2 ^ 26 % 6291456 + r.op.size ≤ 6291456)

/-- GLASSHOUSE_REQUEST: the requests that wait at a bank port are served, earliest deadline first; a rill's request outside
its bed's regions is refused (R230, R253). -/
def execGlasshouseRequest (t die bank : Nat) (reqs : List MemReq) (s : State) : Host.Outcome State Fault Refusal :=
  s.run t (.gh die) (fun d =>
    (d.round false die (fun _ => Router.ofBank bank) (fun e => e.portFrom (Router.ofBank bank))
      (reqs.filter (fun r => r.ofBank die bank))).foldl (fun d r =>
      let fault := (r.agent.bind d.agentCfg).bind (fun c => d.ghFault c die (r.addr % 2 ^ 26))
      d.serve .gh die (die * 2 ^ 26 + r.addr % 2 ^ 26) fault (!d.clockOn (.gh die)) r) (d.wakeIdle (.gh die)))

end Machine
end Sys2Proof
end

