-- ==== Sys2Proof/Machine/Bench.lean ====
section
/-! DEFINITION. Requests at the benches (09 R219 to R227), the rewrite of corrected words (18 R421), and the writes that
reset a furrow. -/
namespace Sys2Proof
namespace Machine

/-! ### What a granted access gives its agent -/

/-- The pass of a plot whose stationary load, or whose output, the access is. -/
def Dev.loadOf (d : Dev) (i p : Nat) (a : BenchAccess) : Option Pass :=
  (d.plot i p).passes.find? (fun x => x.loads && x.stage == .accepted && x.sBase.isNone &&
    d.passAccess i p x.fields.furS false (x.fields.tileBytes ((d.passCfg x).elim false (fun b => b.exact))) == some a)
def Dev.outputOf (d : Dev) (i p : Nat) (a : BenchAccess) : Option Pass :=
  (d.plot i p).passes.find? (fun x => x.oBase.isNone && d.passAccess i p x.fields.furO true x.fields.outBytes == some a)

/-- The access of a Sieve's command that is granted: the first operand that needs it. -/
def Dev.sieveGrant (d : Dev) (i s at_ : Nat) (a : BenchAccess) (x : SieveRun) : SieveRun :=
  let c := SieveCmd.ofBytes x.cmd
  let is (loc addr code : Nat) (have_ : Option Nat) (write : Bool) : Bool :=
    loc == 2 && have_.isNone && (match d.furOfAddr addr with
      | some f => (⟨.sieve i s, f.1, f.2.1, f.2.2, 3, write, c.bytes code c.rows⟩ : BenchAccess) == a
      | none => false)
  if is c.xLoc c.xAddr c.fmtX x.xAt false then { x with xAt := some at_ }
  else if is c.zLoc c.zAddr c.fmtZ x.zAt false then { x with zAt := some at_ }
  else if is c.yLoc c.yAddr c.fmtY x.yAt true then { x with yAt := some at_ }
  else x

/-- The agent has the range that begins at a byte count. -/
def Dev.grant (d : Dev) (a : BenchAccess) (at_ : Nat) : Dev :=
  match a.agent with
  | .plot i p =>
    if a.write then
      match d.outputOf i p a with
      | some x => d.modPass i p x.seq (fun y => { y with oBase := some at_ })
      | none => d
    else match d.loadOf i p a with
      | some x =>
        if d.fld (.plot i p) Reg.PLOT_STS.STATE = 4 then d.modPass i p x.seq (fun y => { y with sBase := some at_ })
        else (d.settle i p).beginLoad i p x ((d.passCfg x).elim false (fun b => b.exact)) at_
      | none => d
  | .rill i e =>
    (d.modRun i e (fun y => if a.write then { y with dstAt := some at_ } else { y with srcAt := some at_ })).rillProgress i e
  | .sieve i s => d.modSieve i s (fun y => d.sieveGrant i s at_ a y)
  | .mower _ | .trug | .software => d

/-- The agent's work in hand calls for the access. -/
def Dev.wantsAccess (d : Dev) (a : BenchAccess) : Bool :=
  match a.agent with
  | .rill i e => match (d.rill i e).run with
    | some x => (d.rillAccesses i e x).contains a
    | none => false
  | .sieve i s => match (d.sieve i s).run with
    | some x => (d.sieveAccesses i s x).contains a
    | none => false
  | _ => false

/-! ### Requests -/

/-- BENCH_ACCESS_ISSUE: a stalled access whose condition had cleared by the end of the cycle before claims its range, in the order
of the ports (R219, R221 to R223). -/
def execBenchAccessIssue (t : Nat) (a : BenchAccess) (s : State) : Host.Outcome State Fault Refusal :=
  s.run t (.plot a.die a.plot) (fun d =>
    let f := d.furNow a.die a.plot a.fur
    if !f.stalled.contains a || !f.mayIssue a then d
    else ((d.settle a.die a.plot).setFur a.die a.plot a.fur { f.claim a with stalled := f.stalled.erase a }).grant a
      (f.claimAt a))

/-- A lattice request at the bench: a rill's claim longer than the furrow is the fault BAD_SIZE; else it claims its range,
or waits in the stall buffer, or is answered with a retry when both entries of its furrow are taken (R219, R224, 10
R482). -/
def Dev.latticeRequest (d0 : Dev) (a : BenchAccess) : Dev :=
  let d := d0.settle a.die a.plot
  let f := d.furNow a.die a.plot a.fur
  match a.agent, a.write && decide (f.bytes < round64 a.n) with
  | .rill i e, true => d.rillUnrecov i e 0x22
  | _, _ =>
    if f.mayIssue a then (d.setFur a.die a.plot a.fur (f.claim a)).grant a (f.claimAt a)
    else if (f.stalled.filter (fun x => x.port == 3)).length < 2 then
      d.setFur a.die a.plot a.fur { f with stalled := f.stalled ++ [a] }
    else ((d.setFur a.die a.plot a.fur { f with retried := f.retried ++ [(a, d.now)] }).countSat (.plot a.die a.plot)
      Reg.BENCH_RETRY_CNT.COUNT 1).emit [.benchRetry a.die a.plot a.fur]

/-- The requests of an agent that a furrow's bench has not issued: it holds a credit for each of two (R224). -/
def Furrow.outstanding (f : Furrow) (g : Agent) : Nat :=
  (f.stalled.filter (fun x => x.agent == g)).length + (f.retried.filter (fun x => x.1.agent == g)).length

/-- LATTICE_BENCH_REQUEST: a request that its agent's work calls for arrives; one is lost whose header is uncorrectable; none is
sent without a credit, nor while an earlier one of the agent for the furrow awaits its resend (R224, 01 R28). -/
def execLatticeBenchRequest (t : Nat) (a : BenchAccess) (upset : Upset) (s : State) : Host.Outcome State Fault Refusal :=
  s.run t (.plot a.die a.plot) (fun d =>
    let f := d.fur a.die a.plot a.fur
    if a.port ≠ 3 || !d.wantsAccess a || d.lost.contains a.agent || f.stalled.contains a ||
        decide (2 ≤ f.outstanding a.agent) || f.retried.any (fun x => x.1.agent == a.agent) then d
    else if upset = .header then d.loseHeader a.die (some a.agent)
    else (d.latticeUpset a.die upset).latticeRequest a)

/-- BENCH_REQUEST_RESEND: a retried request arrives again, no sooner than 64 lattice cycles later (R224). -/
def execBenchRequestResend (t : Nat) (a : BenchAccess) (s : State) : Host.Outcome State Fault Refusal :=
  s.run t (.plot a.die a.plot) (fun d =>
    let f := d.fur a.die a.plot a.fur
    match f.retried.find? (fun x => x.1 == a) with
    | none => d
    | some x =>
      if d.now < x.2 + 64 * d.latticeCycle then d
      else (d.setFur a.die a.plot a.fur { f with retried := f.retried.erase x }).latticeRequest a)

/-! ### Corrected words (18 R421) -/

/-- The wrong bit of a corrected word is put right where the word is stored. -/
def Dev.rewriteWord (d : Dev) (k : Nat) : Dev :=
  let a := k % 2 ^ 44 * 8
  match hedgeCheck (d.syndOf k) with
  | .corrected b =>
    (match k / 2 ^ 44 with
      | 0 => d.correctWord .hbm a b
      | 1 => d.correctWord .gh a b
      | 2 => d.correctWord .bench a b
      | _ => { d with tray := Tbl.set (fun _ => none) d.tray (k % 2 ^ 44) (some (d.trayWord (k % 2 ^ 44))) }).setSynd k 0#8
  | _ => d

/-- The bank of a bench word is free in the present core cycle: no line access addresses it (R216). Other memories have no such
rule. -/
def Dev.bankFree (d : Dev) (k : Nat) : Bool :=
  let n := k % 2 ^ 44 * 8 / 2 ^ 19
  k / 2 ^ 44 != 2 || ((d.settle (n / 68) (n % 68)).plot (n / 68) (n % 68)).lines.all (fun x =>
    x.bank != lineBank (k % 2 ^ 16 / 8) || decide (d.coreCycleNo < x.due / d.coreLen))

/-- CE_REWRITE: a corrected word is rewritten, a bench word in a free cycle of its bank, unless a write to it has arrived since it
was read (18 R421, R216). -/
def execCeRewrite (t word : Nat) (s : State) : Host.Outcome State Fault Refusal :=
  s.go t (fun d => if d.rewrites.contains word && d.bankFree word then d.rewriteWord word else d)

/-! ### FUR_CTL and FUR_CFG (R227) -/

/-- The plot's furrows may be reset: its bed is IDLE or HALTED, or it belongs to none. -/
def Dev.furOpen (d : Dev) (die p : Nat) : Bool :=
  match (d.bedOfPlot die p).bind d.bed with
  | some x => x.state == .idle || x.state == .halted
  | none => true

/-- FUR_CTL with CMD = RESET (Table 9.5). -/
def Dev.furReset (d : Dev) (die p f : Nat) : Dev :=
  if d.furOpen die p then d.modFur die p f Furrow.resetPointers
  else d.setFld (.plot die p) Reg.BENCH_STS.FUR_WR_IGN 1

/-- FUR_CTL of furrow `f` takes the merged word `new`, and the command in `cmd` starts (Table 9.10). -/
def Dev.furCtlWritten (d : Dev) (die p f : Nat) (new cmd : Word) : Dev :=
  let d1 := d.setWord (.plot die p) (0x214 + 32 * f) new
  if bitsOf cmd.toNat 3 0 = 1 then d1.furReset die p f else d1

/-- The range of a furrow fits its bench and meets no other furrow of it (03 R74). -/
def Dev.furFits (d : Dev) (die p f base size : Nat) : Bool :=
  decide (base + size ≤ 6144) && (size == 0 || (List.range 32).all (fun g =>
    let x := d.fur die p g
    g == f || x.size == 0 || decide (base + size ≤ x.base ∨ x.base + x.size ≤ base)))

/-- FUR_CFG of furrow `f` takes the merged word `new` (Table 9.9). -/
def Dev.furCfgWritten (d : Dev) (die p f : Nat) (new : Word) : Dev :=
  let base := bitsOf new.toNat 12 0
  let size := bitsOf new.toNat 28 16
  if !d.furOpen die p then d.setFld (.plot die p) Reg.BENCH_STS.FUR_WR_IGN 1
  else if !d.furFits die p f base size then d.setFld (.plot die p) Reg.BENCH_STS.FUR_CFG_BAD 1
  else (d.setWord (.plot die p) (0x200 + 32 * f) new).modFur die p f
    (fun _ => { Furrow.start with base := base, size := size })

/-- FURROW_RESET (R227). -/
def execFurrowReset (t : Nat) (src : Source) (die plot fur : Nat) (s : State) : Host.Outcome State Fault Refusal :=
  s.access t src (.plot die plot) (fun d =>
    if 32 ≤ fur then d else d.cmdRow src (.plot die plot) (0x214 + 32 * fur) (fun d => d.furReset die plot fur))

/-- FUR_CFG_WRITE (R227). -/
def execFurCfgWrite (t : Nat) (src : Source) (die plot fur : Nat) (data : Word) (s : State) :
    Host.Outcome State Fault Refusal :=
  s.access t src (.plot die plot) (fun d =>
    if 32 ≤ fur then d
    else d.rowWrite src (.plot die plot) (0x200 + 32 * fur) (fun d => d.furCfgWritten die plot fur data))

end Machine
end Sys2Proof
end

