-- ==== Sys2Proof/Machine/Shed.lean ====
section
/-! DEFINITION. The registers of the shed sequencers and the issue of held items (02 R45, R57, R58, R475). -/
namespace Sys2Proof
namespace Machine

/-- The register offsets of a bed slot (Table 2.9). -/
def slotOff (s : Nat) : Nat := 0x100 + s * 0x20

/-- BED_CTL of a slot as it reads: the bed's own values, where a bed holds the slot (R57, Table 2.10). -/
def Bed.ctlWord (x : Bed) (b : Nat) (stored : Word) : Word :=
  BitVec.ofNat 32 (putBits (putBits (putBits (putBits stored.toNat 21 16 b) 15 12 x.slipLimit) 8 8 (bit x.policyStop))
    0 0 (bit x.run))

/-- The code of a bed state (Table 2.11). -/
def BedState.code : BedState → Nat
  | .idle => 0 | .run => 1 | .slipping => 2 | .halted => 3 | .replant => 4

/-- BED_STS of a slot as it reads (R475, Table 2.11). -/
def Bed.stsWord (x : Bed) (stored : Word) : Word :=
  BitVec.ofNat 32 (putBits (putBits (putBits (putBits stored.toNat 15 12 x.haltCause) 9 9 (bit x.hazard))
    8 8 (bit x.overrun)) 2 0 x.state.code)

/-- BED_CTL as register `s` of a die's shed sequencer reads. -/
def Dev.bedCtl (d : Dev) (die s : Nat) : Word :=
  let w := d.word (.shed die) (slotOff s)
  match (d.bedAtSlot die s).bind (fun b => (d.bed b).map (fun x => (b, x))) with
  | some (b, x) => x.ctlWord b w
  | none => w

/-- BED_CTL takes the merged word `new` (R57, R58): RUN, POLICY and SLIP_LIMIT at the bed's lowest die; elsewhere a
word that would change one of them is ignored for them and sets MIRROR_WR. -/
def Dev.bedCtlWritten (d : Dev) (die s : Nat) (new : Word) : Dev :=
  let d1 := d.setWord (.shed die) (slotOff s) new
  match (d.bedAtSlot die s).bind (fun b => (d.bed b).map (fun x => (b, x))) with
  | none => d1
  | some (b, x) =>
    let run := new.toNat.testBit 0
    let pol := new.toNat.testBit 8
    let lim := bitsOf new.toNat 15 12
    if die = x.lowDie then
      d1.setBed b (some { x with run := run, policyStop := pol, slipLimit := lim,
                                 runAt := if run && !x.run then d.now else x.runAt })
    else if run = x.run ∧ pol = x.policyStop ∧ lim = x.slipLimit then d1
    else d1.setFld (.shed die) Reg.SHED_STS.MIRROR_WR 1

/-- BED_STS is written with ones in the W1C bits `clear` (R475). -/
def Dev.bedStsWritten (d : Dev) (die s : Nat) (clear : Word) : Dev :=
  let hz := clear.toNat.testBit 9
  let ov := clear.toNat.testBit 8
  match (d.bedAtSlot die s).bind (fun b => (d.bed b).map (fun x => (b, x))) with
  | none => d
  | some (b, x) =>
    if die = x.lowDie then
      d.setBed b (some { x with hazard := x.hazard && !hz, overrun := x.overrun && !ov })
    else if hz || ov then d.setFld (.shed die) Reg.SHED_STS.MIRROR_WR 1 else d

/-- BED_RUN_SET: the write, through the SET alias, of RUN in a slot's BED_CTL (R58). -/
def execBedRunSet (t : Nat) (src : Source) (die slot : Nat) (s : State) : Host.Outcome State Fault Refusal :=
  s.access t src (.shed die) (fun d => d.rowWrite src (.shed die) (slotOff slot) (fun d =>
    d.bedCtlWritten die slot (d.bedCtl die slot ||| 1#32)))

/-- BED_RUN_CLEAR: the write, through the CLR alias, of RUN's bit (R58). -/
def execBedRunClear (t : Nat) (src : Source) (die slot : Nat) (s : State) : Host.Outcome State Fault Refusal :=
  s.access t src (.shed die) (fun d => d.rowWrite src (.shed die) (slotOff slot) (fun d =>
    d.bedCtlWritten die slot (d.bedCtl die slot &&& ~~~1#32)))

/-- The first item held for an engine; at the Trug engine each bed has a limit of its own, and the first held item of a bed
that is below it is meant (R45, R56). -/
def Dev.firstHeld (d : Dev) (die : Nat) (k : Kind) (u : Nat) : Option Item :=
  d.items.find? (fun i => i.held && i.die == die && i.cfg.kind == k &&
    (if k = .trug then !d.atLimit i.bed die i.cfg else i.cfg.unit == u))

/-- HELD_ITEM_ISSUE: the first held item of an engine is sent, once the engine is below its limit (R45). -/
def execHeldItemIssue (t die : Nat) (kind : Kind) (unit : Nat) (s : State) : Host.Outcome State Fault Refusal :=
  s.run t (.shed die) (fun d => match d.firstHeld die kind unit with
    | some i => if d.atLimit i.bed die i.cfg then d
        else { d with items := d.items.map (fun j => if j.seq = i.seq then { j with held := false } else j) }
    | none => d)

end Machine
end Sys2Proof
end

