-- ==== Sys2Proof/Machine/HostOps.lean ====
section
/-! DEFINITION. The host's side of the block, as operations: functions and their MSI-X tables (15 R359, R374, R375), the
QUEUE block's context commands (R365 to R367, R373), and host command queues (R368 to R372). -/
namespace Sys2Proof
namespace Machine

/-! ### Functions -/

/-- FUNC of a function of a port (R364). -/
def funcOf (p fn : Nat) : Nat := p * 256 + fn

/-- A PCIe port, and the device with it changed. -/
def Dev.pcie (d : Dev) (p : Nat) : PciePort := if p = 0 then d.pcie0 else d.pcie1
def Dev.setPcie (d : Dev) (p : Nat) (x : PciePort) : Dev := if p = 0 then { d with pcie0 := x } else { d with pcie1 := x }

/-- The port answers memory requests: READY is 1 (R360). -/
def Dev.portReady (d : Dev) (p : Nat) : Bool := d.isSet (.lodgeCtl p) Reg.PARAM_STS.READY

/-- The function exists: the PF, or a VF that has been instantiated (R375). -/
def Dev.fnHere (d : Dev) (p fn : Nat) : Bool := fn == 0 || ((d.pcie p).vfUp && decide (fn ≤ (d.pcie p).numVfs))

/-- The vectors of a function's MSI-X table (R374, R375). -/
def Dev.tableSize (d : Dev) (f : Nat) : Nat :=
  if f % 256 = 0 then 2048
  else if f / 256 = 0 then d.fld .queue Reg.QUEUE_VF_VEC_0.COUNT else d.fld .queue Reg.QUEUE_VF_VEC_1.COUNT

/-- An enabled vector that may not be named: beyond its function's table, or a reserved one of a PF (R374). -/
def Dev.vectorBad (d : Dev) (f v : Nat) : Bool := decide (d.tableSize f ≤ v) || (f % 256 == 0 && decide (v < 3))

/-- The vectors allocated to the enabled functions (R375, Table 15.10). -/
def Dev.vectorsOf (d : Dev) (p0 p1 : Nat) : Nat :=
  4096 + p0 * d.fld .queue Reg.QUEUE_VF_VEC_0.COUNT + p1 * d.fld .queue Reg.QUEUE_VF_VEC_1.COUNT
def Dev.vecUsed (d : Dev) : Nat :=
  d.vectorsOf (if d.pcie0.vfUp then d.pcie0.numVfs else 0) (if d.pcie1.vfUp then d.pcie1.numVfs else 0)

/-! ### MSI-X tables (R374) -/

/-- The pending messages of a function that nothing masks any more are sent. -/
def Dev.sendPending (d : Dev) (f : Nat) : Dev :=
  let due (k : Nat) : Bool := k / 2048 == f && (d.fn f).msixEnable && !(d.fn f).msixMask && !(d.msixEntry f (k % 2048)).mask
  { d.emit ((d.msixPend.filter due).map (fun k => Out.msix f (k % 2048))) with msixPend := d.msixPend.filter (fun k => !due k) }

/-- Word `w` of the entry of a vector, as a table read gives it; vector 0 of a PF is never masked. -/
def Dev.msixWord (d : Dev) (f v w : Nat) : Word :=
  let e := d.msixEntry f v
  match w with
  | 0 => BitVec.ofNat 32 (e.addr.toNat % 2 ^ 32)
  | 1 => BitVec.ofNat 32 (e.addr.toNat / 2 ^ 32)
  | 2 => e.data
  | _ => if v = 0 ∧ f % 256 = 0 then 0#32 else BitVec.ofNat 32 (bit e.mask)

/-- Word `w` of the entry of a vector is written. -/
def Dev.msixWritten (d : Dev) (f v w : Nat) (x : Word) : Dev :=
  let e := d.msixEntry f v
  let n := match w with
    | 0 => { e with addr := BitVec.ofNat 64 (e.addr.toNat / 2 ^ 32 * 2 ^ 32 + x.toNat / 4 * 4) }
    | 1 => { e with addr := BitVec.ofNat 64 (x.toNat * 2 ^ 32 + e.addr.toNat % 2 ^ 32) }
    | 2 => { e with data := x }
    | _ => { e with mask := x.toNat.testBit 0 }
  if d.tableSize f ≤ v then d
  else { d with msix := Tbl.set (fun _ => MsixEntry.start) d.msix (f * 2048 + v) n }.sendPending f

/-- Word `w` of a function's pending bit array. -/
def Dev.pbaWord (d : Dev) (f w : Nat) : Word :=
  BitVec.ofNat 32 ((List.range 32).foldl (fun n i => n + bit (d.msixPend.contains (f * 2048 + 32 * w + i)) * 2 ^ i) 0)

/-- A word of a function's table and pending bit array at an offset from the table: the array follows 32 KiB later. -/
def Dev.tableRead (d : Dev) (f o : Nat) : Word :=
  if o < 0x8000 then (if o / 16 < d.tableSize f then d.msixWord f (o / 16) (o % 16 / 4) else 0#32)
  else if o < 0x8100 then d.pbaWord f ((o - 0x8000) / 4)
  else 0#32
def Dev.tableWrite (d : Dev) (f o : Nat) (x : Word) : Dev :=
  if o < 0x8000 then d.msixWritten f (o / 16) (o % 16 / 4) x else d

/-! ### The two windows of context commands (R365, R367) -/

/-- A register of the QUEUE block as a source sees it: a VF has its own. -/
def Dev.qword (d : Dev) (src : Source) (o : Nat) : Word :=
  match src with
  | .pcie p fn => if fn = 0 then d.word .queue o else Tbl.get (fun _ => 0#32) d.vfRegs (funcOf p fn * 128 + o)
  | _ => d.word .queue o

/-- The device with that register set. -/
def Dev.setQword (d : Dev) (src : Source) (o : Nat) (w : Word) : Dev :=
  match src with
  | .pcie p fn => if fn = 0 then d.setWord .queue o w
      else { d with vfRegs := Tbl.set (fun _ => 0#32) d.vfRegs (funcOf p fn * 128 + o) w }
  | _ => d.setWord .queue o w

/-- A flag or field of that QUEUE_STS. -/
def Dev.setQsts (d : Dev) (src : Source) (f : Fld) (v : Nat) : Dev :=
  d.setQword src 0x8 (BitVec.ofNat 32 (putBits (d.qword src 0x8).toNat f.hi f.lo v))

/-- A context command is refused with a cause (Table 15.9). -/
def Dev.rejectCtx (d : Dev) (src : Source) (cause : Nat) : Dev :=
  (d.setQsts src Reg.QUEUE_STS.CTX_REJ 1).setQsts src Reg.QUEUE_STS.REJ_CAUSE cause

/-- The VF that sends; a VF reaches only queues whose FUNC names it. -/
def Source.vf : Source → Option Nat
  | .pcie p fn => if fn = 0 then none else some (funcOf p fn)
  | _ => none
def Dev.owns (d : Dev) (src : Source) (q : Nat) : Bool :=
  match src.vf with
  | some f => d.qfld q Ctx.func == f
  | none => true

/-- The source is a function that does not exist: its port answers for it (15 R375). -/
def Dev.noSuchFn (d : Dev) (src : Source) : Bool :=
  match src with
  | .pcie p fn => !d.fnHere p fn
  | _ => false

/-- A command that is a write of QCTX_CMD: through the QUEUE block, or a VF's register block (04 Table 4.4, R367). A write
of a function that does not exist is dropped. -/
def Dev.qctxRow (d : Dev) (src : Source) (f : Dev → Dev) : Dev :=
  if d.noSuchFn src then (if d.answers src then d.emit [.answer src .dropped] else d) else d.rowWrite src .queue 0x4 f

/-! ### WRITE, READ, RESET (R365, R373) -/

/-- A ring of `n` bytes lies wholly where RING_LOC places it (R249). -/
def Dev.ringOk (d : Dev) (loc a n : Nat) : Bool :=
  match loc with
  | 0 => addrOk 0 a && d.hbmPopulated a && d.hbmPopulated (a + n - 1)
  | 1 => addrOk 1 a && decide (a % 2 ^ 26 + n ≤ 50331648)
  | _ => false

/-- The unit of a PRODUCER field exists (Table 10.8). -/
def producerOk (code : Nat) : Bool :=
  let u := bitsOf code 8 0
  code < 2 ^ 15 && (match bitsOf code 11 9 with
    | 0 => decide (u < 16)
    | 1 => true
    | 2 => decide (u < 4)
    | 3 | 4 | 5 => u == 0
    | _ => false)

/-- The fields of a context keep Tables 10.8 and 15.3. -/
def Dev.ctxOk (d : Dev) (c : BitVec 512) : Bool :=
  let g (f : CtxFld) : Nat := ctxGet c f
  let depth := 2 ^ g Ctx.depthLog2
  match g Ctx.kind with
  | 0 => true
  | 1 => decide (g Ctx.limit ≤ 1024) && decide (1 ≤ g Ctx.sqLog2 ∧ g Ctx.sqLog2 ≤ 12) &&
      decide (1 ≤ g Ctx.cqLog2 ∧ g Ctx.cqLog2 ≤ 12) && bitsOf (g Ctx.msix) 14 11 == 0 && g Ctx.sqAddr % 4096 == 0 &&
      g Ctx.cqAddr % 4096 == 0 && decide (g Ctx.priv < 4) && decide (g Ctx.func < 512) &&
      (if g Ctx.func % 256 = 0 then g Ctx.dbPage == 0 else decide (g Ctx.dbPage < 256)) && decide (g Ctx.pasid < 2 ^ 21) &&
      decide (g Ctx.hostBed < 64) && ctxGet c ⟨0x2D, 1⟩ == 0 && ctxGet c ⟨0x30, 16⟩ == 0
  | 2 => decide (g Ctx.limit ≤ 1024) && decide (g Ctx.depthLog2 ≤ 10) && decide (g Ctx.limit ≤ depth) &&
      decide (g Ctx.bed < 64) && bitsOf (g Ctx.msix) 14 11 == 0 && g Ctx.ringAddr % 64 == 0 &&
      d.ringOk (g Ctx.ringLoc) (g Ctx.ringAddr) (depth * 16) && producerOk (g Ctx.producer) &&
      decide (g Ctx.func < 512) && ctxGet c ⟨0x20, 32⟩ == 0
  | _ => false

/-- The queue is empty (R365). -/
def Dev.queueEmpty (d : Dev) (q : Nat) : Bool :=
  match d.qfld q Ctx.kind with
  | 1 => d.qfld q Ctx.outstanding == 0 && d.qfld q Ctx.sqHead == d.qfld q Ctx.sqTail
  | 2 => d.qfld q Ctx.rel == d.qfld q Ctx.claim
  | _ => true

/-- Another queue of the same VF uses the doorbell page. -/
def Dev.pageUsed (d : Dev) (q : Nat) (c : BitVec 512) : Bool :=
  ctxGet c Ctx.kind == 1 && ctxGet c Ctx.func % 256 != 0 && d.queues.any (fun e => e.1 != q && ctxGet e.2 Ctx.kind == 1 &&
    ctxGet e.2 Ctx.func == ctxGet c Ctx.func && ctxGet e.2 Ctx.dbPage == ctxGet c Ctx.dbPage)

/-- The context as a WRITE of it leaves it: STATE from LIMIT, counts at 0, PHASE 1; the commands of a host queue that run on
stay outstanding, and ERR_CID stays (R365). -/
def ctxFresh (old c : BitVec 512) : BitVec 512 :=
  let c1 := ctxSet (ctxSet c Ctx.state (if ctxGet c Ctx.limit = 0 then 1 else 0)) Ctx.errCause 0
  let c2 := ctxSet (ctxSet (ctxSet (ctxSet c1 Ctx.claim 0) Ctx.post 0) Ctx.cons 0) Ctx.rel 0
  if ctxGet c Ctx.kind = 1 then
    let host := ctxGet old Ctx.kind == 1
    ctxSet (ctxSet (ctxSet c2 Ctx.outstanding (if host then ctxGet old Ctx.outstanding else 0)) Ctx.errCid
      (if host then ctxGet old Ctx.errCid else 0)) Ctx.priv (ctxGet c Ctx.priv % 2 + 2)
  else ctxSet c2 Ctx.staleCnt 0

/-- QCTX_DATA as a context. -/
def Dev.qctxData (d : Dev) (src : Source) : BitVec 512 :=
  BitVec.ofNat 512 ((List.range 16).foldr (fun n a => (d.qword src (0x40 + 4 * n)).toNat + 2 ^ 32 * a) 0)

/-- The queue that QCTX_SEL names. -/
def Dev.qctxSel (d : Dev) (src : Source) : Nat := (d.qword src 0x0).toNat % 0x10000

/-- CMD = READ: a snapshot of the 64 bytes (R365). -/
def Dev.qctxReadCmd (d : Dev) (src : Source) : Dev :=
  let q := d.qctxSel src
  if !d.owns src q then d.rejectCtx src 4
  else (List.range 16).foldl (fun d' n =>
    d'.setQword src (0x40 + 4 * n) (BitVec.ofNat 32 ((d.ctx q).toNat / 2 ^ (32 * n) % 2 ^ 32))) d

/-- A VF's WRITE keeps KIND, FUNC, DBPAGE, PRIV and BED as the PF wrote them (R367). -/
def Dev.vfMerge (d : Dev) (src : Source) (q : Nat) (c : BitVec 512) : BitVec 512 :=
  match src.vf with
  | none => c
  | some _ =>
    let bed := if d.qfld q Ctx.kind = 2 then Ctx.bed else Ctx.hostBed
    let fs := if d.qfld q Ctx.kind = 2 then [Ctx.kind, Ctx.func, bed] else [Ctx.kind, Ctx.func, Ctx.dbPage, Ctx.priv, bed]
    fs.foldl (fun c f => ctxSet c f (d.qfld q f)) c

/-- CMD = WRITE: the context takes effect, or is refused with the first reason that holds (R365, R367). -/
def Dev.qctxWriteCmd (d : Dev) (src : Source) : Dev :=
  let q := d.qctxSel src
  let c := d.vfMerge src q (d.qctxData src)
  if !d.owns src q then d.rejectCtx src 4
  else if !(d.queueEmpty q || (d.qfld q Ctx.kind != 0 && d.queueInError q)) then d.rejectCtx src 1
  else if !d.ctxOk c then d.rejectCtx src 2
  else if ctxGet c Ctx.kind ≠ 0 ∧ (ctxGet c Ctx.msix).testBit 15 = true ∧
      d.vectorBad (ctxGet c Ctx.func) (ctxGet c Ctx.msix % 2 ^ 11) = true then d.rejectCtx src 3
  else if d.pageUsed q c then d.rejectCtx src 5
  else (d.orphanQueue q).setCtx q (ctxFresh (d.ctx q) c)

/-- The queue takes the context KIND 0 with all fields 0. -/
def Dev.zeroQueue (d : Dev) (q : Nat) : Dev := (d.orphanQueue q).setCtx q 0#512

/-- CMD = RESET: accepted of a host command queue with nothing outstanding, of a barrow queue that is empty or in ERROR, and
of an unused one; else refused with BUSY (R373). -/
def Dev.qctxResetCmd (d : Dev) (src : Source) : Dev :=
  let q := d.qctxSel src
  let ok := match d.qfld q Ctx.kind with
    | 1 => d.qfld q Ctx.outstanding == 0
    | 2 => d.queueEmpty q || d.queueInError q
    | _ => true
  if !d.owns src q then d.rejectCtx src 4
  else if ok then d.zeroQueue q
  else d.rejectCtx src 6

/-! ### Host commands (R370, R371) -/

/-- The fields of a command entry (Table 15.4). -/
def HostCmd.opc (c : HostCmd) : Nat := (byteAt c.bytes 0).toNat
def HostCmd.fence (c : HostCmd) : Bool := (byteAt c.bytes 1).toNat.testBit 0
def HostCmd.noCqe (c : HostCmd) : Bool := (byteAt c.bytes 1).toNat.testBit 1
def HostCmd.cid (c : HostCmd) : Nat := leNat ((c.bytes.drop 2).take 2)
def HostCmd.arg (c : HostCmd) (k : Nat) : Nat := leNat ((c.bytes.drop (8 + 8 * k)).take 8)

/-- The status codes of Table 15.7. -/
def St.badOpcode : Nat := 0x01
def St.badArg : Nat := 0x02
def St.priv : Nat := 0x03
def St.partition : Nat := 0x04
def St.unpopulated : Nat := 0x05
def St.hostFault : Nat := 0x06
def St.pcieCpl : Nat := 0x07
def St.ue : Nat := 0x08
def St.aborted : Nat := 0x09
def St.bedHalted : Nat := 0x0A
def St.loader : Nat := 0x0B
def St.unsupported : Nat := 0x0C
def St.fetch : Nat := 0x20
def St.cqWrite : Nat := 0x21
def St.dbRange : Nat := 0x22

/-- No earlier command of the queue is outstanding. -/
def Dev.oldest (d : Dev) (i : Nat) (c : HostCmd) : Bool := !(d.hostCmds.take i).any (fun x => x.queue == c.queue)

/-- The command may start or complete: under FENCE every earlier one of its queue has completed. -/
def Dev.fenceOk (d : Dev) (i : Nat) (c : HostCmd) : Bool := !c.fence || d.oldest i c

/-- The first outstanding command of a queue with a CID that satisfies `p`, with its place. -/
def Dev.hostCmd (d : Dev) (q cid : Nat) (p : HostCmd → Bool) : Option (Nat × HostCmd) :=
  (d.hostCmds.findIdx? (fun c => c.queue == q && c.cid == cid && p c)).bind (fun i => (d.hostCmds[i]?).map (fun c => (i, c)))

/-- A command as given at its place. -/
def Dev.setHostCmd (d : Dev) (i : Nat) (c : HostCmd) : Dev := { d with hostCmds := d.hostCmds.set i c }

/-- The command ends with a status and RESULT. -/
def Dev.endHostCmd (d : Dev) (i : Nat) (c : HostCmd) (status result : Nat) : Dev :=
  d.setHostCmd i { c with started := true, outcome := some (status, result) }

/-- The vector of a host command queue, where it is enabled. -/
def Dev.raiseQueue (d : Dev) (q : Nat) : Dev :=
  let m := d.qfld q Ctx.msix
  if m.testBit 15 then d.raiseVector (d.qfld q Ctx.func) (m % 2 ^ 11) else d

/-- A host command queue enters ERROR: cause, the CID in progress, and its vector once (R372). -/
def Dev.hostQueueError (d : Dev) (q cause : Nat) : Dev :=
  if d.queueInError q then d
  else
    let cid := match d.hostCmds.find? (fun c => c.queue == q && c.outcome.isNone) with
      | some c => c.cid
      | none => 0
    ((d.queueError q cause).setQfld q Ctx.errCid cid).raiseQueue q

/-- The port, PASID and ring accesses of a queue; 2^20 without a PASID. -/
def Dev.queuePort (d : Dev) (q : Nat) : Nat := d.qfld q Ctx.func / 256
def Dev.queuePasid (d : Dev) (q : Nat) : Nat :=
  let p := d.qfld q Ctx.pasid
  if p.testBit 20 then p % 2 ^ 20 else 2 ^ 20

/-- The command at a place is complete: it is outstanding no more. -/
def Dev.completeCmd (d : Dev) (i : Nat) (c : HostCmd) : Dev :=
  ({ d with hostCmds := d.hostCmds.eraseIdx i }.setQfld c.queue Ctx.outstanding (d.qfld c.queue Ctx.outstanding - 1)).countWrap
    .queue Reg.QUEUE_CMD_CNT.COUNT 1

/-- The completion of a command is written to slot CQ_TAIL, where there is room and the ring is writable; one under NO_CQE that
succeeded is not written (R371, R372, R376). -/
def Dev.completion (d : Dev) (i : Nat) (c : HostCmd) : Dev :=
  let q := c.queue
  match c.outcome with
  | none => d
  | some (status, result) =>
    if !d.fenceOk i c then d
    else if c.noCqe && status == 0 then d.completeCmd i c
    else
      let n := 2 ^ d.qfld q Ctx.cqLog2
      let tail := d.qfld q Ctx.cqTail
      let head := d.qfld q Ctx.cqHead
      let priv := d.qfld q Ctx.priv
      let phase := bitsOf priv 1 1
      if (tail + 1) % n = head || (d.queueInError q && d.qfld q Ctx.errCause == St.cqWrite) then d
      else
        let entry := leBytes 8 result ++ leBytes 2 (d.qfld q Ctx.sqHead) ++ leBytes 2 q ++ leBytes 2 c.cid ++
          leBytes 2 (status * 2 + phase)
        let d1 := d.emit [.pcieWrite (d.queuePort q) (d.queuePasid q) (d.qfld q Ctx.cqAddr + 16 * tail) entry false]
        let d2 := d1.setQfld q Ctx.cqTail ((tail + 1) % n)
        let d3 := if tail + 1 = n then d2.setQfld q Ctx.priv (putBits priv 1 1 (1 - phase)) else d2
        let d4 := d3.completeCmd i c
        if tail = head then d4.raiseQueue q else d4

/-- Every outstanding command of a queue ends with ABORTED; RESULT keeps the bytes that a COPY delivered (R373). -/
def Dev.abortAll (d : Dev) (q : Nat) : Dev :=
  { d with hostCmds := d.hostCmds.map (fun c =>
      if c.queue = q then
        { c with outcome := some (St.aborted, if c.opc = 1 then c.delivered else (c.outcome.getD (0, 0)).2) }
      else c) }

/-- CMD = ABORT_ALL; ignored of a queue that is no host command queue (R373). -/
def Dev.qctxAbortCmd (d : Dev) (src : Source) : Dev :=
  let q := d.qctxSel src
  if !d.owns src q then d.rejectCtx src 4
  else if d.qfld q Ctx.kind = 1 then d.abortAll q
  else d.setQsts src Reg.QUEUE_STS.CMD_IGN 1

/-- QCTX_CMD is written with the command `cmd` (Table 15.8). -/
def Dev.qctxCmdWritten (d : Dev) (src : Source) (cmd : Nat) : Dev :=
  match cmd with
  | 0 => d
  | 1 => d.qctxReadCmd src
  | 2 => d.qctxWriteCmd src
  | 3 => d.qctxAbortCmd src
  | 4 => d.qctxResetCmd src
  | _ => d.setQsts src Reg.QUEUE_STS.CMD_IGN 1

/-! ### Other QUEUE registers -/

/-- QUEUE_BED_VEC of a bed takes the merged word `new`, or is refused with VECTOR (R374, Table 15.10). -/
def Dev.bedVecWritten (d : Dev) (bed : Nat) (new : Word) : Dev :=
  let n := new.toNat
  if n.testBit 31 && d.vectorBad (bitsOf n 19 11) (bitsOf n 10 0) then d.rejectCtx (.gatehouse 0) 3
  else d.setWord .queue (0x100 + 4 * bed) new

/-- QUEUE_VF_VEC of a port takes the merged word `new`: only while VF Enable is 0, and only a power of two from 1 to 2,048
(R375). -/
def Dev.vfVecWritten (d : Dev) (p : Nat) (new : Word) : Dev :=
  let n := bitsOf new.toNat 11 0
  if (d.pcie p).vfEnable || !((List.range 12).any (fun k => n == 2 ^ k)) then d
  else d.setWord .queue (0x200 + 4 * p) new

/-! ### Function resets (R377) -/

/-- The host command queues of a function end: their commands are aborted, completions written while there is room, and the
queues reset. -/
def Dev.endQueue (d : Dev) (q : Nat) : Dev :=
  let d1 := d.abortAll q
  let d2 := (List.range d1.hostCmds.length).foldl (fun d _ =>
    match d.hostCmds.findIdx? (fun c => c.queue == q) with
    | some i => (match d.hostCmds[i]? with
      | some c => d.completion i c
      | none => d)
    | none => d) d1
  ({ d2 with hostCmds := d2.hostCmds.filter (fun c => c.queue != q) }).zeroQueue q

/-- The reset of a function. -/
def Dev.resetFunction (d : Dev) (f : Nat) : Dev :=
  let mine (k : Nat) (e : Nat × BitVec 512) : Bool := ctxGet e.2 Ctx.kind == k && ctxGet e.2 Ctx.func == f
  let d1 := (d.queues.filter (mine 1)).foldl (fun d e => d.endQueue e.1) d
  let d2 := (d1.queues.filter (mine 2)).foldl (fun d e =>
    d.setQfld e.1 Ctx.msix (d.qfld e.1 Ctx.msix % 2 ^ 15)) d1
  let d3 := (List.range 64).foldl (fun d b =>
    if d.fldI .queue Reg.QUEUE_BED_VEC.FUNC b = f then d.setFldI .queue Reg.QUEUE_BED_VEC.EN b 0 else d) d2
  { d3 with
    fns := Tbl.set (fun _ => FnSt.start) d3.fns f .start
    msix := d3.msix.filter (fun e => e.1 / 2048 != f)
    msixPend := d3.msixPend.filter (fun k => k / 2048 != f)
    vfRegs := d3.vfRegs.filter (fun e => e.1 / 128 != f) }

/-- VF Enable of a port is cleared: its VFs are reset and gone. -/
def Dev.clearVfs (d : Dev) (p : Nat) : Dev :=
  let n := (d.pcie p).numVfs
  let d1 := (List.range n).foldl (fun d i => d.resetFunction (funcOf p (i + 1))) d
  d1.setPcie p { d1.pcie p with vfEnable := false, vfUp := false, numVfs := 0 }

/-- PERST_N or a Hot Reset: every function of the port is reset, and its configuration words with them. -/
def Dev.resetPort (d : Dev) (p : Nat) : Dev := ((d.clearVfs p).resetFunction (funcOf p 0)).setPcie p .start

end Machine
end Sys2Proof
end

