-- ==== Sys2Proof/Machine/StartOps.lean ====
section
/-! DEFINITION. What start-up and the warden arbitration share: the clock enables that firmware sets, the beginning of HBM
training, and the end of step 6 (19 R428, R431, R432). -/
namespace Sys2Proof
namespace Machine

/-- A CLKEN word takes effect in both lodges' copies at once: a step of start-up that sets it ends after the microsecond of
17 R410. -/
def Dev.forceClken (d : Dev) (o w : Nat) : Dev :=
  let v := BitVec.ofNat 32 w
  { (d.setWord (.clock 0) o v).setWord (.clock 1) o v with clkOn := Tbl.set (fun _ => 0#32) d.clkOn o v }

/-- The offset of CLKEN_DIE of die `k` (17 Table 17.7). -/
def clkenDie (k : Nat) : Nat := 0x200 + k * 0x20

/-- A stack's controller begins training at the bin that HBM_CTL names (19 R432, R442). -/
def Dev.trainStack (d : Dev) (s : Nat) : Dev :=
  let b := Blk.hbmCtl (s / 2) (s % 2)
  { ((d.setFld b Reg.HBM_STS.STATE 1).setFld b Reg.HBM_STS.TRAIN_STEP 0).setFld b Reg.HBM_STS.BIN_ACT
      (d.fld b Reg.HBM_CTL.BIN) with trainT := Tbl.set (fun _ => 0) d.trainT s d.now }

/-- Step 7 begins: the enables of die control, lattice and HBM controllers are set and every stack trains (19 R428,
R431). -/
def Dev.beginTraining (d : Dev) : Dev :=
  let d1 := (List.range 8).foldl (fun d k =>
    d.forceClken (clkenDie k) ((d.word (.clock 0) (clkenDie k)).toNat ||| 0xF)) d
  (List.range 16).foldl (fun d s => d.trainStack s) d1

/-- Step 6 of a standby ends once its keeper firmware runs and it is SYNCED; that of the warden once its own runs and a
standby is SYNCED, and step 7 begins (19 Table 19.1). -/
def Dev.endFirmwareStep (d : Dev) (l : Nat) : Dev :=
  let o := 1 - l
  if d.isSet (.lodgeCtl l) Reg.LODGE_STS.FW_UP = false ∨ (d.lodge l).step ≠ 6 then d
  else match d.fld (.warden l) Reg.WARDEN_STS.ROLE with
    | 2 => if d.fld (.warden l) Reg.WARDEN_STS.SYNC = 2 then d.endStep l 6 0 else d
    | 1 =>
      if d.fld (.warden o) Reg.WARDEN_STS.ROLE = 2 ∧ (d.lodge o).stopped = false
          ∧ d.fld (.warden o) Reg.WARDEN_STS.SYNC ≠ 2 then d
      else (d.endStep l 6 7).beginTraining
    | _ => d

/-- Step 6 ends in each lodge where it may. -/
def Dev.endFirmwareSteps (d : Dev) : Dev := (d.endFirmwareStep 0).endFirmwareStep 1

/-- Lodge `l` stops at the step in progress with START_CAUSE `c`; it holds no role in the arbitration (19 R430). -/
def Dev.stopLodge (d : Dev) (l c : Nat) : Dev :=
  ((d.setFld (.security l) Reg.SEC_STS.START_CAUSE c).setFld (.warden l) Reg.WARDEN_STS.ROLE 0).modLodge l
    (fun x => { x with stopped := true })

end Machine
end Sys2Proof
end

