-- ==== Sys2Proof/Machine/PowerOps.lean ====
section
/-! DEFINITION. What power states do to the device: the loss of VIN48, the emergency stop, quiescence, and what POWER_CTL
starts (20 R443 to R446, R454, R455, 21 R466). -/
namespace Sys2Proof
namespace Machine

/-- The register at an address lies in the auxiliary domain: POWER or SECURITY (20 R454). -/
def auxiliary (a : Nat) : Bool :=
  match Blk.ofAddr a with
  | some .power => true
  | some (.security _) => true
  | _ => false

/-- Everything on VIN48 is lost: only the auxiliary registers and what the gatehouses hold remain. The state is OFF
(20 R454, 21 R466). -/
def Dev.powerOff (d : Dev) : Dev :=
  let d1 := { Dev.start with
    now := d.now
    sent := d.sent
    freeCnt := d.freeCnt
    regs := d.regs.filter (fun e => auxiliary e.1)
    pwr := { d.pwr with
      frost := false, vinRoc := false, ticks := [], dutyMoved := false, ports := 0, held := [] } }
  d1.setPower 5

/-- An emergency stop with a cause of Table 20.5, in any state but OFF: the core clock stops, VIN48's regulators switch
off, THERM_TRIP_N is driven low until PWRGD falls, and the cause is recorded and kept for the next start (20 R454,
R455). -/
def Dev.emergencyStop (d : Dev) (c : Nat) : Dev :=
  if d.pwr.pwrgd = false ∨ d.powerState = 5 then d
  else
    let d1 := d.powerOff.setFld .power Reg.POWER_ESTOP.CAUSE c
    { d1 with pwr := { d1.pwr with thermTrip := true, stopped := true, cause := some c } }

/-- Every bed is IDLE or HALTED, the loader is IDLE, and no host command, rill or Trug instance is outstanding (20 R445). -/
def Dev.quiescent (d : Dev) : Bool :=
  d.bedIds.all (fun b => match d.bed b with | some x => x.state == .idle || x.state == .halted | none => true)
    && d.fld .trellis Reg.TRELLIS_STS.LSTATE == 0 && d.hostCmds.isEmpty
    && d.rills.all (fun e => e.2.run.isNone) && d.trugs.isEmpty && d.trugWait.isEmpty

/-- The ports whose ENABLE is 1. -/
def Dev.enabledPorts (d : Dev) : Nat :=
  (List.range 8).foldl (fun m p => if d.isSet (.obotil p) Reg.OB_CTL.ENABLE then m + 2 ^ p else m) 0

/-- Entry to DORMANT begins: the set of enabled ports is recorded and they go down; the chime generator stops and
CHIME_COUNT keeps its value (20 R446). -/
def Dev.enterDormant (d : Dev) : Dev :=
  let m := d.enabledPorts
  let d1 := (List.range 8).foldl (fun d p => if m.testBit p then
    ((d.setFld (.obotil p) Reg.OB_STS.STATE 0).setFld (.obotil p) Reg.OB_STS.WIDTH 0).setPort p PortSt.start else d) d
  { d1.setPower 3 with
    pwr := { d1.pwr with ports := m }
    chime := { d1.chime with due := [], emitted := 0 }
    chimeOut := false }

/-- The POWER command `cmd` (20 R443 to R446, Table 20.3). -/
def Dev.powerCommand (d : Dev) (cmd : Nat) : Dev :=
  let st := d.powerState
  let ign := d.setFld .power Reg.POWER_STS.CMD_IGN 1
  match cmd with
  | 0 => d
  | 1 => if st = 1 then d.setPower 0 else if st = 0 then d else ign
  | 2 => if st = 1 then d else if st = 0 ∧ d.quiescent = true then d.setPower 1 else ign
  | 3 => if (st = 0 ∨ st = 1) ∧ d.quiescent = true then d.enterDormant else ign
  | _ => ign

/-- POWER_CTL takes the merged word `new` and starts the command `cmd` (Table 20.3). -/
def Dev.powerCtlWritten (d : Dev) (new cmd : Word) : Dev := (d.setWord .power 0x0 new).powerCommand (bitsOf cmd.toNat 3 0)

end Machine
end Sys2Proof
end

