-- ==== Sys2Proof/Machine/Host.lean ====
section
/-! DEFINITION. The commands of the host interface (15 R358 to R378): PCIe requests and completions, doorbells, host commands,
context commands and function resets. -/
namespace Sys2Proof
namespace Machine

/-! ### Configuration space (R359, R360) -/

/-- CONFIG_REQUEST: Request Retry Status before READY; then a function that exists answers, and any other Unsupported
Request. What a read of configuration space returns is open (Config.freeConfigWord). -/
def execConfigRequest (t port fn : Nat) (op : ConfigOp) (s : State) : Host.Outcome State Fault Refusal :=
  s.go t (fun d =>
    let src := Source.pcie (port % 2) fn
    let x := d.pcie (port % 2)
    let f := funcOf (port % 2) fn
    if !d.portReady (port % 2) then d.emit [.answer src .retryStatus]
    else if d.asleep then (d.wake 0).emit [.answer src .retryStatus]
    else if !d.fnHere (port % 2) fn then d.emit [.answer src .unsupportedRequest]
    else match op with
      | .read _ => d.takeFree.2.emit [.answer src (.value (Config.freeConfigWord d.takeFree.1).toNat)]
      | .msixControl e m =>
        ({ d with fns := Tbl.set (fun _ => FnSt.start) d.fns f ⟨e, m⟩ }.sendPending f).emit [.answer src .done]
      | .resizeBar4 n =>
        (if fn = 0 && decide (36 ≤ n ∧ n ≤ 40) then d.setPcie (port % 2) { x with barLog2 := n } else d).emit [.answer src .done]
      | .other o w => (d.setPcie (port % 2) { x with config := Tbl.set (fun _ => 0) x.config (fn * 4096 + o) w }).emit
          [.answer src .done])

/-- VF_ENABLE: setting VF Enable with `num` VFs checks the vector total; above it the VFs are not instantiated and VEC_OVER is
set (R375). -/
def execVfEnable (t port num : Nat) (s : State) : Host.Outcome State Fault Refusal :=
  s.go t (fun d =>
    let p := port % 2
    let x := d.pcie p
    let o := d.pcie (1 - p)
    let other := if o.vfEnable then o.numVfs else 0
    if !d.portReady p || x.vfEnable || decide (255 < num) then d
    else
      let fits := decide (d.vectorsOf (if p = 0 then num else other) (if p = 0 then other else num) ≤ 65536)
      let d1 := d.setPcie p { x with vfEnable := true, numVfs := num, vfUp := fits }
      if fits then d1 else d1.setFld .queue Reg.QUEUE_STS.VEC_OVER 1)

/-- FUNCTION_LEVEL_RESET: of one function, or with `vfs` the clearing of VF Enable for the port's VFs (R377). -/
def execFunctionLevelReset (t port fn : Nat) (vfs : Bool) (s : State) : Host.Outcome State Fault Refusal :=
  s.go t (fun d =>
    if !d.portReady (port % 2) then d
    else if vfs then d.clearVfs (port % 2)
    else if d.fnHere (port % 2) fn then d.resetFunction (funcOf (port % 2) fn) else d)

/-- PERST: PERST_N or a Hot Reset of a port resets all its functions; the other port runs on (R377). -/
def execPerst (t port : Nat) (s : State) : Host.Outcome State Fault Refusal :=
  s.go t (fun d => d.resetPort (port % 2))

/-! ### BAR4 (R362, R363) -/

/-- The device HBM address that a BAR4 offset reaches. -/
def Dev.winAddr (d : Dev) (p off : Nat) : Nat :=
  let b := if p = 0 then d.fld .queue Reg.QUEUE_WIN_BASE_0.BASE else d.fld .queue Reg.QUEUE_WIN_BASE_1.BASE
  b * 2 ^ 36 / 2 ^ (d.pcie p).barLog2 * 2 ^ (d.pcie p).barLog2 + off

/-- The words of a PF's table and pending bits under an access at an offset from the table. -/
def Dev.tableAccess (d : Dev) (p o : Nat) (op : MemOp) : Dev :=
  let src := Source.pcie p 0
  let f := funcOf p 0
  match op with
  | .read n =>
    let all := (List.range ((o % 4 + n + 3) / 4)).flatMap (fun i => leBytes 4 (d.tableRead f (o / 4 * 4 + 4 * i)).toNat)
    d.emit [.answer src (.bytes ((all.drop (o % 4)).take n) false)]
  | .write bs => ((chunks 4 bs).zip (List.range bs.length)).foldl (fun d x =>
      if x.1.length = 4 ∧ o % 4 = 0 then d.tableWrite f (o + 4 * x.2) (BitVec.ofNat 32 (leNat x.1)) else d)
        (d.emit [.answer src .done])

/-- An access of a PF to BAR4: HBM at the window's address, unchecked against partitions; an unpopulated address is logged;
a write of a poisoned TLP is stored as poison; a read with an uncorrectable word completes with EP. -/
def Dev.bar4 (d : Dev) (p off : Nat) (op : MemOp) (poisoned : Bool) : Dev :=
  let src := Source.pcie p 0
  let a := d.winAddr p off
  let refused (e : AccErr) (log : Bool) : Dev :=
    let d1 := if log then d.logPush { d.accessEntry src 0x7FF0000 op.writes 1 with addr := a } else d
    d1.emit [.answer src (if op.writes then e.writeAnswer src else e.readAnswer src)]
  if 0x7FFF00000 ≤ off ∧ off < 0x800000000 then d.tableAccess p (off - 0x7FFF00000) op
  else if !d.hbmPopulated a then refused .unmapped true
  else if !d.clockOn (.hbmCtl (a / 2 ^ 37) (a / 2 ^ 36 % 2)) then refused .gated false
  else match op with
    | .read n => (d.noteFrom 0xFF (.lodge p) (Mem.hbm.wordsOf a n)).emit
        [.answer src (.bytes (d.readBytes .hbm a n) (d.anyBad .hbm a n))]
    | .write bs =>
    let d1 := if poisoned then d.sendBad 0xFF (.lodge p) (a / 2 ^ 37) (Mem.hbm.wordsOf a bs.length).length else d
    (d1.writeWith .hbm a bs (if poisoned then poison else 0#8)).emit [.answer src .done]

/-- A function's access to BAR4: a VF has none. -/
def Dev.bar4Access (d : Dev) (p fn off : Nat) (op : MemOp) (poisoned : Bool) : Dev :=
  if fn ≠ 0 || decide (2 ^ (d.pcie p).barLog2 ≤ off) then
    d.emit [.answer (.pcie p fn) (if op.writes then .dropped else .unsupportedRequest)]
  else d.bar4 p off op poisoned

/-- BAR4_ACCESS: a host's access; a device asleep holds it (20 R449). -/
def execBar4Access (t port fn off : Nat) (op : MemOp) (poisoned : Bool) (s : State) : Host.Outcome State Fault Refusal :=
  s.go t (fun d =>
    let p := port % 2
    if !d.portReady p then d
    else if d.asleep then d.holdReq (.bar4 p fn off op poisoned)
    else d.bar4Access p fn off op poisoned)

/-! ### Doorbells (R368, R369) -/

/-- The host command queue that a doorbell page of a function reaches. -/
def Dev.doorbell (d : Dev) (p fn page : Nat) : Option Nat :=
  (d.queues.find? (fun e => ctxGet e.2 Ctx.kind == 1 && ctxGet e.2 Ctx.func == funcOf p fn &&
    (if fn = 0 then e.1 == page else ctxGet e.2 Ctx.dbPage == page))).map (fun e => e.1)

/-- A doorbell write: dropped where no queue matches or it is in ERROR, else `f` of the queue. -/
def Dev.ring (d : Dev) (p fn page : Nat) (f : Dev → Nat → Dev) : Dev :=
  if !d.portReady p || !d.fnHere p fn || !d.clockOn .queue then d
  else
    let drop := (d.countSat .queue Reg.QUEUE_DB_DROP_CNT.COUNT 1).setFld .queue Reg.QUEUE_STS.DB_DROP 1
    match d.doorbell p fn page with
    | none => drop
    | some q => if d.queueInError q then drop else f d q

/-- A doorbell write with `value`: of the tail of the submission ring, or of the head of the completion ring. -/
def Dev.doorbellWrite (d : Dev) (sq : Bool) (p fn page value : Nat) : Dev :=
  d.ring p fn page (fun d q =>
    if sq then
      if 2 ^ d.qfld q Ctx.sqLog2 ≤ value then d.hostQueueError q St.dbRange else d.setQfld q Ctx.sqTail value
    else
      let n := 2 ^ d.qfld q Ctx.cqLog2
      let h := d.qfld q Ctx.cqHead
      if n ≤ value || decide ((d.qfld q Ctx.cqTail + n - h) % n < (value + n - h) % n) then d.hostQueueError q St.dbRange
      else d.setQfld q Ctx.cqHead value)

/-- The doorbell as a command: a device asleep holds it (20 R449). -/
def State.doorbell (s : State) (t : Nat) (sq : Bool) (port fn page value : Nat) : Host.Outcome State Fault Refusal :=
  if s.dev.asleep then s.go t (fun d => d.holdReq (.bell sq (port % 2) fn page value))
  else s.run t .queue (fun d => d.doorbellWrite sq (port % 2) fn page value)

/-- SQ_TAIL_DOORBELL. -/
def execSqTailDoorbell (t port fn page : Nat) (value : BitVec 16) (s : State) : Host.Outcome State Fault Refusal :=
  s.doorbell t true port fn page value.toNat

/-- CQ_HEAD_DOORBELL. -/
def execCqHeadDoorbell (t port fn page : Nat) (value : BitVec 16) (s : State) : Host.Outcome State Fault Refusal :=
  s.doorbell t false port fn page value.toNat

/-! ### Fetch and completion (R370 to R372) -/

/-- The status with which a command fails before it does anything: an unknown opcode, a nonzero must-be-0 field or an argument
out of range, or an ADMIN command on a queue without ADMIN (Table 15.7). -/
def Dev.fetchStatus (d : Dev) (c : HostCmd) : Option Nat :=
  let zeros (o n : Nat) : Bool := leNat ((c.bytes.drop o).take n) == 0
  let plain := decide (c.opc < 6)
  let argOk := match c.opc with
    | 1 =>
      let s := bitsOf (c.arg 3) 1 0
      let e := bitsOf (c.arg 3) 3 2
      let place (sp a : Nat) : Bool := sp == 0 || addrOk (sp - 1) a
      bitsOf (c.arg 2) 31 0 != 0 && s != 3 && e != 3 && place s (c.arg 0) && place e (c.arg 1)
    | 2 | 5 => (d.bed (bitsOf (c.arg 0) 5 0)).isSome
    | 3 => bitsOf (c.arg 2) 3 0 == 1 || bitsOf (c.arg 2) 3 0 == 2
    | _ => true
  if !plain && decide (c.opc < 0x80) then some St.badOpcode
  else if bitsOf (byteAt c.bytes 1).toNat 7 2 != 0 || (plain && !(zeros 4 4 && zeros 0x28 24 && argOk)) then some St.badArg
  else if (c.opc == 2 || c.opc == 3) && !(d.qfld c.queue Ctx.priv).testBit 0 then some St.priv
  else none

/-- COMMAND_FETCH: the entry at SQ_HEAD is fetched, its 64 bytes come, and a command that can only fail has its status
(R370). -/
def execCommandFetch (t q : Nat) (bytes : List Byte) (s : State) : Host.Outcome State Fault Refusal :=
  s.run t .queue (fun d =>
    let head := d.qfld q Ctx.sqHead
    if d.qfld q Ctx.kind ≠ 1 || d.qfld q Ctx.state != 0 || head == d.qfld q Ctx.sqTail ||
        decide (d.qfld q Ctx.limit ≤ d.qfld q Ctx.outstanding) || bytes.length != 64 || !d.clockOn .queue then d
    else
      let c : HostCmd := ⟨q, bytes, false, none, 0, false, 0⟩
      let d1 := d.emit [.pcieRead (d.queuePort q) (d.queuePasid q) (d.qfld q Ctx.sqAddr + 64 * head) 64]
      let d2 := (d1.setQfld q Ctx.sqHead ((head + 1) % 2 ^ d.qfld q Ctx.sqLog2)).setQfld q Ctx.outstanding
        (d.qfld q Ctx.outstanding + 1)
      let c1 := match d.fetchStatus c with
        | some e => { c with outcome := some (e, 0) }
        | none => c
      { d2 with hostCmds := d2.hostCmds ++ [c1] })

/-- COMPLETION_WRITE. -/
def execCompletionWrite (t q cid : Nat) (s : State) : Host.Outcome State Fault Refusal :=
  s.run t .queue (fun d => match d.hostCmd q cid (fun c => c.outcome.isSome) with
    | some (i, c) => d.completion i c
    | none => d)

/-! ### Commands (Table 15.6) -/

/-- The command of a queue with a CID and an opcode starts or goes on: it has no outcome, and FENCE lets it. -/
def Dev.hostGo (d : Dev) (q cid : Nat) (p : Nat → Bool) (f : Dev → Nat → HostCmd → Dev) : Dev :=
  match d.hostCmd q cid (fun c => p c.opc && c.outcome.isNone) with
  | some (i, c) => if d.fenceOk i c then f d i c else d
  | none => d

/-- NOP. -/
def execHostNop (t q cid : Nat) (s : State) : Host.Outcome State Fault Refusal :=
  s.run t .queue (fun d => d.hostGo q cid (fun o => o == 0) (fun d i c => d.endHostCmd i c 0 0))

/-- BED_RUN: RUN of the bed takes the value at its lowest-numbered die; RESULT is the chime number (Table 15.6). -/
def execHostBedRun (t q cid : Nat) (s : State) : Host.Outcome State Fault Refusal :=
  s.run t .queue (fun d => d.hostGo q cid (fun o => o == 2) (fun d i c =>
    let b := bitsOf (c.arg 0) 5 0
    match d.bed b with
    | none => d.endHostCmd i c St.badArg 0
    | some x =>
      if x.state = .halted then d.endHostCmd i c St.bedHalted 0
      else
        let run := (c.arg 0).testBit 8
        let d1 := d.setBed b (some { x with run := run, runAt := if run && !x.run then d.now else x.runAt })
        d1.endHostCmd i c 0 d.chime.count.toNat))

/-- TRELLIS: at its start the staging address, length and command are written as the warden writes them; it completes when the
loader is IDLE with DONE or ERR, and at once where the loader is busy with another operation (Table 15.6, 03 R88; entry 40). -/
def execHostTrellis (t q cid : Nat) (s : State) : Host.Outcome State Fault Refusal :=
  s.run t .queue (fun d => d.hostGo q cid (fun o => o == 3) (fun d i c =>
    let ctl := putBits (d.word .trellis 0x0).toNat 21 16 (bitsOf (c.arg 2) 21 16)
    let d1 :=
      if c.started then d
      else
        let d1 := (((d.setFld .trellis Reg.TRELLIS_SRC_LO.SRC_LO (c.arg 0 % 2 ^ 32)).setFld .trellis
          Reg.TRELLIS_SRC_HI.SRC_HI (c.arg 0 / 2 ^ 32)).setFld .trellis Reg.TRELLIS_LEN.LEN (c.arg 1 % 2 ^ 32))
        (d1.trellisCtlWritten (BitVec.ofNat 32 ctl) (BitVec.ofNat 32 (bitsOf (c.arg 2) 3 0))).setHostCmd i
          { c with started := true }
    let busy := !c.started && d.lstate != 0
    if busy || d1.lstate == 0 then
      d1.endHostCmd i c (if busy || d1.fld .trellis Reg.TRELLIS_ERR.CODE != 0 then St.loader else 0)
        ((d1.word .trellis 0x14).toNat + (d1.word .trellis 0x18).toNat * 2 ^ 32)
    else d1))

/-- WAIT_CHIME: it starts, and ends at once when a chime of that number has fired; else the chime ends it (R370). -/
def execHostWaitChime (t q cid : Nat) (s : State) : Host.Outcome State Fault Refusal :=
  s.run t .queue (fun d => d.hostGo q cid (fun o => o == 4) (fun d i c =>
    if d.chime.started && decide (c.arg 0 ≤ d.chime.count.toNat) then d.endHostCmd i c 0 d.chime.count.toNat
    else d.setHostCmd i { c with started := true }))

/-- WAIT_WINDOWS: it ends once the bed's window count has reached ARG1, or when the bed is HALTED (Table 15.6). -/
def execHostWaitWindows (t q cid : Nat) (s : State) : Host.Outcome State Fault Refusal :=
  s.run t .queue (fun d => d.hostGo q cid (fun o => o == 5) (fun d i c =>
    match d.bed (bitsOf (c.arg 0) 5 0) with
    | none => d.endHostCmd i c St.badArg 0
    | some x =>
      if x.state = .halted then d.endHostCmd i c St.bedHalted 0
      else if (x.winCnt + 2 ^ 32 - c.arg 1 % 2 ^ 32) % 2 ^ 32 < 2 ^ 31 then d.endHostCmd i c 0 (x.winCnt % 2 ^ 32)
      else d.setHostCmd i { c with started := true }))

/-- FIRMWARE: without FW_EN it ends UNSUPPORTED; with it the entry is passed to keeper firmware, which then ends it with the
status and RESULT given (Table 15.6). -/
def execHostFirmware (t q cid status result : Nat) (s : State) : Host.Outcome State Fault Refusal :=
  s.run t .queue (fun d => d.hostGo q cid (fun o => decide (0x80 ≤ o)) (fun d i c =>
    if !d.isSet .queue Reg.QUEUE_FW_CTL.FW_EN then d.endHostCmd i c St.unsupported 0
    else if !c.started then (d.setHostCmd i { c with started := true }).emit [.firmware q c.bytes]
    else d.endHostCmd i c (status % 2 ^ 15) (result % 2 ^ 64)))

/-! ### COPY -/

/-- The status of one byte's address in HBM or glasshouse for a COPY (Table 15.7). -/
def Dev.copyFault (d : Dev) (c : HostCmd) (space : Nat) (write : Bool) (a : Nat) : Option Nat :=
  let admin := (d.qfld c.queue Ctx.priv).testBit 0
  let bed := (d.bed (d.qfld c.queue Ctx.hostBed)).map (fun b => b.cfg)
  let code (x : Nat) : Nat := if x = Cause.unpopulated then St.unpopulated else St.partition
  match space with
  | 1 =>
    if admin then
      (if !d.hbmPopulated a then some St.unpopulated
       else if !d.clockOn (.hbmCtl (a / 2 ^ 37) (a / 2 ^ 36 % 2)) then some St.partition else none)
    else match bed with
      | some b => if 2 ^ 40 ≤ a then some St.partition else (d.hbmFault b write a).map code
      | none => some St.partition
  | 2 =>
    if admin then
      (if !addrOk 1 a || decide (50331648 ≤ a % 2 ^ 26) then some St.unpopulated
       else if !d.clockOn (.gh (bitsOf a 42 40)) then some St.partition else none)
    else match bed with
      | some b => if !addrOk 1 a then some St.partition else (d.ghFault b (bitsOf a 42 40) (a % 2 ^ 26)).map code
      | none => some St.partition
  | _ => none

/-- The bytes of a range before its first failing byte, with that byte's status: addresses change their standing only at
multiples of 64 KiB. -/
def Dev.copyReach (d : Dev) (c : HostCmd) (space : Nat) (write : Bool) (a n : Nat) : Nat × Option Nat :=
  let at_ (i : Nat) : Nat := if i = 0 then 0 else (a / 65536 + i) * 65536 - a
  match (List.range (n / 65536 + 2)).find? (fun i => decide (at_ i < n) && (d.copyFault c space write (a + at_ i)).isSome) with
  | some i => (at_ i, d.copyFault c space write (a + at_ i))
  | none => (n, none)

/-- What a COPY can move: the bytes before the first that fails at either end, and the status then. -/
def Dev.copyPlan (d : Dev) (c : HostCmd) : Nat × Option Nat :=
  let n := bitsOf (c.arg 2) 31 0
  let s := d.copyReach c (bitsOf (c.arg 3) 1 0) false (c.arg 0) n
  let e := d.copyReach c (bitsOf (c.arg 3) 3 2) true (c.arg 1) n
  if s.1 ≤ e.1 then s else e

/-- The memory place of a COPY address. -/
def copyMem (space a : Nat) : Mem × Nat := (locMem (space - 1) a).getD (.hbm, a % 2 ^ 40)

/-- Bytes of a COPY reach the destination, `at_` bytes from its start. -/
def Dev.copyOut (d : Dev) (c : HostCmd) (at_ : Nat) (ls : List Lane) : Dev :=
  let a := c.arg 1 + at_
  let space := bitsOf (c.arg 3) 3 2
  if space = 0 then
    d.emit ((splitSent 512 [⟨a, ls⟩]).map (fun s =>
      .pcieWrite (d.queuePort c.queue) (d.queuePasid c.queue) s.addr (laneBytes s.data) (anyBadLane s.data)))
  else
    let m := copyMem space a
    (d.sendLanes 0xFF (.lodge (d.queuePort c.queue)) (wordDie (m.1.word m.2)) a ls).writeLanes m.1 m.2 ls

/-- The status of a COPY that has moved all it can. -/
def copyStatus (stop : Option Nat) (ue : Bool) : Nat := stop.getD (if ue then St.ue else 0)

/-- HOST_COPY: a source in memory is moved up to the first byte that fails; a host source is read, and its data comes with
PCIE_COMPLETION_RECEIVE (Table 15.6, R246). -/
def execHostCopy (t q cid : Nat) (s : State) : Host.Outcome State Fault Refusal :=
  s.run t .queue (fun d => d.hostGo q cid (fun o => o == 1) (fun d i c =>
    let p := d.copyPlan c
    let space := bitsOf (c.arg 3) 1 0
    if c.started then d
    else if space = 0 ∧ p.1 ≠ 0 then
      (d.setHostCmd i { c with started := true }).emit (hostReads (d.queuePort q) (d.queuePasid q) (c.arg 0) p.1)
    else
      let m := copyMem space (c.arg 0)
      let ls := if space = 0 then [] else d.readLanes m.1 m.2 p.1
      let d1 := if space = 0 then d else d.noteFrom 0xFF (.lodge (d.queuePort q)) (m.1.wordsOf m.2 p.1)
      (d1.copyOut c 0 ls).endHostCmd i { c with delivered := p.1 } (copyStatus p.2 (anyBadLane ls)) p.1))

/-- Host data of a COPY arrives and is written; with the last of it the command ends. -/
def Dev.copyData (d : Dev) (i : Nat) (c : HostCmd) (ls : List Lane) : Dev :=
  let p := d.copyPlan c
  let ls := ls.take (p.1 - c.delivered)
  let n := c.delivered + ls.length
  let ue := c.ue || anyBadLane ls
  let d1 := d.copyOut c c.delivered ls
  if p.1 ≤ n then d1.endHostCmd i { c with delivered := n, ue := ue } (copyStatus p.2 ue) n
  else d1.setHostCmd i { c with delivered := n, ue := ue }

/-- The COPY of a queue that is in progress, by CID. -/
def Dev.copyOf (d : Dev) (q cid : Nat) : Option (Nat × HostCmd) :=
  d.hostCmd q cid (fun c => c.opc == 1 && c.outcome.isNone)

/-! ### PCIe completions and page responses (R257, R260, R372) -/

/-- The row and element that the host data received so far ends at; block scales end a row. -/
def hostCursor (p : Plan) : List RowPlan → Nat → Option (Nat × Nat)
  | [], _ => none
  | w :: ws, n =>
    if memRow p.fS p.kind w.n ≤ n then hostCursor p ws (n - memRow p.fS p.kind w.n)
    else some (w.row, if p.fS.blockScaled then 0
      else ((List.range w.n).filter (fun i => decide (eltEnd p.fS p.kind i ≤ n))).length)

/-- A rill's host data arrives, or its read fails: what had come before is complete, and the fault is unrecoverable. -/
def Dev.rillHostData (d : Dev) (die e : Nat) (st : CplStatus) (ls : List Lane) : Dev :=
  match (d.rill die e).run with
  | none => d
  | some x =>
    if !x.asked || x.hostHere || x.bad.isSome then d
    else match st with
      | .success => (d.modRun die e (fun y => { y with hostIn := (y.hostIn ++ ls).take x.hostBytes })).rillProgress die e
      | .noTranslation =>
        if 2 ≤ x.pageReqs then d.rillUnrecov die e Cause.hostFault else d
      | .unsupported | .abort =>
        (match hostCursor x.plan x.plan.rows x.hostIn.length with
          | some u => (d.rillPartial die e x (some u)).1
          | none => d).rillUnrecov die e Cause.pcieCpl

/-- The translation of a COPY's host address fails: a page request, then a second, then HOST_FAULT (R257). -/
def Dev.copyPage (d : Dev) (q : Nat) (i : Nat) (c : HostCmd) : Dev :=
  if 2 ≤ c.pageReqs then d.endHostCmd i c St.hostFault c.delivered
  else (d.setHostCmd i { c with pageReqs := c.pageReqs + 1 }).emit [.pageRequest (.copy q c.cid)
    (if bitsOf (c.arg 3) 1 0 = 0 then c.arg 0 + c.delivered else c.arg 1) (d.queuePasid q)]

/-- PCIE_COMPLETION_RECEIVE: a completion for a host read or a translation that the device asked for (R260, R372). -/
def execPcieCompletionReceive (t : Nat) (req : Requester) (st : CplStatus) (bytes : List Byte) (ep : Bool) (s : State) :
    Host.Outcome State Fault Refusal :=
  let ls : List Lane := bytes.map (fun b => ⟨b, if ep then poison else 0#8, 8⟩)
  match req with
  | .rill i e => s.run t (.rill i e) (fun d => d.rillHostData i e st ls)
  | .fetch q => s.run t .queue (fun d =>
      if st = .success || d.qfld q Ctx.kind != 1 then d else d.hostQueueError q St.fetch)
  | .cqWrite q => s.run t .queue (fun d =>
      if st = .success || d.qfld q Ctx.kind != 1 then d else d.hostQueueError q St.cqWrite)
  | .copy q cid => s.run t .queue (fun d =>
      match d.copyOf q cid with
      | none => d
      | some (i, c) => match st with
        | .success => if c.started then d.copyData i c ls else d
        | .noTranslation => d.copyPage q i c
        | .unsupported | .abort => if c.started then d.endHostCmd i c St.pcieCpl c.delivered else d)

/-- PAGE_REQUEST_RESPONSE: of a rill's request, or of a COPY's: Success lets it read again; any other response ends it (R257,
R261). -/
def execPageRequestResponse (t : Nat) (req : Requester) (success : Bool) (s : State) : Host.Outcome State Fault Refusal :=
  match req with
  | .rill i e => s.run t (.rill i e) (fun d => d.rillPageResponse i e success)
  | .copy q cid => s.run t .queue (fun d =>
      match d.copyOf q cid with
      | none => d
      | some (i, c) =>
        if c.pageReqs = 0 then d
        else if !success then d.endHostCmd i c St.hostFault c.delivered
        else if c.started then d.emit (hostReads (d.queuePort q) (d.queuePasid q) (c.arg 0 + c.delivered)
          ((d.copyPlan c).1 - c.delivered))
        else d)
  | .fetch _ | .cqWrite _ => s.run t .queue (fun d => d)

/-! ### Context commands (R365, R373) -/

/-- READ. -/
def execQctxRead (t : Nat) (src : Source) (s : State) : Host.Outcome State Fault Refusal :=
  s.access t src .queue (fun d => d.qctxRow src (fun d => d.qctxReadCmd src))

/-- WRITE. -/
def execQctxWrite (t : Nat) (src : Source) (s : State) : Host.Outcome State Fault Refusal :=
  s.access t src .queue (fun d => d.qctxRow src (fun d => d.qctxWriteCmd src))

/-- ABORT_ALL. -/
def execQctxAbortAll (t : Nat) (src : Source) (s : State) : Host.Outcome State Fault Refusal :=
  s.access t src .queue (fun d => d.qctxRow src (fun d => d.qctxAbortCmd src))

/-- RESET. -/
def execQctxReset (t : Nat) (src : Source) (s : State) : Host.Outcome State Fault Refusal :=
  s.access t src .queue (fun d => d.qctxRow src (fun d => d.qctxResetCmd src))

/-- QUEUE_BED_VEC_WRITE (R374). -/
def execQueueBedVecWrite (t : Nat) (src : Source) (bed : Nat) (data : Word) (s : State) : Host.Outcome State Fault Refusal :=
  s.access t src .queue (fun d =>
    if 64 ≤ bed then d else d.rowWrite src .queue (0x100 + 4 * bed) (fun d => d.bedVecWritten bed data))

/-! ### At a chime -/

/-- The WAIT_CHIME commands that the chime of a number ends. -/
def Dev.chimeWaits (d : Dev) (n : Nat) : Dev :=
  { d with hostCmds := d.hostCmds.map (fun c =>
      if c.opc = 4 ∧ c.started = true ∧ c.outcome = none ∧ c.arg 0 ≤ n then { c with outcome := some (0, n) } else c) }

end Machine
end Sys2Proof
end

