-- ==== Sys2Proof/Machine/Warden.lean ====
section
/-! DEFINITION. Warden arbitration and echo checking (16 R382 to R393): heartbeats, claims, the dies' answers, takeover,
fencing, resync, and what WARDEN_CTL starts. -/
namespace Sys2Proof
namespace Machine

/-- The lodge's ROLE: 0 ELECTING, 1 WARDEN, 2 STANDBY, 3 FENCED. -/
def Dev.role (d : Dev) (l : Nat) : Nat := d.fld (.warden l) Reg.WARDEN_STS.ROLE
def Dev.setRole (d : Dev) (l r : Nat) : Dev := d.setFld (.warden l) Reg.WARDEN_STS.ROLE r

/-- SYNC of a lodge: 0 UNSYNCED, 1 RESYNCING, 2 SYNCED. -/
def Dev.sync (d : Dev) (l : Nat) : Nat := d.fld (.warden l) Reg.WARDEN_STS.SYNC
def Dev.setSync (d : Dev) (l v : Nat) : Dev := d.setFld (.warden l) Reg.WARDEN_STS.SYNC v

/-- The other lodge. -/
def otherLodge (l : Nat) : Nat := 1 - l % 2

/-- A lodge's sample of WARDEN_PREF. -/
def Dev.pref (d : Dev) (l : Nat) : Nat := d.fld (.warden l) Reg.WARDEN_STS.PREF

/-- The lodge that wins a tie: the one that WARDEN_PREF names when both samples agree, else lodge 0 (R384). -/
def Dev.tieWinner (d : Dev) : Nat := if d.pref 0 = d.pref 1 then d.pref 0 else 0

/-- Pair `p` outranks pair `q` (R384). -/
def Dev.outranks (d : Dev) (p q : Nat × Nat) : Bool :=
  decide (q.1 < p.1) || (p.1 == q.1 && p.2 != q.2 && p.2 == d.tieWinner)

/-- Lodge `l` follows the pair with epoch `e`. -/
def Dev.follow (d : Dev) (l e : Nat) : Dev :=
  (d.setFld (.warden l) Reg.WARDEN_EPOCH.EPOCH e).modWard l (fun w => { w with seen := max w.seen e })

/-- A full copy of the shared state begins toward lodge `l`; the first one leaves SYNC UNSYNCED until it completes (R392). -/
def Dev.beginResync (d : Dev) (l : Nat) : Dev :=
  ((if d.sync l = 0 then d else d.setSync l 1).modWard l (fun w => { w with resyncing := true })).emit [.fullCopy l]

/-! ### Heartbeats -/

/-- HEARTBEAT_SEND: the warden or standby sends its heartbeat, 1 µs or more after its last; an interval in which none came
from the other lodge is counted (R382, Table 16.5). -/
def execHeartbeatSend (t l : Nat) (s : State) : Host.Outcome State Fault Refusal :=
  s.run t (.warden (l % 2)) (fun d =>
    let l := l % 2
    let w := d.ward l
    let r := d.role l
    if (r = 1 ∨ r = 2) ∧ (d.lodge l).stopped = false ∧ (match w.hbT with | some h => decide (h + 64000 ≤ d.now) | none => true) = true then
      let dig := (d.word (.warden l) 0x20) ++ (d.word (.warden l) 0x1C)
      let warden := if r = 1 then l else otherLodge l
      let e := d.fld (.warden l) Reg.WARDEN_EPOCH.EPOCH
      let d1 := if w.gotHb then d else d.countSat (.warden l) Reg.WARDEN_HB_MISS.COUNT 1
      (d1.modWard l (fun w => { w with
        gotHb := false, hbT := some d.now,
        hb := some ⟨e, warden, d.pref l, dig, d.chime.count, r == 1, d.now⟩ })).emit [.heartbeat l e (d.pref l) dig]
    else d)

/-- The standby compares the digest of the window that has closed with the warden's, once; a mismatch is reported and the
warden sends a full copy (R392). -/
def Dev.compareDigest (d : Dev) (l : Nat) (m : HbMsg) : Dev :=
  if d.role l = 2 ∧ d.sync l = 2 ∧ m.warden = true ∧ m.chime = d.chime.count ∧ d.chime.prev ≤ m.sentT
      ∧ (d.ward l).compared = false then
    let d1 := d.modWard l (fun w => { w with compared := true })
    if m.digest = (d.word (.warden l) 0x20) ++ (d.word (.warden l) 0x1C) then d1
    else
      let d2 := (d1.setFld (.warden l) Reg.WARDEN_STS.ECHO_MIS 1).countSat (.warden l) Reg.WARDEN_ECHO_MIS_CNT.COUNT 1
      (d2.logPush (d2.entry (.warden l) Ev.echo 2)).beginResync l
  else d

/-- A lodge learns a pair from the other: it notes that the pair outranks its own while it is warden or claims, and
follows it when it is STANDBY; an ELECTING lodge without a claim that hears a warden joins as STANDBY (R386, R388). -/
def Dev.learnPair (d : Dev) (l : Nat) (p : Nat × Nat) (fromWarden : Bool) : Dev :=
  let d1 := d.modWard l (fun w => { w with seen := max w.seen p.1 })
  match d.role l with
  | 1 => if d.outranks p (d.lodgePair l) then d1.modWard l (fun w => { w with outranked := some p }) else d1
  | 2 => if p.2 ≠ l ∧ d.fld (.warden l) Reg.WARDEN_EPOCH.EPOCH ≤ p.1 then d1.follow l p.1 else d1
  | 0 =>
    if fromWarden && (d.ward l).claim.isNone && (d.lodge l).step == 5 then
      (((d1.setRole l 2).follow l p.1).beginResync l).endStep l 5 6
    else d1
  | _ => d1

/-- HEARTBEAT_RECEIVE: the other lodge's heartbeat arrives, within 200 ns of its sending (R382, R384, R392). -/
def execHeartbeatReceive (t l : Nat) (s : State) : Host.Outcome State Fault Refusal :=
  s.run t (.warden (l % 2)) (fun d =>
    let l := l % 2
    match (d.ward (otherLodge l)).hb with
    | some m =>
      if d.now ≤ m.sentT + 12800 then
        let d1 := d.modWard l (fun w => { w with lastHb := some d.now, gotHb := true })
        let d2 := d1.setFld (.warden l) Reg.WARDEN_STS.PREF_MIX (bit (m.pref != d.pref l))
        (d2.learnPair l (m.epoch, m.lodge) m.warden).compareDigest l m
      else d
    | none => d)

/-! ### Echo records and resync -/

/-- ECHO_RECORD: the standby applies a record to its copy, or meets one that is not what the warden sent (R392; entry
30). -/
def execEchoRecord (t l : Nat) (ok : Bool) (s : State) : Host.Outcome State Fault Refusal :=
  s.run t (.warden (l % 2)) (fun d =>
    if d.role (l % 2) = 2 ∧ ok = false then d.modWard (l % 2) (fun w => { w with diverged := true }) else d)

/-- The digests of a window that closes at a chime: the warden's, and the standby's own, which is the same unless its records
were not (R392; entry 30). -/
def Dev.formDigests (d : Dev) : Dev :=
  let put (d : Dev) (l : Nat) (v : DWord) : Dev :=
    ((d.setWord (.warden l) 0x1C (v.setWidth 32)).setWord (.warden l) 0x20 ((v >>> 32).setWidth 32)).modWard l
      (fun w => { w with diverged := false, compared := false })
  let a := d.takeFree
  let b := a.2.takeFree
  (List.range 2).foldl (fun d l =>
    match d.role l with
    | 1 => put d l (Config.echoDigest a.1)
    | 2 => put d l (Config.echoDigest (if (d.ward l).diverged then b.1 else a.1))
    | _ => d) b.2

/-- RESYNC_DONE: the full copy completes: SYNC returns to SYNCED, and a fenced lodge becomes STANDBY (R388, R392). -/
def execResyncDone (t l : Nat) (s : State) : Host.Outcome State Fault Refusal :=
  s.run t (.warden (l % 2)) (fun d =>
    let l := l % 2
    if (d.ward l).resyncing = true ∧ (d.role l = 2 ∨ d.role l = 3) ∧ d.role (otherLodge l) = 1 then
      let d1 := (d.setSync l 2).modWard l (fun w => { w with resyncing := false, diverged := false, compared := true })
      (if d.role l = 3 then d1.setRole l 2 else d1).endFirmwareSteps
    else d)

/-! ### Claims -/

/-- Lodge `l` claims with the epoch after the highest it has seen; at the last epoch it cannot, and says so (R383,
R386). -/
def Dev.claimWarden (d : Dev) (l : Nat) : Dev :=
  let e := (d.ward l).seen
  if 0xFFFFFFFF ≤ e then
    (d.setFld (.warden l) Reg.WARDEN_STS.DIE_LOST 1).setFld (.warden l) Reg.WARDEN_CLAIM.LOST 0
  else
    ((d.setWord (.warden l) 0xC 0#32).modWard l (fun w => { w with
      claim := some (e + 1, d.now), answers := [], rej := none, handOver := false })).emit [.claim l (e + 1)]

/-- HEARTBEAT_TIMEOUT: the standby, with TAKEOVER_EN set and no heartbeat for 8 µs, or handed the role, claims (R383,
R391). -/
def execHeartbeatTimeout (t l : Nat) (s : State) : Host.Outcome State Fault Refusal :=
  s.run t (.warden (l % 2)) (fun d =>
    let l := l % 2
    let w := d.ward l
    let absent := match w.lastHb with | some h => decide (h + 512000 ≤ d.now) | none => false
    if d.role l = 2 ∧ w.claim = none ∧ (w.handOver = true ∨ (d.isSet (.warden l) Reg.WARDEN_CTL.TAKEOVER_EN = true
        ∧ absent = true)) then d.claimWarden l
    else d)

/-- ELECTION: in step 5 of start-up an ELECTING lodge claims without waiting (R386). -/
def execElection (t l : Nat) (s : State) : Host.Outcome State Fault Refusal :=
  s.run t (.warden (l % 2)) (fun d =>
    let l := l % 2
    if d.role l = 0 ∧ (d.lodge l).step = 5 ∧ (d.lodge l).stopped = false ∧ (d.ward l).claim = none then d.claimWarden l
    else d)

/-- CLAIM_RECEIVE: a die accepts the outstanding claim of lodge `l`, when it matches or outranks the pair it holds, or
refuses it with its pair (R384). -/
def execClaimReceive (t die l : Nat) (s : State) : Host.Outcome State Fault Refusal :=
  s.run t (.warden (l % 2)) (fun d =>
    let l := l % 2
    let k := die % 8
    match (d.ward l).claim with
    | some (e, _) =>
      let held := d.diePair k
      let ack := (e, l) == held || d.outranks (e, l) held
      let d1 := if ack then (d.setFld (.dieCtl k) Reg.DIE_WEPOCH.EPOCH e).setFld (.dieCtl k) Reg.DIE_WARDEN_STS.LODGE l
        else d
      (d1.modWard l (fun w => { w with answers := (w.answers.filter (fun a => a.1 != k)) ++ [(k, ack, d1.diePair k)] })).emit
        [.claimAnswer k l ack]
    | none => d)

/-- CLAIM_ANSWER: a die's ACK or REJ reaches the lodge whose claim stands (R385). -/
def execClaimAnswer (t l die : Nat) (s : State) : Host.Outcome State Fault Refusal :=
  s.run t (.warden (l % 2)) (fun d =>
    let l := l % 2
    let k := die % 8
    match (d.ward l).answers.find? (fun a => a.1 == k), (d.ward l).claim with
    | some (_, ack, p), some _ =>
      let d1 := d.modWard l (fun w => { w with answers := w.answers.filter (fun a => a.1 != k) })
      if ack then
        d1.setFld (.warden l) Reg.WARDEN_CLAIM.ACK (d.fld (.warden l) Reg.WARDEN_CLAIM.ACK ||| 2 ^ k)
      else
        (d1.setFld (.warden l) Reg.WARDEN_CLAIM.REJ (d.fld (.warden l) Reg.WARDEN_CLAIM.REJ ||| 2 ^ k)).modWard l
          (fun w => { w with
            seen := max w.seen p.1
            rej := match w.rej with
              | some q => if d.outranks p q then some p else some q
              | none => some p })
    | _, _ => d)

/-- The bits set in a mask of eight. -/
def popCount8 (m : Nat) : Nat := ((List.range 8).filter (fun i => m.testBit i)).length

/-- Every running bed halts with HALT_CAUSE 3 (R393); one in REPLANT only reports it (03 R477). -/
def Dev.haltRunning (d : Dev) : Dev :=
  d.bedIds.foldl (fun d b => match d.bed b with
    | some x => if x.state = .run ∨ x.state = .slipping ∨ x.state = .replant then d.haltBed b 3 else d
    | none => d) d

/-- A warden that is new since start-up takes over: vector 2, the log, and an abandoned loader; an unsynced one halts every
running bed (R389, R393, 03 R89). In start-up it restarts the step that the old one was in (19 R430). -/
def Dev.takeOver (d : Dev) (l : Nat) : Dev :=
  let unsynced := d.sync l ≠ 2
  let o := otherLodge l
  let d1 := (d.countWrap (.warden l) Reg.WARDEN_CHANGES.COUNT 1).modWard l
    (fun w => { w with takeFrom := some (w.lastHb.getD d.now) })
  let d2 := (d1.abandonLoad LCode.abortWarden).raiseBoth 2
  let d3 := d2.logPush (d2.entry (.warden l) Ev.warden (if unsynced then 3 else 1))
  let d4 := if unsynced then (d3.setFld (.warden l) Reg.WARDEN_STS.UNSYNC_TAKE 1).haltRunning else d3
  let st := (d.lodge o).step
  if 7 ≤ st then
    let d5 := (d4.modLodge l (fun x => { x with step := st, stepT := d.now })).modLodge o
      (fun x => { x with step := 0, stopped := x.stopped || decide (st ≤ 8) })
    if st = 7 then d5.beginTraining else d5
  else d4

/-- CLAIM_RESOLVE: a claim that met a REJ fails; one with five ACKs succeeds once every die has answered or a
microsecond has passed (R385). -/
def execClaimResolve (t l : Nat) (s : State) : Host.Outcome State Fault Refusal :=
  s.run t (.warden (l % 2)) (fun d =>
    let l := l % 2
    match (d.ward l).claim with
    | none => d
    | some (e, at_) =>
      let ack := d.fld (.warden l) Reg.WARDEN_CLAIM.ACK
      match (d.ward l).rej with
      | some p =>
        let d1 := ((d.setRole l 2).follow l p.1).modWard l (fun w => { w with
          claim := none, answers := [], rej := none, lastHb := some d.now })
        (if d.sync l = 2 then d1 else d1.beginResync l).endStep l 5 6
      | none =>
        if 5 ≤ popCount8 ack ∧ (ack = 0xFF ∨ at_ + 64000 ≤ d.now) then
          let lost := 0xFF - ack
          let d1 := ((d.setRole l 1).follow l e).modWard l (fun w => { w with claim := none, answers := [], outranked := none })
          let d2 := (d1.setFld (.warden l) Reg.WARDEN_CLAIM.LOST lost).setFld (.warden l) Reg.WARDEN_STS.DIE_LOST
            (if lost = 0 then d.fld (.warden l) Reg.WARDEN_STS.DIE_LOST else 1)
          if d.role l = 2 then d2.takeOver l else d2.endStep l 5 6
        else d)

/-- CLAIM_REPEAT: an unresolved claim is sent again, 4 µs or more after it was last sent, at the same epoch (R385). -/
def execClaimRepeat (t l : Nat) (s : State) : Host.Outcome State Fault Refusal :=
  s.run t (.warden (l % 2)) (fun d =>
    let l := l % 2
    match (d.ward l).claim with
    | some (e, at_) =>
      if (d.ward l).rej = none ∧ at_ + 256000 ≤ d.now then
        ((d.setWord (.warden l) 0xC 0#32).modWard l (fun w => { w with claim := some (e, d.now), answers := [] })).emit
          [.claim l e]
      else d
    | none => d)

/-- The outranking pair that a warden has learned of: from a REJ or a heartbeat, or the other lodge's claim (R388). -/
def Dev.lostTo (d : Dev) (l : Nat) : Option (Nat × Nat) :=
  match (d.ward l).outranked with
  | some p => some p
  | none => match (d.ward (otherLodge l)).claim with
    | some (e, _) => if d.outranks (e, otherLodge l) (d.lodgePair l) then some (e, otherLodge l) else none
    | none => none

/-- WARDEN_FENCE: a warden that has learned of an outranking pair fences itself; it resyncs from the new warden, but
during start-up it stops instead (R388, 19 R430). -/
def execWardenFence (t l : Nat) (s : State) : Host.Outcome State Fault Refusal :=
  s.run t (.warden (l % 2)) (fun d =>
    let l := l % 2
    match d.lostTo l with
    | some p =>
      if d.role l = 1 then
        let d1 := ((d.setRole l 3).setFld (.warden l) Reg.WARDEN_STS.LOST 1).follow l p.1
        let d2 := (d1.countWrap (.warden l) Reg.WARDEN_CHANGES.COUNT 1).modWard l (fun w => { w with
          outranked := none, claim := none, lastHb := some d.now })
        let d3 := d2.abandonLoad LCode.abortWarden
        if (d.lodge l).step = 7 ∨ (d.lodge l).step = 8 ∨ (d.lodge l).stopped = true then
          d3.modLodge l (fun x => { x with step := 0, stopped := true })
        else d3.beginResync l
      else d.modWard l (fun w => { w with outranked := none })
    | none => d)

/-! ### WARDEN_CTL -/

/-- YIELD: the warden hands the role to a SYNCED standby and becomes STANDBY (R391). -/
def Dev.yieldRole (d : Dev) (l : Nat) : Dev :=
  let o := otherLodge l
  if d.role l = 1 ∧ d.role o = 2 ∧ d.sync o = 2 then
    (((((d.setRole l 2).setSync l 2).countWrap (.warden l) Reg.WARDEN_CHANGES.COUNT 1).modWard l
      (fun w => { w with lastHb := some d.now, hb := none })).modWard o (fun w => { w with handOver := true })).emit
        [.handOver o]
  else d.setFld (.warden l) Reg.WARDEN_STS.CMD_IGN 1

/-- RESYNC: a full copy goes from the warden to the lodge that is not; ignored when there are not both. -/
def Dev.commandResync (d : Dev) (l : Nat) : Dev :=
  let target := if d.role l = 1 then otherLodge l else l
  if d.role (otherLodge target) = 1 ∧ (d.role target = 2 ∨ d.role target = 3) then d.beginResync target
  else d.setFld (.warden l) Reg.WARDEN_STS.CMD_IGN 1

/-- WARDEN_CTL of lodge `l` takes the merged word `new` and starts the command `cmd` (Table 16.3). -/
def Dev.wardenCtlWritten (d : Dev) (l : Nat) (new cmd : Word) : Dev :=
  let d1 := d.setWord (.warden l) 0x0 new
  match bitsOf cmd.toNat 3 0 with
  | 0 => d1
  | 1 => d1.yieldRole l
  | 2 => d1.commandResync l
  | _ => d1.setFld (.warden l) Reg.WARDEN_STS.CMD_IGN 1

/-- YIELD: the base write of WARDEN_CTL.CMD = YIELD in the source's lodge (R391). -/
def execWardenYield (t : Nat) (src : Source) (s : State) : Host.Outcome State Fault Refusal :=
  s.access t src (.warden src.lodge) (fun d => d.rowWrite src (.warden src.lodge) 0x0 (fun d =>
    d.wardenCtlWritten src.lodge (d.word (.warden src.lodge) 0x0) 1#32))

/-- RESYNC: the base write of WARDEN_CTL.CMD = RESYNC in the source's lodge (R392). -/
def execWardenResync (t : Nat) (src : Source) (s : State) : Host.Outcome State Fault Refusal :=
  s.access t src (.warden src.lodge) (fun d => d.rowWrite src (.warden src.lodge) 0x0 (fun d =>
    d.wardenCtlWritten src.lodge (d.word (.warden src.lodge) 0x0) 2#32))

/-! ### A chime without a warden -/

/-- A chime that fires while no lodge is warden comes from the dies' own count: COAST (R389). -/
def Dev.noteCoast (d : Dev) : Dev :=
  if d.role 0 = 1 ∨ d.role 1 = 1 then d
  else (List.range 8).foldl (fun d k =>
    if (d.diePair k).1 = 0 then d else d.setFld (.dieCtl k) Reg.DIE_WARDEN_STS.COAST 1) d

end Machine
end Sys2Proof
end

