-- ==== Sys2Proof/Machine/Hazard.lean ====
section
/-! DEFINITION. What stands waiting at a chime: stalls and array holds (09 R225), waits at queues (10 R251); and what units
do at each chime. -/
namespace Sys2Proof
namespace Machine

/-! ### Stalls (09 R225) -/

/-- A stall or hold that stands at a chime on a furrow of a plot's bench: a write or a read, its kind of Table 9.7, its
port, and the bed that waits. -/
structure Standing where
  die   : Nat
  plot  : Nat
  fur   : Nat
  write : Bool
  kind  : Nat
  port  : Nat
  bed   : Nat
  deriving DecidableEq, Repr

/-- It is reported: HAZARD_TIMEOUT of the bed, the furrow's flag, and, where none is recorded, its place in BENCH_STS. -/
def Dev.noteStanding (d : Dev) (z : Standing) : Dev :=
  let b := Blk.plot z.die z.plot
  let d1 := (d.hazardBed z.bed).setFldI b (if z.write then Reg.FUR_STS.HAZ_W else Reg.FUR_STS.HAZ_R) z.fur 1
  if d1.isSet b Reg.BENCH_STS.HAZ then d1
  else (((d1.setFld b Reg.BENCH_STS.HAZ 1).setFld b Reg.BENCH_STS.HAZ_KIND z.kind).setFld b Reg.BENCH_STS.HAZ_PORT
    z.port).setFld b Reg.BENCH_STS.HAZ_FUR z.fur

/-- The access as it stands stalled. -/
def BenchAccess.standing (a : BenchAccess) (bed : Nat) : Standing :=
  ⟨a.die, a.plot, a.fur, a.write, if a.write then 2 else 1, a.port, bed⟩

/-- The requests that stand stalled, or are still being retried, on a furrow. -/
def Dev.stallsOn (d : Dev) (f0 : Furrow) : List Standing :=
  let f := f0.atCycle d.coreCycleNo
  (f.stalled.filter (fun a => !f.clear a || f.readAhead a)).map (fun a => a.standing (d.bedOfAgent a.agent)) ++
    f.retried.map (fun x => x.1.standing (d.bedOfAgent x.1.agent))

/-- The stages before a pass's first vector are done: its tile, its slot and its output range. -/
def Dev.waitsVector (d : Dev) (die p : Nat) (x : Pass) (ex : Bool) : Bool :=
  (d.plot die p).mayStart x ex d.now && (x.fields.queue == 0xFFFF || x.slot.isSome) &&
    (x.fields.outBytes == 0 || x.oBase.isSome)

/-- The pass whose next vector is due. -/
def Dev.duePass (d : Dev) (die p : Nat) : Option (Pass × Bool) :=
  let st := d.fld (.plot die p) Reg.PLOT_STS.STATE
  let ex (x : Pass) : Bool := (d.passCfg x).elim false (fun b => b.exact)
  match (d.plot die p).passes.find? (fun x => x.running && decide (x.entered < x.fields.k)) with
  | some x => if x.startT + x.fields.cyc (ex x) * x.entered * coreCycle ≤ d.now then some (x, ex x) else none
  | none => match (d.plot die p).nextPass with
    | some x => if decide (st < 2) && d.waitsVector die p x (ex x) then some (x, ex x) else none
    | none => none

/-- The array hold of a plot at a chime: on an unfilled line of its own bench, or on a forwarding write over an undrained
range of its successor's (07 R172, 08 R203). -/
def Dev.holdOf (d : Dev) (die p : Nat) : Option Standing :=
  match d.duePass die p with
  | none => none
  | some (x, ex) =>
    let c := x.fields
    let v := x.fed
    if x.entered ≠ x.fed then none
    else
      match d.vectorNeeds die p x c ex v with
      | some (_, fur) =>
        let b := (d.benchOf die p (furBench fur)).getD (die, p)
        some ⟨b.1, b.2, furNo fur, false, 3, benchPort (furBench fur), x.bed⟩
      | none =>
        if c.fwd then
          match d.nextPlot die p c.ring with
          | some nx =>
            let y := d.fur nx.1 nx.2 (furNo c.furM)
            if y.hasRoom y.tail (forwardClaim c.fM (c.movElems ex) c.k v) then none
            else some ⟨nx.1, nx.2, furNo c.furM, true, 2, c.ring + 1, x.bed⟩
          | none => none
        else none

/-- Every stall and hold that stands at a chime is reported. -/
def Dev.noteStalls (d : Dev) : Dev :=
  (d.furs.flatMap (fun e => d.stallsOn e.2) ++ d.plots.filterMap (fun e => d.holdOf (e.1 / 68) (e.1 % 68))).foldl
    Dev.noteStanding d

/-! ### Waits at queues (10 R251) -/

/-- A barrow stands to be taken; a VOID one keeps its consumer waiting (R247). -/
def Dev.mayTake (d : Dev) (q : Nat) : Bool := d.hasBarrow q && (d.nextBad q || !(d.nextBarrow q).void)

/-- The unit waits to claim a slot of its queue, or for a barrow. -/
def Dev.claimWaits (d : Dev) (a : Agent) (q : Nat) : Bool := d.wantsSlot a q && !d.canClaim d.lplot a q
def Dev.takeWaits (d : Dev) (a : Agent) (q : Nat) : Bool := d.wantsBarrow a q && !d.mayTake q

/-- The beds of the units that wait at a queue. -/
def Dev.queueWaits (d : Dev) : List Nat :=
  (d.plots.filterMap (fun e => match (d.plot (e.1 / 68) (e.1 % 68)).nextPass with
      | some x =>
        let a := Agent.plot (e.1 / 68) (e.1 % 68)
        if d.claimWaits a x.fields.queue then some x.bed else none
      | none => none)) ++
  (d.sieves.filterMap (fun e => match e.2.run with
      | some x =>
        let a := Agent.sieve (e.1 / 4) (e.1 % 4)
        let c := SieveCmd.ofBytes x.cmd
        if d.claimWaits a c.queue || d.takeWaits a c.inQ then some x.bed else none
      | none => none)) ++
  (d.mowers.filterMap (fun e => match e.2.run with
      | some x =>
        let c := MowCmd.ofBytes x.cmd
        if d.claimWaits (.mower e.1) c.queue || d.takeWaits (.mower e.1) c.inQ then some x.bed else none
      | none => none)) ++
  (d.trugWait.filterMap (fun r => if d.takeWaits .trug (TrugCmd.ofBytes r.cmd).inQ && r.input.isNone then some r.bed else none)) ++
  (d.trugs.filterMap (fun x => match x.run with
      | some r =>
        let q := (TrugCmd.ofBytes r.cmd).queue
        if r.claimed.isNone && q != 0xFFFF && !d.canClaim d.lplot .trug q then some r.bed else none
      | none => none))

/-- A rill that waits at a queue, and its bed. -/
def Dev.rillWait (d : Dev) (die e : Nat) : Option Nat :=
  match (d.rill die e).run with
  | some x =>
    if d.claimWaits (.rill die e) x.fields.outQ || d.takeWaits (.rill die e) x.fields.inQ then some x.bed else none
  | none => none

/-- Every wait at a queue that stands at a chime raises HAZARD_TIMEOUT; a rill also sets QWAIT_HAZ. -/
def Dev.noteQueueWaits (d : Dev) : Dev :=
  let d1 := d.rills.foldl (fun d e => match d.rillWait (e.1 / 16) (e.1 % 16) with
    | some b => (d.setFld (.rill (e.1 / 16) (e.1 % 16)) Reg.RILL_STS.QWAIT_HAZ 1).hazardBed b
    | none => d) d
  d.queueWaits.foldl (fun d b => d.hazardBed b) d1

/-! ### Units at a chime -/

/-- At a chime mirrored Mower registers take effect (12 R301), a replant that drains has seen a chime (03 R84), waits of
host commands for this chime end (15 R371), the digests of the closed window are formed and a chime that no warden drives
is marked (16 R389, R392), and the hold duty may change again (20 R451). -/
def Dev.unitsAtChime (d : Dev) : Dev :=
  let d1 := d.takeMirrors
  let d2 := if d1.fld .trellis Reg.TRELLIS_STS.LSTATE = 3 then { d1 with loader := { d1.loader with drained := true } } else d1
  let d3 := ((d2.chimeWaits d.chime.count.toNat).formDigests).noteCoast
  { d3 with pwr := { d3.pwr with dutyMoved := false } }

end Machine
end Sys2Proof
end

