-- ==== Sys2Proof/Machine/Chime.lean ====
section
/-! DEFINITION. The chime generator and what a chime does to the beds (02 R29 to R58, R469, R474 to R477, 03 R84). -/
namespace Sys2Proof
namespace Machine

/-! ### Registers of CHIME -/

/-- CHIME_CTL.ENABLE is set. -/
def Dev.chimeEnabled (d : Dev) : Bool := d.isSet .chime Reg.CHIME_CTL.ENABLE

/-- The generator runs: it is enabled, and the device is ACTIVE or IDLE (20 R446, Table 20.1). -/
def Dev.chimeOn (d : Dev) : Bool := d.chimeEnabled && decide (d.powerState ≤ 1)

/-- PERIOD_NS in units of 1/64 ns. -/
def Dev.period (d : Dev) : Nat := d.fld .chime Reg.CHIME_PERIOD.PERIOD_NS * 64

/-- TOL_NS in units of 1/64 ns. -/
def Dev.tolerance (d : Dev) : Nat := d.fld .chime Reg.CHIME_TOL.TOL_NS * 64

/-- A value written to CHIME_PERIOD takes effect, or is rejected whole with PREJ (R29, R30). -/
def Dev.chimePeriodWritten (d : Dev) (new : Word) : Dev :=
  let p := bitsOf new.toNat 23 0
  if p < 1000 ∨ 10000000 < p then d.setFld .chime Reg.CHIME_STS.PREJ 1 else d.setWord .chime 0x4 new

/-- A value written to CHIME_CTL takes effect, or is rejected whole with PREJ (R30). A change of SRC clears FREERUN and
what the old source had announced (R40); setting ENABLE starts the generator at this instant and clearing it stops
the generator, keeps the number and clears FREERUN (R474). -/
def Dev.chimeCtlWritten (d : Dev) (new : Word) : Dev :=
  let src := bitsOf new.toNat 2 1
  if src = 3 then d.setFld .chime Reg.CHIME_STS.PREJ 1
  else
    let was := d.chimeEnabled
    let on := new.toNat.testBit 0
    let d1 := d.setWord .chime 0x0 new
    let d2 := if src = d.fld .chime Reg.CHIME_CTL.SRC then d1
      else { (d1.setFld .chime Reg.CHIME_STS.FREERUN 0).setFld .chime Reg.CHIME_STS.SRC_ACT src with
             chime := { d1.chime with due := [], emitted := 0, srcFrom := d1.now, emitFrom := d1.now } }
    if on && !was then
      { d2 with chime := { d2.chime with prev := d2.now, fromEnable := true, openPeriod := d2.period,
                                         due := [], emitted := 0, srcFrom := d2.now, emitFrom := d2.now } }
    else if was && !on then
      { d2.setFld .chime Reg.CHIME_STS.FREERUN 0 with chime := { d2.chime with due := [] }, chimeOut := false }
    else d2

/-- A value written to CHIME_LEAD takes effect. -/
def Dev.chimeLeadWritten (d : Dev) (new : Word) : Dev :=
  let d1 := d.setWord .chime 0x14 new
  { d1 with chime := { d1.chime with emitFrom := d1.now } }

/-- CHIME_ENABLE_SET: the write, through the SET alias, of ENABLE = 1 (R474). -/
def execChimeEnableSet (t : Nat) (src : Source) (s : State) : Host.Outcome State Fault Refusal :=
  s.access t src .chime (fun d => d.rowWrite src .chime 0x0 (fun d => d.chimeCtlWritten (d.word .chime 0x0 ||| 1#32)))

/-- CHIME_ENABLE_CLEAR: the write, through the CLR alias, of ENABLE's bit (R474). -/
def execChimeEnableClear (t : Nat) (src : Source) (s : State) : Host.Outcome State Fault Refusal :=
  s.access t src .chime (fun d => d.rowWrite src .chime 0x0 (fun d => d.chimeCtlWritten (d.word .chime 0x0 &&& ~~~1#32)))

/-- CHIME_SOURCE_CHANGE: the base write of SRC, every other field as read (R30, R40). -/
def execChimeSourceChange (t : Nat) (src : Source) (sel : BitVec 2) (s : State) : Host.Outcome State Fault Refusal :=
  s.access t src .chime (fun d => d.rowWrite src .chime 0x0 (fun d =>
    d.chimeCtlWritten (BitVec.ofNat 32 (putBits (d.word .chime 0x0).toNat 2 1 sel.toNat))))

/-- CHIME_PERIOD_WRITE: the base write of PERIOD_NS (R29 to R31). -/
def execChimePeriodWrite (t : Nat) (src : Source) (period : BitVec 24) (s : State) :
    Host.Outcome State Fault Refusal :=
  s.access t src .chime (fun d => d.rowWrite src .chime 0x4 (fun d =>
    d.chimePeriodWritten (BitVec.ofNat 32 (putBits (d.word .chime 0x4).toNat 23 0 period.toNat))))

/-! ### The window of a bed at a chime -/

/-- The window that is open is complete at the closing point of a chime at `T`: every item has issued and retired by
64 ns before it (R35, R49). -/
def Dev.retiredBy (d : Dev) (b : Nat) (x : Bed) (T : Nat) : Bool :=
  !d.items.any (fun i => i.bed == b) && !d.toIssue.any (fun q => q.bed == b) &&
    decide (x.lastRetire.getD 0 + 64 * 64 ≤ T)

/-- The same as the done network sampled it for that chime, where it did (R35). -/
def Dev.windowDone (d : Dev) (b : Nat) (x : Bed) (T : Nat) : Bool :=
  match x.sample with
  | some (f, v) => if f = T then v else d.retiredBy b x T
  | none => d.retiredBy b x T

/-- BED_SLACK of a complete window (Table 2.9): ns from the last retirement, or the opening chime when it had no item,
to the closing point; 0 of a window that overran. -/
def Bed.slackAt (x : Bed) (T : Nat) : Nat :=
  if x.slips = 0 then min ((T - 64 * 64 - x.lastRetire.getD (x.openT.getD T)) / 64) 0xFFFFFF else 0

/-- What a bed does at a chime. -/
inductive BedMove where
  | stay | issue | halt (cause : Nat)
  deriving DecidableEq, Repr

/-- RUN has been set for at least 256 ns (R58). -/
def Bed.mayIssue (x : Bed) (T : Nat) : Bool := x.run && decide (x.runAt + 256 * 64 ≤ T)

/-- The bed after its window has completed: one more window, its slack, the place of the next window, and the end of
the program under FLAGS.HALT (R50, R58, R476). The Boolean: the bed's vector is raised for the run of the record. -/
def Bed.windowEnds (x : Bed) (T : Nat) : Bed × Bool :=
  let r := x.cfg.record x.pc
  let last := match r with | some r => decide (r.repeats ≤ x.rep) | none => true
  let next := match r with | some r => r.next | none => x.pc
  let x1 := { x with winCnt := (x.winCnt + 1) % 2 ^ 32, slack := x.slackAt T, slips := 0, openT := none,
                     lastRetire := none, sample := none }
  let x2 := if last then { x1 with pc := next, rep := 0 } else x1
  let halts := last && (match r with | some r => r.halt | none => false)
  (if halts then { x2 with run := false, state := .idle } else x2,
   last && (match r with | some r => r.irq | none => false))

/-- The bed when its window is unfinished at a chime: SLIP or STOP (R51 to R53). -/
def Bed.windowSlips (x : Bed) : Bed × BedMove :=
  let x1 := { x with overrun := true, ovrCnt := min (x.ovrCnt + 1) (2 ^ 32 - 1), slack := 0, sample := none }
  if x.policyStop then (x1, .halt 1)
  else
    let n := x.slips + 1
    if max 1 x.slipLimit ≤ n then ({ x1 with slips := n, state := .slipping }, .halt 2)
    else ({ x1 with slips := n, state := .slipping }, .stay)

/-- Bed `x` at a chime at `T`, its open window complete or not (R50 to R53, R58, R248, R476): its new record, whether
its vector is raised, and its move. At a held chime no bed issues; a bed whose window is complete keeps its pending record
for the first chime that is not held (20 R452). A halt for a POISONED barrow at a chime that finds the window complete
leaves that window uncounted, BED_PC as it is and its interrupt unraised (DESIGN CHOICE, entry 68). -/
def Bed.atChime (x : Bed) (done held : Bool) (T : Nat) : Bed × Bool × BedMove :=
  match x.state with
  | .halted | .replant => ({ x with poisoned := false }, false, .stay)
  | .idle =>
    if x.poisoned then (x, false, .halt 3)
    else if x.mayIssue T && !held then (x, false, .issue) else (x, false, .stay)
  | .run | .slipping =>
    if x.poisoned then (x, false, .halt 3)
    else if x.openT.isNone then
      if !x.mayIssue T then ({ x with state := .idle }, false, .stay)
      else (x, false, if held then .stay else .issue)
    else if done then
      let e := x.windowEnds T
      if e.1.state = .idle then (e.1, e.2, .stay)
      else if e.1.mayIssue T then ({ e.1 with state := .run }, e.2, if held then .stay else .issue)
      else ({ e.1 with state := .idle }, e.2, .stay)
    else
      let w := x.windowSlips
      (w.1, false, w.2)

/-- The record that the bed issues next opens its window at the chime at `T`. -/
def Bed.opens (x : Bed) (T : Nat) : Bed :=
  { x with state := .run, rep := x.rep + 1, openT := some T, lastRetire := none, sample := none }

/-- Bed `b` takes its move at a chime at `T`; with it, whether it issues. A replant that is ARMED for the bed turns
any move but a halt into REPLANT, in which nothing issues; in CONFIG an IDLE bed keeps its RUN for the new program (03 R84,
R477). -/
def Dev.bedChime (d : Dev) (held : Bool) (b T : Nat) : Dev × Bool :=
  match d.bed b with
  | none => (d, false)
  | some x =>
    let done := d.windowDone b x T
    let m := x.atChime done (held || d.replanting 4 b) T
    match m.2.2 with
    | .halt c => ((d.setBed b (some m.1)).haltBed b c, false)
    | mv =>
      if d.replanting 2 b then
        let y := if (x.state = .run || x.state = .slipping) && x.openT.isSome then (if done then (x.windowEnds T).1 else x) else x
        let d1 := (d.setBed b (some { y with state := .replant })).setFld
          .trellis Reg.TRELLIS_STS.LSTATE 3
        (if done && m.2.1 then d1.raiseBed b else d1, false)
      else
        let d1 := d.setBed b (some (if mv = .issue then m.1.opens T else m.1))
        (if m.2.1 then d1.raiseBed b else d1, mv == .issue)

/-- Every bed takes its move, in ascending number; the beds that issue. -/
def Dev.bedsChime (d : Dev) (held : Bool) (T : Nat) : List Nat → Dev × List Nat
  | [] => (d, [])
  | b :: bs =>
    let r := d.bedChime held b T
    let rest := Dev.bedsChime r.1 held T bs
    (rest.1, if r.2 then b :: rest.2 else rest.2)

/-- The shed sequencer of a die takes the window of a bed to issue, in record order (R43). -/
def Dev.issueOn (d : Dev) (T die b : Nat) : Dev :=
  match d.bed b with
  | none => d
  | some x => match x.cfg.recordOn die x.pc with
    | some r => { d with toIssue := d.toIssue ++ r.items.map (fun c => ⟨b, die, T, c⟩) }
    | none => d

/-- Every die takes the windows that open, its beds in ascending slot order (R43). -/
def Dev.issueAll (d : Dev) (T : Nat) (bs : List Nat) : Dev :=
  (List.range 8).foldl (fun d die =>
    (List.range 32).foldl (fun d s => match d.bedAtSlot die s with
      | some b => if bs.contains b then d.issueOn T die b else d
      | none => d) d) d

/-- The replanted bed's first issue sets TRELLIS_REPLANT_LAT: ns from ARMED to this chime (03 R85). -/
def Dev.noteReplantIssue (d : Dev) (T : Nat) (bs : List Nat) : Dev :=
  match d.loader.awaiting with
  | some (b, a) => if bs.contains b then
      { d.setFld .trellis Reg.TRELLIS_REPLANT_LAT.LAT_NS (min ((T - a) / 64) 0xFFFFFFFF) with
        loader := { d.loader with awaiting := none } }
    else d
  | none => d

/-! ### Firing a chime -/

/-- Chime `n` is a held chime at the hold duty in force (20 R452). -/
def Dev.heldChime (d : Dev) (n : DWord) : Bool :=
  let u := d.fld .power Reg.POWER_STS.DUTY
  decide ((n.toNat * u) % 16 < u)

/-- A held chime is counted (20 R452). -/
def Dev.noteHeld (d : Dev) (held : Bool) : Dev := if held then d.countSat .power Reg.POWER_HELD_CNT.COUNT 1 else d

/-- The chime number that the own count gives the next chime (R33). -/
def ChimeSt.nextNumber (c : ChimeSt) : DWord := if c.started then c.count + 1#64 else c.count

/-- A chime fires at `T`: its number, from a marker or the own count (R33, R39); FREERUN and MMISS (R40); CHIME_OUT
(R41); and the move of every bed, with the issue of the windows that open (R50). Fire times that have not come stand. -/
def Dev.fireChime (d : Dev) (T : Nat) (num : Option DWord) (own : Bool) : Dev :=
  let c := d.chime
  let n := num.getD c.nextNumber
  let d1 := if n ≠ c.nextNumber then d.setFld .chime Reg.CHIME_STS.CNUM_SKEW 1 else d
  let d2 := if own then (if d1.isSet .chime Reg.CHIME_STS.FREERUN then d1.setFld .chime Reg.CHIME_STS.MMISS 1 else d1)
    else d1.setFld .chime Reg.CHIME_STS.FREERUN 0
  let d3 := (d2.noteStalls).noteQueueWaits
  let d4 := { d3 with
    chime := { c with count := n, started := true, prev := T, fromEnable := false, openPeriod := d3.period,
                      due := c.due.filter (fun f => decide (T < f.1)), emitted := c.emitted - 1, ceLogged := [] }
    chimeOut := if d3.isSet .chime Reg.CHIME_CTL.CHOUT_EN then true else d3.chimeOut }
  let d5 := (d4.unitsAtChime).noteHeld (d.heldChime n)
  let r := d5.bedsChime (d.heldChime n) T d5.bedIds
  (((r.1.issueAll T r.2).noteReplantIssue T r.2).endStep d.wardenLodge 10 0).issueDue

/-- The instant at which the chime timebase has counted `n` from `p`. While it runs from INT_OSC that instant is known only
to ±8%: it is the instant `t` of the event, as far as the oscillator allows (R32; DESIGN CHOICE, entry 59). -/
def Dev.counted (d : Dev) (p n t : Nat) : Nat :=
  if d.fld (.clock d.wardenLodge) Reg.CLK_STS.SRC_ACT = 0 then max (p + n * 25 / 27) (min t (p + n * 25 / 23)) else p + n

/-- The end of the interval in which a marker or an edge fires the next chime: PERIOD_NS + TOL_NS after the previous one, or a
later change of SRC (R40, R469, R474; DESIGN CHOICE, entry 61). -/
def Dev.missAt (d : Dev) (t : Nat) : Nat := max (d.counted d.chime.prev (d.chime.openPeriod + d.tolerance) t) d.chime.srcFrom

/-- The fire time, set by a marker or an edge, at which the next chime fires: one that comes before the chime is missed.
A later one stands while the device fires from its own count, and fires a chime when it comes (R40; DESIGN CHOICE, entry
60). -/
def Dev.markedDue (d : Dev) (t : Nat) : Option (Nat × Option DWord) :=
  d.chime.due.head?.filter (fun f => decide (f.1 ≤ d.missAt t))

/-- The instant at which, by an event at `t`, the next chime is known to fire: a marker's or an edge's fire time, or a
period after the previous chime in LOCAL mode and while free-running (R31, R37, R40, R474). Where a change
of SRC comes after that instant the chime fires at the change (DESIGN CHOICE, entry 61). -/
def Dev.nextDue (d : Dev) (t : Nat) : Option Nat :=
  if !d.chimeOn then none
  else match d.markedDue t with
    | some f => some f.1
    | none =>
      if d.fld .chime Reg.CHIME_CTL.SRC = 0 || d.isSet .chime Reg.CHIME_STS.FREERUN then
        some (max (d.counted d.chime.prev d.chime.openPeriod t) d.chime.srcFrom)
      else none

/-- The chime that is due at `T` fires. -/
def Dev.fireDue (d : Dev) (t T : Nat) : Dev :=
  match d.markedDue t with
  | some f => d.fireChime T f.2 false
  | none => d.fireChime T none true

/-- CHIME: the chime that is due by the instant of the event fires at its due instant (R50). -/
def execChime (t : Nat) (s : State) : Host.Outcome State Fault Refusal :=
  s.run t .chime (fun d => match d.nextDue t with
    | some T => if T ≤ t then d.fireDue t T else d
    | none => d)

/-- The done network samples a bed whose window is open, for a chime due at `T` (R35). -/
def Dev.sampleBed (d : Dev) (T b : Nat) : Dev :=
  match d.bed b with
  | none => d
  | some x => if x.openT.isSome then d.setBed b (some { x with sample := some (T, d.retiredBy b x T) }) else d

/-- CLOSING_POINT: 64 ns before the next chime the done network samples every open window (R35). What it samples stands
for the chime that is due then, and for no other that ends the window instead (R40). -/
def execClosingPoint (t : Nat) (s : State) : Host.Outcome State Fault Refusal :=
  s.run t .chime (fun d => match d.nextDue (t + 64 * 64) with
    | some T => if T ≤ t + 64 * 64 then d.bedIds.foldl (fun d b => d.sampleBed T b) d else d
    | none => d)

/-! ### Markers and the pin -/

/-- The ports on which markers are emitted or re-emitted. -/
def Dev.markerPorts (d : Dev) : List Nat :=
  (List.range 8).filter (fun p => (d.fld .chime Reg.CHIME_CTL.MKR_EMIT).testBit p)

/-- The instant of the next chime whose marker has not been emitted. -/
def Dev.nextUnemitted (d : Dev) : Nat := d.chime.prev + d.chime.openPeriod + d.chime.emitted * d.period

/-- MARKER_EMIT: in LOCAL mode the marker of the next chime that has none leaves on every port of MKR_EMIT, LEAD_NS before
that chime, with that lead; where less time remains at the enabling write it leaves then, with the time that remains (R36,
R474; a change of SRC or LEAD_NS counts as that write: DESIGN CHOICE, entry 62). It waits at the port for its quarter
boundary (14 R337, R352). -/
def execMarkerEmit (t : Nat) (s : State) : Host.Outcome State Fault Refusal :=
  s.run t .chime (fun d =>
    let T := d.nextUnemitted
    let e := max d.chime.emitFrom (T - d.fld .chime Reg.CHIME_LEAD.LEAD_NS * 64)
    if d.chimeOn && d.fld .chime Reg.CHIME_CTL.SRC == 0 && decide (e ≤ t) then
      { (d.markerPorts.foldl (fun d p => d.queueShort p (.marker (d.chime.nextNumber + BitVec.ofNat 64 d.chime.emitted)
          (.fixed ((T - e) / 4)) d.devId 0)) d) with
        chime := { d.chime with emitted := d.chime.emitted + 1 } }
    else d)

/-- A chime at `F` would come less than PERIOD_NS − TOL_NS after the previous one, be that one that has fired or one whose
fire time stands; no test for the first chime after ENABLE (R38, R469, R474). The test holds while FREERUN is 1 too: a
marker that fails it is not the valid one of R40 (DESIGN CHOICE, entry 63). -/
def Dev.tooEarly (d : Dev) (F : Nat) : Bool :=
  match (d.chime.due.filter (fun f => decide (f.1 ≤ F))).getLast? with
  | some f => decide (F + d.tolerance < f.1 + d.period)
  | none => !d.chime.fromEnable && decide (F + d.tolerance < d.chime.prev + d.chime.openPeriod)

/-- A fire time is set (R37, R469). -/
def Dev.setDue (d : Dev) (F : Nat) (num : Option DWord) : Dev :=
  { d with chime := { d.chime with due := insertBy (F, num) d.chime.due } }

/-- A marker arrives at a port at `t`: on MKR_PORT in MARKER mode it sets the fire time of its chime, or fires it at once
when its lead is zero or less; an early one is discarded, and sets MEARLY alone whatever its lead (R37, R38; DESIGN CHOICE,
entry 64). It is re-emitted with HOPS one higher (R37, 14 R352). -/
def Dev.markerArrives (d : Dev) (t port : Nat) (num : DWord) (lead : Int) (srcDev hops : Nat) : Dev :=
  if d.chimeOn && d.fld .chime Reg.CHIME_CTL.SRC == 1 && d.fld .chime Reg.CHIME_CTL.MKR_PORT == port then
    let F := (Int.ofNat t + lead * 4).toNat
    if d.tooEarly (max F t) then d.setFld .chime Reg.CHIME_STS.MEARLY 1
    else
      let d1 := d.markerPorts.foldl (fun d p =>
        d.queueShort p (.marker num (.untilT (Int.ofNat t + lead * 4)) srcDev ((hops + 1) % 256))) d
      if lead ≤ 0 then (d1.setFld .chime Reg.CHIME_STS.MLATE 1).fireChime t (some num) false
      else d1.setDue F (some num)
  else d

/-- MARKER_RECEIVE: the short flit of a marker arrives at a port that is UP; a bad one is discarded and counted, one with
a nonzero must-be-0 field is malformed (14 R335, R342, R352, R357). -/
def execMarkerReceive (t port : Nat) (bytes : List Byte) (s : State) : Host.Outcome State Fault Refusal :=
  s.run t .chime (fun d =>
    if !d.portUp port then d
    else match d.recvShort port 0 bytes with
      | (d1, some q) =>
        let w1 := numAt q 8 8
        if bitsOf w1 63 56 ≠ 0 || (q.drop 16).any (fun b => b != 0#8) then d1.violation port 1 0
        else d1.markerArrives t port (BitVec.ofNat 64 (numAt q 0 8)) (BitVec.ofNat 32 w1).toInt (bitsOf w1 47 32)
          (bitsOf w1 55 48)
      | (d1, none) => d1)

/-- When nothing has fired a chime by PERIOD_NS + TOL_NS after the previous one in the given mode, the device fires it
then from its own count and free-runs (R40, R469). -/
def Dev.missChime (d : Dev) (t mode : Nat) : Dev :=
  if d.chimeOn && d.fld .chime Reg.CHIME_CTL.SRC == mode && !d.isSet .chime Reg.CHIME_STS.FREERUN
      && (d.markedDue t).isNone && decide (d.missAt t ≤ t) then
    ((d.setFld .chime Reg.CHIME_STS.MMISS 1).setFld .chime Reg.CHIME_STS.FREERUN 1).fireChime (d.missAt t) none true
  else d

/-- MARKER_MISS (R40). -/
def execMarkerMiss (t : Nat) (s : State) : Host.Outcome State Fault Refusal :=
  s.run t .chime (fun d => d.missChime t 1)

/-- CHIME_IN_EDGE: in PIN mode a rising edge fires a chime PIN_DELAY ns later, or is ignored as early with MEARLY
(R469). -/
def execChimeInEdge (t : Nat) (s : State) : Host.Outcome State Fault Refusal :=
  s.run t .chime (fun d =>
    if d.chimeOn && d.fld .chime Reg.CHIME_CTL.SRC == 2 then
      let F := t + d.fld .chime Reg.CHIME_PIN.PIN_DELAY * 64
      if d.tooEarly F then d.setFld .chime Reg.CHIME_STS.MEARLY 1
      else d.setDue F none
    else d)

/-- CHIME_IN_MISS (R469). -/
def execChimeInMiss (t : Nat) (s : State) : Host.Outcome State Fault Refusal :=
  s.run t .chime (fun d => d.missChime t 2)

/-- CHIME_OUT_FALL: 100 ns after a chime CHIME_OUT is low again (R41). -/
def execChimeOutFall (t : Nat) (s : State) : Host.Outcome State Fault Refusal :=
  s.run t .chime (fun d => if d.chime.prev + 100 * 64 ≤ t then { d with chimeOut := false } else d)

end Machine
end Sys2Proof
end

