-- ==== Sys2Proof/Machine/Clock.lean ====
section
/-! DEFINITION. Reference sources, the sundial monitor, hold-over and frost, divider ramps and clock enables (17 R394 to
R413). -/
namespace Sys2Proof
namespace Machine

/-! ### Both lodges -/

/-- A field of CLOCK that both lodges show takes a value in both. -/
def Dev.setClock (d : Dev) (f : Fld) (v : Nat) : Dev := (d.setFld (.clock 0) f v).setFld (.clock 1) f v

/-- SRC_ACT of a lodge. -/
def Dev.srcAct (d : Dev) (l : Nat) : Nat := d.fld (.clock l) Reg.CLK_STS.SRC_ACT

/-- Every PLL that follows the reference is locked, or none is, as one lodge reports it (R400, Table 17.7). -/
def Dev.setLocks (d : Dev) (l v : Nat) : Dev :=
  (((d.setFld (.clock l) Reg.CLK_PLL_STS.KEEPER_LOCK v).setFld (.clock l) Reg.CLK_PLL_STS.TB_LOCK v).setFld
    (.clock l) Reg.CLK_PLL_STS.HBM_LOCK v).setFld (.clock l) Reg.CLK_PLL_STS.DIE_LOCK (v * 0xFF)

/-- PHASE of a switch (R398). -/
def Dev.phase (d : Dev) : Nat := d.fld (.clock d.wardenLodge) Reg.CLK_STS.PHASE

/-- The step that the ramped domains of lodge `l` head for: the largest of the power ward's, the source floor and 48 in
hold-over and in RAMP_DOWN and LOCK (R402). -/
def Dev.targetStep (d : Dev) (l : Nat) : Nat :=
  max (d.fld .power Reg.POWER_STS.STEP) (max (if d.srcAct l = 0 then 2 else 0)
    (if d.hold.isSome || d.phase == 1 || d.phase == 2 then 48 else 0))

/-! ### Ramps (R401) -/

/-- One step from `s` toward `t`. -/
def stepToward (s t : Nat) : Nat := if s < t then s + 1 else if t < s then s - 1 else s

/-- Two microseconds have passed since the last step of the domains of lodge `l`, counted from its reference, which on INT_OSC is at
most 8% fast (R394, R401). -/
def Dev.rampDue (d : Dev) (l : Nat) : Bool :=
  match (d.clk l).rampT with
  | none => true
  | some p => if d.srcAct l = 0 then decide (p * 27 + 128000 * 25 ≤ d.now * 27) else decide (p + 128000 ≤ d.now)

/-- RAMP_STEP: the keeper domain of lodge `l` steps once toward its target, and with the warden's the domains of the dies
(R401, R402). -/
def execRampStep (t l : Nat) (s : State) : Host.Outcome State Fault Refusal :=
  s.run t (.clock (l % 2)) (fun d =>
    let l := l % 2
    if !d.rampDue l then d
    else
      let d1 := (d.modClk l (fun c => { c with rampT := some d.now })).setFld (.clock l) Reg.CLK_STEP.KEEPER
        (stepToward (d.fld (.clock l) Reg.CLK_STEP.KEEPER) (d.targetStep l))
      if l = d.wardenLodge then
        d1.setClock Reg.CLK_STEP.CORE (stepToward (d.fld (.clock l) Reg.CLK_STEP.CORE) (d.targetStep l))
      else d1)

/-- The ramped domains of the device stand at step `k`. -/
def Dev.allAt (d : Dev) (k : Nat) : Bool :=
  let l := d.wardenLodge
  d.fld (.clock l) Reg.CLK_STEP.CORE == k && d.fld (.clock l) Reg.CLK_STEP.KEEPER == k

/-! ### The sundial (R395 to R397, R403) -/

/-- Twice the nominal count of a source (R396). -/
def nominal2 (src : Nat) : Nat := if src = 1 then 3125 else 2500

/-- Eight counts are accepted: each within ±10% of nominal and ±0.5% of their mean (R397). -/
def countsAccepted (src : Nat) (cs : List Nat) : Bool :=
  let sum := cs.foldl (fun a c => a + c) 0
  let near (a b n : Nat) : Bool := decide (((Int.ofNat a - Int.ofNat b).natAbs) * n ≤ b)
  cs.length == 8 && cs.all (fun c => near (2 * c) (nominal2 src) 10 && near (8 * c) sum 200)

/-- EXPECT of lodge `l` takes the value that `fine` holds in 1/16,384 counts. -/
def Dev.setExpect (d : Dev) (l fine : Nat) : Dev :=
  (d.setFld (.clock l) Reg.SUNDIAL_CAL.EXPECT (fine / 1024)).modClk l (fun c => { c with fine := fine })

/-- A window of a source under test: accepted on the eighth good window in succession, or not within 16 (R395, R397). -/
def Dev.testWindow (d : Dev) (l count : Nat) : Dev :=
  match (d.clk l).test with
  | none => d
  | some (src, cs, n) =>
    let cs := (count :: cs).take 8
    if countsAccepted src cs then
      let sum := cs.foldl (fun a c => a + c) 0
      ((d.modClk l (fun c => { c with test := none, outcome := some true })).setExpect l (sum * 2048)).setFld
        (.clock l) Reg.SUNDIAL_STS.CAL 1
    else if 16 ≤ n + 1 then d.modClk l (fun c => { c with test := none, outcome := some false })
    else d.modClk l (fun c => { c with test := some (src, cs, n + 1) })

/-- At start-up the outcome of the test decides the reference: accepted, it becomes active; otherwise INT_OSC stays and
NOREF is set. Step 2 ends (R395, 19 R428). -/
def Dev.endReferenceTest (d : Dev) (l : Nat) : Dev :=
  if (d.lodge l).step ≠ 2 then d
  else match (d.clk l).outcome with
    | none => d
    | some true => ((d.setFld (.clock l) Reg.CLK_STS.SRC_ACT 1).modClk l (fun c => { c with outcome := none })).endStep l 2 3
    | some false => ((d.setFld (.clock l) Reg.CLK_STS.NOREF 1).modClk l (fun c => { c with outcome := none })).endStep l 2 3

/-- OSC_WAIT_END: 0.5 ms · 2^OSC_WAIT after PWRGD, counted on INT_OSC, at most 8% fast, the test of REFCLK_LOCAL begins
(R395). -/
def execOscWaitEnd (t l : Nat) (s : State) : Host.Outcome State Fault Refusal :=
  s.run t (.clock (l % 2)) (fun d =>
    let l := l % 2
    match (d.clk l).oscFrom with
    | some p =>
      if p * 27 + 32000000 * 2 ^ (d.lodge l).straps.osc * 25 ≤ d.now * 27 then
        d.modClk l (fun c => { c with oscFrom := none, test := some (1, [], 0), outcome := none })
      else d
    | none => d)

/-! ### Hold-over and frost (R404 to R406) -/

/-- A hold-over begins in both lodges: the PLLs coast (R404). -/
def Dev.beginHold (d : Dev) : Dev :=
  let d1 := { ((d.setClock Reg.SUNDIAL_STS.HOLD 1).setClock Reg.SUNDIAL_STS.HOLD_CNT 0).setLocks 0 0 with
    hold := some ⟨0, 0, false, false⟩ }
  let d2 := d1.setLocks 1 0
  d2.logPush (d2.entry (.clock d.wardenLodge) Ev.clock 1)

/-- The frost event: INT_OSC, FROST, FROST_N, the keepers' interrupt, the gatehouses', vector 0 and the log; no mask applies
(R405, R406). -/
def Dev.raiseFrost (d : Dev) : Dev :=
  let d1 := ((d.setClock Reg.SUNDIAL_STS.FROST 1).setClock Reg.CLK_STS.SRC_ACT 0).setClock Reg.SUNDIAL_STS.CAL 0
  let d2 := (d1.countSat (.clock 0) Reg.SUNDIAL_FROST_CNT.COUNT 1).countSat (.clock 1) Reg.SUNDIAL_FROST_CNT.COUNT 1
  let d3 := { d2 with
    pwr := { d2.pwr with frost := true }
    hold := d2.hold.map (fun (h : HoldSt) => { h with frost := true }) }
  let d4 := (d3.emit [.frostNmi 0, .frostNmi 1, .gatehouseIrq 0, .gatehouseIrq 1]).raiseBoth 0
  d4.logPush (d4.entry (.clock d.wardenLodge) Ev.clock 2)

/-- HOLD_WINDOWS as it acts (R405). -/
def Dev.holdWindows (d : Dev) : Nat := max 1 (d.fld (.clock d.wardenLodge) Reg.CLK_CTL.HOLD_WINDOWS)

/-- The hold-over after one more window, passed or failed: the window that completes HOLD_WINDOWS raises the frost, and is no return
(R405, R407). -/
def Dev.holdWindow (d : Dev) (h : HoldSt) (ok : Bool) : Dev :=
  let n := h.windows + 1
  let p := if ok then h.passes + 1 else 0
  let d1 := d.setClock Reg.SUNDIAL_STS.HOLD_CNT (min n 15)
  if h.returns || h.frost then { d1 with hold := some { h with windows := n, passes := p } }
  else if d.holdWindows ≤ n then { d1 with hold := some { h with windows := n, passes := p } }.raiseFrost
  else { d1 with hold := some { h with windows := n, passes := p, returns := decide (2 ≤ p) } }

/-- A window of the active source is judged by the sundial of lodge `l`; the warden's decides on hold-over (R403 to R405,
R397). -/
def Dev.judgeWindow (d : Dev) (l count : Nat) : Dev :=
  let e := (d.clk l).fine
  let diff := (Int.ofNat (count * 16384) - Int.ofNat e)
  let ok := decide (diff.natAbs * 50 ≤ e)
  let d1 := if ok then d.setExpect l (Int.ofNat e + diff / 1024).toNat
    else (d.setFld (.clock l) Reg.SUNDIAL_STS.WFAIL 1).countSat (.clock l) Reg.SUNDIAL_FAIL_CNT.COUNT 1
  if l ≠ d.wardenLodge then d1
  else match d.hold with
    | some h => d1.holdWindow h ok
    | none => if ok then d1 else d1.beginHold

/-- SUNDIAL_WINDOW: a window ends with a count: of a source under test; of the active external source, judged unless a
switch is in progress (R396, R397, R403, R407). -/
def execSundialWindow (t l count : Nat) (s : State) : Host.Outcome State Fault Refusal :=
  s.run t (.clock (l % 2)) (fun d =>
    let l := l % 2
    let d1 := d.setFld (.clock l) Reg.SUNDIAL_LAST.COUNT (min count 4095)
    if (d.clk l).test.isSome then (d1.testWindow l count).endReferenceTest l
    else if d.switch.isSome then d1
    else if d.srcAct l ≠ 0 ∧ d.isSet (.clock l) Reg.SUNDIAL_STS.CAL = true then d1.judgeWindow l count
    else match d.hold with
      | some h => if l = d.wardenLodge then d1.holdWindow h false else d1
      | none => d1)

/-- PLL_LOCK_DONE: the PLLs of a lodge lock; with the warden's a hold-over that returns ends, and one that has frosted ends
once the domains stand at step 48 (R405). -/
def execPllLockDone (t l : Nat) (s : State) : Host.Outcome State Fault Refusal :=
  s.run t (.clock (l % 2)) (fun d =>
    let l := l % 2
    match d.hold with
    | some h =>
      if l = d.wardenLodge ∧ (h.returns = true ∨ (h.frost = true ∧ d.allAt 48 = true)) then
        { ((d.setLocks 0 1).setLocks 1 1).setClock Reg.SUNDIAL_STS.HOLD 0 with hold := none }
      else d
    | none => if d.phase = 2 then d else d.setLocks l 1)

/-- The clearing of FROST in lodge `l`'s SUNDIAL_STS by a W1C write: FROST_N is released when neither lodge shows FROST
(R406). -/
def Dev.sundialStsWritten (d : Dev) (l : Nat) (new : Word) : Dev :=
  let d1 := d.setWord (.clock l) 0x8 new
  if d1.isSet (.clock 0) Reg.SUNDIAL_STS.FROST || d1.isSet (.clock 1) Reg.SUNDIAL_STS.FROST then d1
  else { d1 with pwr := { d1.pwr with frost := false } }

/-- FROST_CLEAR: the W1C write that clears FROST in the source's lodge (R406). -/
def execFrostClear (t : Nat) (src : Source) (s : State) : Host.Outcome State Fault Refusal :=
  s.access t src (.clock src.lodge) (fun d => d.rowWrite src (.clock src.lodge) 0x8 (fun d =>
    d.sundialStsWritten src.lodge (writeMerge (.clock src.lodge) 0x8 .clr 0x80#32 (d.word (.clock src.lodge) 0x8))))

/-- INT_OSC_LOSS: no edge of INT_OSC for 1 µs: an emergency stop with cause INT_OSC (R408). -/
def execIntOscLoss (t l : Nat) (s : State) : Host.Outcome State Fault Refusal :=
  s.go t (fun d => if l < 2 then d.emergencyStop 5 else d)

/-! ### Switching the source (R398) -/

/-- The source can be had: a recovered one while its port is UP, the local one after OSC_WAIT (R394, R395, R398). -/
def Dev.sourceUsable (d : Dev) (src port : Nat) : Bool :=
  match src with
  | 0 => true
  | 1 => (d.clk d.wardenLodge).oscFrom.isNone
  | 2 => d.fld (.obotil port) Reg.OB_STS.STATE == 2
  | _ => false

/-- SELECT of the source in SRC and PORT, by lodge `l` (R398). -/
def Dev.selectSource (d : Dev) (l : Nat) : Dev :=
  let src := d.fld (.clock l) Reg.CLK_CTL.SRC
  let port := d.fld (.clock l) Reg.CLK_CTL.PORT
  let active := src == d.srcAct l && (src != 2 || port == d.fld (.clock l) Reg.CLK_STS.PORT_ACT)
  if d.switch.isSome || d.hold.isSome || active || !d.sourceUsable src port then
    d.setFld (.clock l) Reg.CLK_STS.CMD_IGN 1
  else
    { (d.setClock Reg.CLK_STS.SWITCHING 1).setClock Reg.CLK_STS.PHASE 1 with switch := some ⟨src, port, d.now, false⟩ }

/-- CLK_CTL of lodge `l` takes the merged word `new`, in both lodges' copies, and starts the command `cmd`; a write of SRC = 3
is ignored (R394, R399, Table 17.4). -/
def Dev.clkCtlWritten (d : Dev) (l : Nat) (new cmd : Word) : Dev :=
  if bitsOf new.toNat 5 4 = 3 then d.setFld (.clock l) Reg.CLK_STS.CMD_IGN 1
  else
    let put (d : Dev) (k : Nat) : Dev :=
      ((d.setFld (.clock k) Reg.CLK_CTL.SRC (bitsOf new.toNat 5 4)).setFld (.clock k) Reg.CLK_CTL.PORT
        (bitsOf new.toNat 10 8)).setFld (.clock k) Reg.CLK_CTL.HOLD_WINDOWS (bitsOf new.toNat 23 16)
    let d1 := (put d (otherLodge l)).setWord (.clock l) 0x0 new
    match bitsOf cmd.toNat 3 0 with
    | 0 => d1
    | 1 => d1.selectSource l
    | _ => d1.setFld (.clock l) Reg.CLK_STS.CMD_IGN 1

/-- SELECT: the base write of SRC, PORT and CMD = SELECT (R398). -/
def execClkSelect (t : Nat) (src : Source) (sel : BitVec 2) (port : BitVec 3) (s : State) :
    Host.Outcome State Fault Refusal :=
  s.access t src (.clock src.lodge) (fun d => d.rowWrite src (.clock src.lodge) 0x0 (fun d =>
    d.clkCtlWritten src.lodge (BitVec.ofNat 32 (putBits (putBits (d.word (.clock src.lodge) 0x0).toNat 5 4 sel.toNat)
      10 8 port.toNat)) 1#32))

/-- The phase of a switch that has ended gives way to the next (R398). -/
def Dev.endPhase (d : Dev) (w : SwitchSt) : Dev :=
  let l := d.wardenLodge
  let test (d : Dev) (k : Nat) : Dev := d.modClk k (fun c => { c with
    test := if w.src = 0 then none else some (w.src, [], 0)
    outcome := if w.src = 0 then some true else none })
  match d.phase with
  | 1 => if d.allAt 48 then ((d.setClock Reg.CLK_STS.PHASE 2).setLocks 0 0).setLocks 1 0 else d
  | 2 =>
    let d1 := (d.setLocks 0 1).setLocks 1 1
    if w.reverts then d1.setClock Reg.CLK_STS.PHASE 4
    else test (test (d1.setClock Reg.CLK_STS.PHASE 3) 0) 1
  | 3 => match (d.clk l).outcome with
    | some true =>
      let d1 := ((d.setClock Reg.CLK_STS.SRC_ACT w.src).setClock Reg.CLK_STS.PORT_ACT
        (if w.src = 2 then w.port else d.fld (.clock l) Reg.CLK_STS.PORT_ACT)).setClock Reg.CLK_STS.PHASE 4
      if w.src = 0 then d1.setClock Reg.SUNDIAL_STS.CAL 0 else d1
    | some false =>
      { (((d.setClock Reg.CLK_STS.PHASE 2).setClock Reg.CLK_STS.SEL_FAIL 1).setLocks 0 0).setLocks 1 0 with
        switch := some { w with reverts := true } }
    | none => d
  | _ => if d.allAt (d.targetStep l) then
      { ((d.setClock Reg.CLK_STS.PHASE 0).setClock Reg.CLK_STS.SWITCHING 0).setClock Reg.CLK_SWITCH_LAT.LAT_NS
          (min ((d.now - w.startT) / 64) 0xFFFFFFFF) with switch := none }
    else d

/-- SWITCH_PHASE_END: the warden ends the phase of the switch in progress, when its condition holds (R398). -/
def execSwitchPhaseEnd (t l : Nat) (s : State) : Host.Outcome State Fault Refusal :=
  s.run t (.clock (l % 2)) (fun d => match d.switch with
    | some w => if l % 2 = d.wardenLodge then d.endPhase w else d
    | none => d)

/-! ### Clock enables (R409 to R412) -/

/-- A bed of the image needs the block: it is one of its plots, engines, or the shed sequencer of one of its dies. -/
def Dev.bedsOfClk (d : Dev) (b : Blk) : List Nat :=
  d.bedIds.filter (fun i => match d.bed i with
    | none => false
    | some x => match b with
      | .plot k p => match d.logicalOf k p with | some L => x.cfg.plots.contains L | none => false
      | .rill k e => x.cfg.rillMask.testBit (k * 16 + e)
      | .sieve k v => x.cfg.sieveMask.testBit (k * 4 + v)
      | .mower k => x.cfg.mowerMask.testBit k
      | .shed k => (diesOf x.cfg.plots).contains k
      | .gh k => x.cfg.gh.any (fun g => g.die == k)
      | _ => false)

/-- Every bed of the list is IDLE or HALTED. -/
def Dev.bedsAtRest (d : Dev) (bs : List Nat) : Bool :=
  bs.all (fun i => match d.bed i with | some x => x.state == .idle || x.state == .halted | none => true)

/-- Software may set, or clear, the enable of a block (R411, R412). -/
def Dev.mayEnable (d : Dev) (b : Blk) (v : Bool) : Bool :=
  match b with
  | .plot _ _ | .rill _ _ | .sieve _ _ | .mower _ | .shed _ =>
    if v then !(d.bedsOfClk b).isEmpty else d.bedsAtRest (d.bedsOfClk b)
  | .gh _ => v || (d.bedsOfClk b).isEmpty
  | .dieCtl _ | .lattice _ | .hbmCtl _ _ => v
  | _ => true

/-- The block that bit `i` of the CLKEN register at offset `o` enables (Table 17.7). -/
def clkenBlk (o i : Nat) : Option Blk :=
  if o = 0x100 then
    match i with
    | 1 => some .chime | 2 => some .trellis | 4 => some .queue | 5 => some .trug
    | _ => if 8 ≤ i ∧ i < 16 then some (.obotil (i - 8)) else none
  else
    let k := (o - 0x200) / 0x20
    match (o - 0x200) % 0x20 with
    | 0 => match i with
      | 0 => some (.dieCtl k) | 1 => some (.lattice k) | 2 => some (.hbmCtl k 0) | 3 => some (.hbmCtl k 1)
      | 4 => some (.shed k) | 5 => some (.mower k) | 6 => some (.gh k)
      | _ => if 8 ≤ i ∧ i < 24 then some (.rill k (i - 8)) else if 24 ≤ i ∧ i < 28 then some (.sieve k (i - 24)) else none
    | 4 => some (.plot k i)
    | 8 => some (.plot k (32 + i))
    | 12 => if i < 4 then some (.plot k (64 + i)) else none
    | _ => none

/-- Bit `i` of the word that software leaves in a CLKEN register: the bit written, or the old one where the write of it is
ignored. -/
def Dev.clkenBit (d : Dev) (o : Nat) (old new : Word) (i : Nat) : Bool :=
  match clkenBlk o i with
  | some b => if new.getLsbD i != old.getLsbD i && !d.mayEnable b (new.getLsbD i) then old.getLsbD i else new.getLsbD i
  | none => new.getLsbD i

/-- The CLKEN register at offset `o` is written through lodge `l`: ignored bits set CLKEN_IGN; the rest is copied to both
lodges and takes effect later (R399, R410 to R412). -/
def Dev.clkenWritten (d : Dev) (l o : Nat) (new : Word) : Dev :=
  let old := d.word (.clock l) o
  let bits := (List.range 32).map (d.clkenBit o old new)
  let w := (List.range 32).foldl (fun n i => if bits.getD i false then n + 2 ^ i else n) 0
  let d1 := if BitVec.ofNat 32 w = new then d else d.setFld (.clock l) Reg.CLK_STS.CLKEN_IGN 1
  d1.setClken o w

/-- CLKEN_WRITE: the base write of a CLKEN register of the source's lodge (R411). -/
def execClkenWrite (t : Nat) (src : Source) (off : Nat) (data : Word) (s : State) :
    Host.Outcome State Fault Refusal :=
  s.access t src (.clock src.lodge) (fun d =>
    if 0x100 ≤ off ∧ off < 0x300 ∧ off % 4 = 0 then
      d.rowWrite src (.clock src.lodge) off (fun d => d.clkenWritten src.lodge off
        (writeMerge (.clock src.lodge) off .base data (d.word (.clock src.lodge) off)))
    else d)

/-- The CLKEN registers (Table 17.7). -/
def clkenOffsets : List Nat :=
  0x100 :: (List.range 8).flatMap (fun k => (List.range 4).map (fun i => 0x200 + k * 0x20 + 4 * i))

/-- CLKEN_APPLY: the enables written take effect (R410). -/
def execClkenApply (t : Nat) (s : State) : Host.Outcome State Fault Refusal :=
  s.go t (fun d =>
    { d.setClock Reg.CLK_STS.CLKEN_PEND 0 with
      clkOn := clkenOffsets.foldl (fun c o => Tbl.set (fun _ => 0#32) c o (d.word (.clock d.wardenLodge) o)) d.clkOn })

end Machine
end Sys2Proof
end

