-- ==== Sys2Proof/Machine/RegRead.lean ====
section
/-! DEFINITION. What a register reads (04 R92, R93, R103): the stored word, with the fields whose values have another home
computed from it; and the two reads with a side effect. -/
namespace Sys2Proof
namespace Machine

/-- A word with a field replaced. -/
def withBits (w : Word) (hi lo v : Nat) : Word := BitVec.ofNat 32 (putBits w.toNat hi lo v)

/-! ### The views -/

/-- The bed of a plot with its record. -/
def Dev.bedRecord (d : Dev) (k p : Nat) : Option (Nat × Bed) :=
  (d.bedOfPlot k p).bind (fun b => (d.bed b).map (fun x => (b, x)))

/-- PLOT_STS: what BIST, the image and the passes make of the plot (07 Table 7.10). -/
def Dev.plotSts (d : Dev) (k p : Nat) (w : Word) : Word :=
  let off := match d.bedRecord k p with | some (_, x) => x.cfg.unchecked | none => false
  withBits (withBits (withBits (withBits w 5 5 (bit (d.plotDegraded k p))) 4 4 (bit (d.plotFailed k p))) 3 3 (bit off)) 2 0
    (d.plotState k p)

/-- PLOT_MAP: the logical plot and the bed served (07 Table 7.11). -/
def Dev.plotMap (d : Dev) (k p : Nat) (w : Word) : Word :=
  match d.logicalOf k p, d.bedOfPlot k p with
  | some L, some b => withBits (withBits (withBits w 31 31 1) 21 16 b) 8 0 L
  | _, _ => w

/-- PLOT_REPAIR: a bypass on the hop to the neighbour west or east (07 R199). -/
def Dev.plotRepair (d : Dev) (k p : Nat) (w : Word) : Word :=
  match d.logicalOf k p with
  | some L => withBits (withBits w 1 1 (bit (decide (L % 16 ≠ 0) && d.bypassBetween (L - 1) L))) 0 0
      (bit (decide (L % 16 ≠ 15) && d.bypassBetween L (L + 1)))
  | none => w

/-- PASS items pending at a plot. -/
def Dev.plotPending (d : Dev) (k p : Nat) : Nat :=
  match d.logicalOf k p with | some L => d.pendingAt k .pass (L % 64) | none => 0

/-- A turnstile of ring `r` enters at logical plot `L`. -/
def BedCfg.turnstileAt (c : BedCfg) (r L : Nat) : Option TurnstileCfg :=
  c.turnstiles.find? (fun t => t.ring == r && t.lplot == L)

/-- PLOT_RING: turnstiles, ends of arcs, and ring-0 neighbours (08 Table 8.3). -/
def Dev.plotRing (d : Dev) (k p : Nat) (w : Word) : Word :=
  match d.logicalOf k p, d.bedRecord k p with
  | some L, some (_, x) =>
    let c := x.cfg
    withBits (withBits (withBits (withBits (withBits (withBits w 31 31 (bit (c.turnstileAt 0 L).isSome)) 30 30
      (bit (c.turnstileAt 1 L).isSome)) 29 29 (bit (endsArc c.turnstiles c.ring 0 L))) 28 28
      (bit (endsArc c.turnstiles c.ring 1 L))) 17 9 ((ringSucc c.ring 1 L).getD 0)) 8 0 ((ringSucc c.ring 0 L).getD 0)
  | _, _ => w

/-- A stream is open at the turnstile of ring `r` at logical plot `L`. -/
def Dev.streamOpen (d : Dev) (r L : Nat) : Bool :=
  d.rills.any (fun e => match e.2.run with
    | some x => x.fields.dstLoc == 4 && bitsOf x.fields.dstAddr 56 48 == L && bitsOf x.fields.dstAddr 40 40 == r
    | none => false)

/-- PLOT_TSTILE (08). -/
def Dev.plotTurnstile (d : Dev) (k p : Nat) (w : Word) : Word :=
  match d.logicalOf k p, d.bedRecord k p with
  | some L, some (_, x) =>
    let rill (r : Nat) : Nat := match x.cfg.turnstileAt r L with | some t => t.rill | none => 0
    withBits (withBits (withBits (withBits w 31 31 (bit (d.streamOpen 0 L))) 30 30 (bit (d.streamOpen 1 L))) 7 4 (rill 1)) 3 0
      (rill 0)
  | _, _ => w

/-- A pointer register: offset in the furrow and wrap (09 R218). -/
def Furrow.pointer (f : Furrow) (n : Nat) (w : Word) : Word :=
  let bytes := f.size * 64
  if bytes = 0 then w else withBits (withBits w 19 19 (n / bytes % 2)) 18 0 (n % bytes)

/-- The count of the first line at or after TAIL whose fill bit is clear, HEAD when none is (09 Table 9.10). -/
def Furrow.firstUnfilled (f : Furrow) : Nat :=
  match (List.range ((f.head - f.tail + 63) / 64)).find? (fun i => !f.fill.contains (f.tail / 64 + i)) with
  | some i => (f.tail / 64 + i) * 64
  | none => f.head

/-- A register of furrow `i` at offset `o` of its group (09 Tables 9.9, 9.10). -/
def Furrow.reg (f : Furrow) (o : Nat) (w : Word) : Word :=
  match o with
  | 0x00 => withBits (withBits w 28 16 f.size) 12 0 f.base
  | 0x04 => f.pointer f.head w
  | 0x08 => f.pointer f.read w
  | 0x0C => f.pointer f.tail w
  | 0x10 => f.pointer f.firstUnfilled w
  | 0x18 => withBits (withBits w 1 1 (bit (f.head == f.tail + f.size * 64))) 0 0 (bit (f.head == f.tail))
  | _ => w

/-- A register of a plot. -/
def Dev.plotReg (d : Dev) (k p o : Nat) (w : Word) : Word :=
  if 0x200 ≤ o ∧ o < 0x600 then (d.fur k p ((o - 0x200) / 32)).reg ((o - 0x200) % 32) w
  else match o with
    | 0x04 => d.plotSts k p w
    | 0x08 => d.plotMap k p w
    | 0x0C => d.plotRepair k p w
    | 0x24 => withBits w 4 0 (d.plotPending k p)
    | 0x40 => d.plotRing k p w
    | 0x50 => d.plotTurnstile k p w
    | _ => w

/-- A register of a bed slot (02 Tables 2.9 to 2.11). -/
def Dev.slotReg (d : Dev) (k s o : Nat) (w : Word) : Word :=
  match (d.bedAtSlot k s).bind (fun b => (d.bed b).map (fun x => (b, x))) with
  | none => w
  | some (b, x) => match o with
    | 0x00 => x.ctlWord b w
    | 0x04 => x.stsWord w
    | 0x08 => withBits w 15 0 x.pc
    | 0x0C => BitVec.ofNat 32 x.ovrCnt
    | 0x10 => BitVec.ofNat 32 x.winCnt
    | 0x14 => withBits w 23 0 x.slack
    | _ => w

/-- RILL_STS: a running rill that waits at a queue shows QWAIT (10 Table 10.12). -/
def Dev.rillSts (d : Dev) (k e : Nat) (w : Word) : Word :=
  let w1 := withBits w 8 4 (d.pendingAt k .rill e)
  if d.fld (.rill k e) Reg.RILL_STS.STATE = 1 ∧ (d.rillWait k e).isSome = true then withBits w1 2 0 2 else w1

/-- The repair map of this power-up is built: start-up step 8 has ended (19 R428, Table 19.1). -/
def Dev.mapBuilt (d : Dev) : Bool := [0, 1].any (fun l => d.isSet (.lodgeCtl l) Reg.PARAM_STS.READY)

/-- TRELLIS_MAP_DATA: the plot that serves TRELLIS_MAP_IDX, once a map is built (03 R76). -/
def Dev.mapData (d : Dev) (w : Word) : Word :=
  if !d.mapBuilt then w else
  match d.physOf (d.fld .trellis Reg.TRELLIS_MAP_IDX.LPLOT) with
  | some (k, p) => withBits (withBits (withBits w 31 31 1) 10 8 k) 6 0 p
  | none => w

/-- Every reserved-live bit of the blocks that satisfy `f` has its documented value. -/
def Dev.untouched (d : Dev) (f : Blk → Bool) : Bool :=
  !d.regs.any (fun e => match Blk.ofAddr e.1 with | some b => f b && d.altered b | none => false)

/-- The conditions of the guarantee, bits 0 to 5 of FAULT_GUAR (18 Table 18.5): HEARTBEAT, SUNDIAL, LANES, SCRUB, HEDGE,
ROC. -/
def Dev.guarantee (d : Dev) : List Bool :=
  let hb (l : Nat) : Bool := d.isSet (.warden l) Reg.WARDEN_CTL.TAKEOVER_EN && d.isSet (.lodgeCtl l) Reg.LODGE_STS.FW_UP
  let clock : Blk → Bool := fun b => match b with | .clock _ => true | _ => false
  [hb 0 && hb 1, d.untouched clock,
   d.beds.all (fun e => match e.2 with | some x => !x.cfg.unchecked | none => true),
   d.isSet .fault Reg.FAULT_CTL.SCRUB_HBM_EN && d.isSet .fault Reg.FAULT_CTL.SCRUB_SRAM_EN,
   d.untouched (fun b => !clock b),
   d.pwr.vinRoc && !d.pwr.temps.isEmpty && d.pwr.temps.all (fun x => decide (x ≤ 400))]

/-- FAULT_GUAR (18 R422). -/
def Dev.guarReg (d : Dev) (w : Word) : Word :=
  let g := d.guarantee
  let w1 := (List.range 6).foldl (fun w i => withBits w i i (bit (g.getD i false))) w
  withBits w1 31 31 (bit (g.all (fun x => x)))

/-- A register of FAULT (18 Tables 18.10 to 18.12). -/
def Dev.faultReg (d : Dev) (o : Nat) (w : Word) : Word :=
  if 0x40 ≤ o ∧ o < 0x60 then
    match d.log with
    | e :: _ => BitVec.ofNat 32 (e.toNat / 2 ^ (8 * (o - 0x40)))
    | [] => 0#32
  else match o with
    | 0x04 => withBits w 10 0 d.log.length
    | 0x08 => d.guarReg w
    | _ => w

/-- CLK_STEP: the target, and the domains that ramp (17 Table 17.7). -/
def Dev.stepReg (d : Dev) (l : Nat) (w : Word) : Word :=
  let t := d.targetStep l
  let core := d.fld (.clock l) Reg.CLK_STEP.CORE
  let keeper := d.fld (.clock l) Reg.CLK_STEP.KEEPER
  withBits (withBits w 23 18 t) 7 6 (bit (core != t) + 2 * bit (keeper != t))

/-- BAR_STS of group `g` (14 R353, R354). -/
def Dev.barSts (d : Dev) (g : Nat) (w : Word) : Word :=
  withBits (withBits w 1 1 (bit (!(d.bar g).held.isEmpty))) 0 0 (bit (!(d.bar g).active.isEmpty))

/-- SIEVE_BUSY with the core cycles of the command that is in RUN (11 Table 11.9). -/
def Dev.sieveBusy (d : Dev) (k v : Nat) (w : Word) : Word :=
  match (d.sieve k v).run with
  | some x => ((d.sieveRan k v x).word (.sieve k v) 0xC)
  | none => w

/-- The value of a block's register without its BUSY bit. -/
def Dev.view (d : Dev) (b : Blk) (o : Nat) : Word :=
  let w := d.word b o
  match b with
  | .clock l => if o = 0x1C then d.stepReg l w else w
  | .chime =>
    if o = 0xC then d.chime.count.setWidth 32 else if o = 0x10 then d.chime.hiLatch else w
  | .trellis => if o = 0x34 then d.mapData w else w
  | .power => if o = 0x4 then withBits w 7 7 (bit (d.fld .power Reg.POWER_STS.STEP != 0 || d.fld .power Reg.POWER_STS.DUTY != 0)) else w
  | .fault => d.faultReg o w
  | .queue => if o = 0x208 then withBits w 16 0 d.vecUsed else w
  | .obotil n => if n = 0 ∧ 0x200 ≤ o ∧ o < 0x300 ∧ o % 16 = 8 then d.barSts ((o - 0x200) / 16) w else w
  | .trug => if o = 0x14 then withBits (withBits w 25 13 (d.openTrugs 1)) 12 0 (d.openTrugs 0) else w
  | .shed k => if 0x100 ≤ o ∧ o < 0x500 then d.slotReg k ((o - 0x100) / 32) ((o - 0x100) % 32) w else w
  | .mower k =>
    if o = 0x4 then withBits w 7 3 (d.pendingAt k .mower 0)
    else if mowMirrors.contains o then (match d.mirrorOf k with | some l => d.word (.mower l) o | none => w)
    else w
  | .rill k e => if o = 0x4 then d.rillSts k e w else w
  | .sieve k v =>
    if o = 0x4 then withBits w 9 5 (d.pendingAt k .sieve v)
    else if o = 0xC then d.sieveBusy k v w
    else if o = 0x24 then (d.trayWord (trayIndex k v (d.fld (.sieve k v) Reg.SIEVE_TRAY_IDX.ENTRY))).setWidth 32
    else if o = 0x28 then (d.trayWord (trayIndex k v (d.fld (.sieve k v) Reg.SIEVE_TRAY_IDX.ENTRY)) >>> 32).setWidth 32
    else w
  | .plot k p => (d.settle k p).plotReg k p o ((d.settle k p).word b o)
  | _ => w

/-- The value that a read of register `o` of a block returns (R92, R103). A hole reads 0 (R106). -/
def Dev.readReg (d : Dev) (b : Blk) (o : Nat) : Word :=
  if !b.listed o then 0#32
  else
    let w := d.view b o
    if o = 0 ∧ b.posted = true ∧ d.isBusy b = true then withBits w 31 31 1 else w

/-! ### Side effects (R93) -/

/-- A read of CHIME_COUNT_LO latches CHIME_COUNT_HI; a read of POWER_MEAS restarts the PEAK_W maximum (R93). -/
def Dev.readEffect (d : Dev) (b : Blk) (o : Nat) : Dev :=
  match b with
  | .chime => if o = 0xC then { d with chime := { d.chime with hiLatch := (d.chime.count >>> 32).setWidth 32 } } else d
  | .power => if o = 0x10 then d.setFld .power Reg.POWER_MEAS.PEAK_W 0 else d
  | _ => d

/-- The value of a register as a source reads it: a VF's register block has its own (15 R367). -/
def Dev.readFor (d : Dev) (src : Source) (b : Blk) (o : Nat) : Word :=
  if !src.isVf then d.readReg b o
  else if o = 0x3FFC then BitVec.ofNat 32 (0x1900F001 + src.func % 256 * 0x10000 + src.lodge * 0x100)
  else if src.lists b o then d.qword src o
  else 0#32

/-- The bytes of a register that a read of 1, 2 or 4 bytes within it returns (R92). -/
def readPart (w a size : Nat) : Nat := w / 2 ^ (8 * (a % 4)) % 2 ^ (8 * size)

/-- A read of `size` bytes at a BAR0 offset: refused by the first error of Table 4.4, or answered with the value, with its
side effect; a host read of 8 aligned bytes is two reads (R92, R93). Any other host read that one register does not hold is
served from the register of its first byte, and zeros (DESIGN CHOICE, entry 70). A VF's MSI-X table and pending bits follow
its register block (15 R361). -/
def Dev.readAt (d : Dev) (src : Source) (a size : Nat) : Dev :=
  if !d.answers src then d
  else if src.isHost && d.asleep then d.holdReq (.read src a size)
  else if d.noSuchFn src then d.emit [.answer src .unsupportedRequest]
  else if src.isVf && decide (0x10000 ≤ a ∧ a < 0x20000) then
    d.emit [.answer src (.value (readPart (d.tableRead src.func ((a - 0x10000) / 4 * 4)).toNat a size))]
  else match d.readErr src a size with
    | some e => d.refuseRead src a e
    | none => match target src a with
      | some (b, _) =>
        let o := a % 0x4000 / 4 * 4
        let v := (d.readFor src b o).toNat
        let d1 := (d.wakeIdle b).readEffect b o
        let v2 := if src.isHost && size == 8 then v + (d1.readFor src b (o + 4)).toNat * 2 ^ 32 else readPart v a size
        (if src.isHost && size == 8 then d1.readEffect b (o + 4) else d1).emit [.answer src (.value v2)]
      | none => d

/-- A read of 4 bytes as a command: a device asleep holds a host's (20 R449). -/
def State.read (s : State) (t : Nat) (src : Source) (b : Blk) (a : Nat) : Host.Outcome State Fault Refusal :=
  if src.isHost && s.dev.asleep then s.go t (fun d => d.readAt src a 4) else s.run t b (fun d => d.readAt src a 4)

/-- CHIME_COUNT_LO_READ: the low word is answered and the high word latched (R93). -/
def execChimeCountLoRead (t : Nat) (src : Source) (s : State) : Host.Outcome State Fault Refusal :=
  s.read t src .chime 0x3000C

/-- POWER_MEAS_READ: the readings are answered and the PEAK_W maximum restarts (R93, 20 Table 20.5). -/
def execPowerMeasRead (t : Nat) (src : Source) (s : State) : Host.Outcome State Fault Refusal :=
  s.read t src .power 0x50010

end Machine
end Sys2Proof
end

