-- ==== Sys2Proof/Machine/Reliability.lean ====
section
/-! DEFINITION. The reliability log's commands, patrol scrub, checks of control state, and keepers that stop (16 Table 16.2,
18 R419 to R427). -/
namespace Sys2Proof
namespace Machine

/-! ### The log's commands (R427) -/

/-- POP removes the oldest entry; with none it is ignored. -/
def Dev.popLog (d : Dev) : Dev :=
  match d.log with
  | [] => d.setFld .fault Reg.FAULT_STS.CMD_IGN 1
  | _ :: es => { d with log := es }

/-- FAULT_CTL takes the merged word `new` and starts the command `cmd` (Table 18.9). -/
def Dev.faultCtlWritten (d : Dev) (new cmd : Word) : Dev :=
  let d1 := d.setWord .fault 0x0 new
  match bitsOf cmd.toNat 3 0 with
  | 0 => d1
  | 1 => d1.popLog
  | 2 => { d1 with log := [] }
  | _ => d1.setFld .fault Reg.FAULT_STS.CMD_IGN 1

/-- POP: the base write of FAULT_CTL.CMD = POP (R427). -/
def execFaultPop (t : Nat) (src : Source) (s : State) : Host.Outcome State Fault Refusal :=
  s.access t src .fault (fun d => d.rowWrite src .fault 0x0 (fun d => d.faultCtlWritten (d.word .fault 0x0) 1#32))

/-- LOG_CLEAR: the base write of FAULT_CTL.CMD = CLEAR (R427). -/
def execFaultClear (t : Nat) (src : Source) (s : State) : Host.Outcome State Fault Refusal :=
  s.access t src .fault (fun d => d.rowWrite src .fault 0x0 (fun d => d.faultCtlWritten (d.word .fault 0x0) 2#32))

/-! ### Patrol scrub (R420, R421) -/

/-- The words of a unit of 1 KiB from key `k` on whose syndrome is not 0, in ascending order. -/
def Dev.badKeys (d : Dev) (k : Nat) : List Nat :=
  (d.synd.filter (fun e => decide (k ≤ e.1 ∧ e.1 < k + 128))).map (fun e => e.1)

/-- The scrubber reads the 1 KiB from key `k` on: errors are handled as by any checker, uncorrectable words logged as
SCRUB_UE (R421). -/
def Dev.scrubWords (d : Dev) (k : Nat) : Dev := (d.badKeys k).foldl (fun d w => d.noteWordAs Ev.scrubUe 0xFF w) d

/-- Units of 1 KiB in one populated half of a stack (10 R235). -/
def hbmHalf : Nat := 0x430000000 / 1024

/-- The address of unit `n` of stack `s` among its populated ones. -/
def scrubAddr (s n : Nat) : Nat :=
  s * 2 ^ 36 + (if n < hbmHalf then n * 1024 else 2 ^ 35 + (n - hbmHalf) * 1024)

/-- Stack `s` is READY. -/
def Dev.stackReady (d : Dev) (s : Nat) : Bool := d.fld (.hbmCtl (s / 2) (s % 2)) Reg.HBM_STS.STATE == 2

/-- The device address that the scrubber of stack 0 reaches next is shown (Table 18.12). -/
def Dev.showScrubPos (d : Dev) (s n : Nat) : Dev :=
  if s = 0 then
    (d.setFld .fault Reg.SCRUB_HBM_POS_LO.ADDR_LO (scrubAddr 0 n)).setFld .fault Reg.SCRUB_HBM_POS_HI.ADDR_HI
      (scrubAddr 0 n / 2 ^ 32)
  else d

/-- The interval of the HBM scrubber: SCRUB_HBM_H hours, of which 0 and values above 12 act as 12 (Table 18.9). -/
def Dev.hbmInterval (d : Dev) : Nat :=
  let h := d.fld .fault Reg.FAULT_CTL.SCRUB_HBM_H
  (if h = 0 ∨ 12 < h then 12 else h) * 230400000000000

/-- The interval of the SRAM scrubber: SCRUB_SRAM_MS milliseconds, at least 10 and at most 100 (Table 18.9). -/
def Dev.sramInterval (d : Dev) : Nat := max 10 (min 100 (d.fld .fault Reg.FAULT_CTL.SCRUB_SRAM_MS)) * 64000000

/-- A pass that has begun goes on; the next begins when the interval of the last, from its beginning at `last`, is over (R420). -/
def Dev.scrubDue (d : Dev) (inPass : Bool) (last : Option Nat) (interval : Nat) : Bool :=
  inPass || (match last with | some t => decide (t + interval ≤ d.now) | none => true)

/-- The HBM scrubber of stack `s` reads its next unit; a pass is complete when every READY stack's is. -/
def Dev.scrubHbm (d : Dev) (s : Nat) : Dev :=
  let inPass := !(d.scrub.hbmPos.isEmpty && d.scrub.hbmDone.isEmpty)
  if !d.isSet .fault Reg.FAULT_CTL.SCRUB_HBM_EN || !d.stackReady s || d.scrub.hbmDone.contains s
      || !d.scrubDue inPass d.scrub.hbmT d.hbmInterval then d
  else
    let x := d.scrub
    let n := Tbl.get (fun _ => 0) x.hbmPos s
    let t0 := if inPass then x.hbmT.getD d.now else d.now
    let n' := if n + 1 < 2 * hbmHalf then n + 1 else 0
    let done := if n' = 0 then s :: x.hbmDone else x.hbmDone
    let d1 := (d.scrubWords (Mem.word .hbm (scrubAddr s n))).showScrubPos s n'
    let d2 := { d1 with scrub := { x with
      hbmPos := Tbl.set (fun _ => 0) x.hbmPos s n'
      hbmDone := done
      hbmT := some t0 } }
    if (List.range 16).all (fun k => !d.stackReady k || done.contains k) then
      { (d2.countWrap .fault Reg.SCRUB_HBM_PASSES.COUNT 1).setFld .fault Reg.SCRUB_HBM_LAST.SECONDS
          (min ((d.now - t0) / 64000000000) 0xFFFFFFFF) with
        scrub := { d2.scrub with hbmDone := [] } }
    else d2

/-- Units of a die's SRAM in the order of its scrubber (entry 34): the benches, the glasshouse, the seed trays, the
accumulator files. -/
def sramBench : Nat := 68 * 384
def sramGh : Nat := sramBench + 49152
def sramTray : Nat := sramGh + 4 * 2048
def sramUnits : Nat := sramTray + 68 * 64

/-- One entry of an accumulator file is checked: a wrong bit is put right, an uncorrectable word reported (18 R421). -/
def Dev.scrubFileWord (d : Dev) (die p k : Nat) : Dev :=
  let x := d.plot die p
  let w := Tbl.get (fun _ => ((0#64 : DWord), (0#8 : BitVec 8))) x.file k
  let d1 := d.noteStoreAs Ev.scrubUe (.plot die p) 0xFF k w.2
  match hedgeCheck w.2 with
  | .corrected _ =>
    d1.setPlot die p { x with file := Tbl.set (fun _ => (0#64, 0#8)) x.file k (checkedWord w, 0#8) }
  | _ => d1

/-- The SRAM scrubber of die `k` reads its unit `n`; memories of gated blocks are passed over (R420). -/
def Dev.scrubSramUnit (d : Dev) (k n : Nat) : Dev :=
  if n < sramBench then
    if d.clockOn (.plot k (n / 384)) then d.scrubWords (Mem.word .bench ((k * 68 + n / 384) * 2 ^ 19 + n % 384 * 1024)) else d
  else if n < sramGh then
    if d.clockOn (.gh k) then d.scrubWords (Mem.word .gh (k * 2 ^ 26 + (n - sramBench) * 1024)) else d
  else if n < sramTray then
    let m := n - sramGh
    if d.clockOn (.sieve k (m / 2048)) then d.scrubWords (trayKey ((k * 4 + m / 2048) * 2 ^ 18 + m % 2048 * 128)) else d
  else
    let m := n - sramTray
    if d.clockOn (.plot k (m / 64)) then
      ((d.plot k (m / 64)).file.filter (fun e => e.1 / 64 == m % 64)).foldl (fun d e => d.scrubFileWord k (m / 64) e.1) d
    else d

/-- The SRAM scrubber of die `k` goes on by one unit; a pass is complete when every die's is. -/
def Dev.scrubSram (d : Dev) (k : Nat) : Dev :=
  let inPass := !(d.scrub.sramPos.isEmpty && d.scrub.sramDone.isEmpty)
  if !d.isSet .fault Reg.FAULT_CTL.SCRUB_SRAM_EN || d.scrub.sramDone.contains k
      || !d.scrubDue inPass d.scrub.sramT d.sramInterval then d
  else
    let x := d.scrub
    let n := Tbl.get (fun _ => 0) x.sramPos k
    let n' := if n + 1 < sramUnits then n + 1 else 0
    let done := if n' = 0 then k :: x.sramDone else x.sramDone
    let d1 := d.scrubSramUnit k n
    let full := (List.range 8).all (fun i => done.contains i)
    let d2 := { d1 with scrub := { x with
      sramPos := Tbl.set (fun _ => 0) x.sramPos k n'
      sramDone := if full then [] else done
      sramT := if inPass then x.sramT else some d.now } }
    if full then d2.countWrap .fault Reg.SCRUB_SRAM_PASSES.COUNT 1 else d2

/-- SCRUB_READ: a scrubber reads the next unit of its memory (R420). -/
def execScrubRead (t : Nat) (u : ScrubUnit) (s : State) : Host.Outcome State Fault Refusal :=
  s.run t .fault (fun d => match u with
    | .hbm k => d.scrubHbm (k % 16)
    | .sram k => d.scrubSram (k % 8))

/-! ### Control state and keepers (R419, 16 Table 16.2) -/

/-- A keeper that runs stops: KEEPER_HALT, and an entry KEEPER (Table 18.8). -/
def Dev.stopKeeper (d : Dev) (l core : Nat) : Dev :=
  let up := d.fld (.lodgeCtl l) Reg.LODGE_STS.KEEPER_UP
  if up.testBit core then
    let d1 := (d.setFld (.lodgeCtl l) Reg.LODGE_STS.KEEPER_UP (up - 2 ^ core)).setFld (.lodgeCtl l) Reg.KEEPER_HALT.HALT
      (d.fld (.lodgeCtl l) Reg.KEEPER_HALT.HALT ||| 2 ^ core)
    d1.logPush (d1.entry (.lodgeCtl l) Ev.keeper 2)
  else d

/-- KEEPER_WATCHDOG: the period of TIMEOUT_US expires for a keeper that runs; 0 turns the watchdog off (Table 16.2). -/
def execKeeperWatchdog (t l core : Nat) (s : State) : Host.Outcome State Fault Refusal :=
  s.run t (.lodgeCtl (l % 2)) (fun d =>
    if d.fld (.lodgeCtl (l % 2)) Reg.KEEPER_WDOG.TIMEOUT_US = 0 then d else d.stopKeeper (l % 2) (core % 16))

/-- The bed that a block serves, where it serves one alone. -/
def Dev.bedServed (d : Dev) : Blk → Option Nat
  | .plot k p => d.bedOfPlot k p
  | .rill k e => d.bedOfRill k e
  | .sieve k v => d.bedOfSieve k v
  | .mower k => d.bedOfMower k
  | _ => none

/-- The block serves one bed at a time. -/
def Blk.ofOneBed : Blk → Bool
  | .plot _ _ | .rill _ _ | .sieve _ _ | .mower _ => true
  | _ => false

/-- The flag that a mismatch in a bench's control state sets (09 R228). -/
def Dev.noteCtlErr (d : Dev) : Blk → Dev
  | .plot k p => d.setFld (.plot k p) Reg.BENCH_STS.CTL_ERR 1
  | _ => d

/-- CONTROL_STATE_MISMATCH: in a block that serves one bed it is logged with severity DETECTED and halts that bed with
HALT_CAUSE 3; in another, FATAL; in a keeper it stops the core (R419, Table 18.4). -/
def execControlStateMismatch (t : Nat) (m : Mismatch) (s : State) : Host.Outcome State Fault Refusal :=
  s.go t (fun d => match m with
    | .keeper l core => d.stopKeeper (l % 2) (core % 16)
    | .block b =>
      if b.ofOneBed then
        let d1 := d.noteCtlErr b
        let d2 := d1.logPush { d1.entry b Ev.ctl 2 with bed := (d.bedServed b).getD 0xFF }
        match d.bedServed b with
        | some i => d2.haltBed i 3
        | none => d2
      else d.logPush (d.entry b Ev.ctl 3))

end Machine
end Sys2Proof
end

