-- ==== Sys2Proof/Machine/Startup.lean ====
section
/-! DEFINITION. Start-up (19 R428 to R439): PWRGD, the images that each lodge verifies, identity and counters, HBM
training, BIST and the repair map. Steps 2, 5, 7, 9 and 10 end with the events of their own chapters. -/
namespace Sys2Proof
namespace Machine

/-! ### Signed images (R435, R436) -/

/-- `n` bytes of a list from `o` on. -/
def bytesAt (bs : List Byte) (o n : Nat) : List Byte := (bs.drop o).take n

/-- The little-endian and the big-endian number of `n` bytes from `o` on. -/
def numLe (bs : List Byte) (o n : Nat) : Nat := leNat (bytesAt bs o n)
def numBe (bs : List Byte) (o n : Nat) : Nat := leNat (bytesAt bs o n).reverse

/-- The image of a KIND verifies under the key of its KEY_ID: its SEC_VERSION (Table 19.5). -/
def verifyImage (kind : Nat) (key : Nat → Option Nat) (bs : List Byte) : Option Nat :=
  let zero (o n : Nat) : Bool := (bytesAt bs o n).all (fun b => b == 0#8)
  match key (numLe bs 6 2) with
  | none => none
  | some k =>
    if decide (128 ≤ bs.length) && numLe bs 0 4 == 0x474E5353 && numLe bs 4 1 == kind && zero 5 1 && zero 0x30 16
        && bs.length == 128 + numLe bs 0xC 4 && Config.sm3 (bs.drop 128) == numBe bs 0x10 32
        && Config.sm2Verify k (Config.sm3 (bs.take 64)) (numBe bs 0x40 32) (numBe bs 0x60 32) then
      some (numLe bs 8 4)
    else none

/-- Only the vendor's key (KEY_ID 0). -/
def vendorOnly (id : Nat) : Option Nat := if id = 0 then some Config.vendorKey else none

/-- The slot entries of a certificate body: slot, permissions, key (R436). -/
def certSlots (body : List Byte) : List (Nat × Nat × Nat) :=
  (List.range ((body.length - 8) / 72)).map (fun i =>
    (numLe body (8 + 72 * i) 1, numLe body (9 + 72 * i) 1, numBe body (16 + 72 * i) 64))

/-- The body of an owner certificate holds a serial and 1 to 15 well-formed entries of different slots (R436). -/
def certShape (body : List Byte) : Bool :=
  let n := (body.length - 8) / 72
  let ss := certSlots body
  decide (1 ≤ n ∧ n ≤ 15) && body.length == 8 + 72 * n
    && ss.all (fun e => decide (1 ≤ e.1 ∧ e.1 ≤ 15 ∧ e.2.1 < 8)) && decide (ss.map (fun e => e.1)).Nodup
    && (List.range n).all (fun i => (bytesAt body (10 + 72 * i) 6).all (fun b => b == 0#8))

/-- The owner slots that a certificate enrols in lodge `l`, and its version: none of them when any check fails (R436). -/
def certOwners (l : Nat) (bs : List Byte) (serial : Option Nat) (least : Nat) : Option (Nat × List OwnerSlot) :=
  match verifyImage 4 vendorOnly bs with
  | none => none
  | some v =>
    let body := bs.drop 128
    if certShape body && decide (least ≤ v) && (match serial with | some n => n == numLe body 0 8 | none => true) then
      some (v, (certSlots body).map (fun e => ⟨l, e.1, e.2.1, e.2.2⟩))
    else none

/-- The key of a KEY_ID that may sign a component: the vendor's, or an owner's with permission bit `perm`; in UART recovery
the vendor's alone (R436, R439, Table 19.2). -/
def componentKey (owners : List OwnerSlot) (boot perm id : Nat) : Option Nat :=
  if id = 0 then some Config.vendorKey
  else if boot = 2 then none
  else (owners.find? (fun o => o.slot == id && o.perms.testBit perm)).map (fun o => o.key)

/-- Measurement `i` of lodge `l` takes a digest (R441, Table 19.9). -/
def Dev.setMeas (d : Dev) (l i dig : Nat) : Dev :=
  (List.range 8).foldl (fun d w =>
    d.setWord (.security l) (0x100 + i * 0x20 + 4 * w)
      (BitVec.ofNat 32 (leNat (((leBytes 32 dig).reverse.drop (4 * w)).take 4)))) d

/-! ### Step 1: PWRGD (R428, 21 R463, R465, R467) -/

/-- WARN_C and THROTTLE_C as they act, in 0.25 °C (20 Table 20.5). -/
def Dev.warnTemp (d : Dev) : Nat := 4 * min 110 (d.fld .power Reg.POWER_THERM.WARN_C)
def Dev.throttleTemp (d : Dev) : Nat := 4 * min 110 (d.fld .power Reg.POWER_THERM.THROTTLE_C)

/-- Lodge `l` begins start-up: its straps are sampled, step 1 is complete, OSC_WAIT runs, and its domains stand at the
floor of INT_OSC. -/
def Dev.startLodge (d : Dev) (l : Nat) (st : Straps) : Dev :=
  let d1 := { d with regs := d.regs.filter (fun e => Blk.ofAddr e.1 != some (Blk.security l)) }
  let d2 := ((d1.setFld (.warden l) Reg.WARDEN_STS.PREF st.pref).setFld (.clock l) Reg.CLK_STEP.KEEPER 2).setFld
    (.clock l) Reg.CLK_STEP.CORE 2
  let d3 := (d2.modLodge l (fun _ => { LodgeSt.start with step := 1, stepT := d.now, straps := st })).modClk l
    (fun _ => { ClkSt.start with oscFrom := some d.now })
  d3.endStep l 1 2

/-- PWRGD_RISE: with VAUX3V3 present and PWRGD low, start-up begins in both lodges with their own strap samples (R428). -/
def execPwrgdRise (t : Nat) (s0 s1 : Straps) (s : State) : Host.Outcome State Fault Refusal :=
  s.run t .power (fun d =>
    if d.pwr.vaux = true ∧ d.pwr.pwrgd = false then
      let hot := d.pwr.stopped && d.pwr.temps.any (fun x => decide (d.warnTemp ≤ x))
      let d1 := { d.setFld .power Reg.POWER_STS.STATE 0 with
        pwr := { d.pwr with pwrgd := true, stopped := false, hotStart := hot, vinRoc := true } }
      (d1.startLodge 0 s0).startLodge 1 s1
    else d)

/-! ### Steps 3, 4 and 6 (R430, R435 to R439) -/

/-- Step 3: the gatehouse ROM verifies gatehouse firmware, an owner's under the certificate that its flash holds; a start
that was too soon after an emergency stop goes no further (21 R467). -/
def Dev.gatehouseStep (d : Dev) (l : Nat) (bs cert : List Byte) : Dev :=
  let owners := match certOwners l cert none 0 with | some (_, os) => os | none => []
  match verifyImage 2 (componentKey owners (d.lodge l).straps.boot 2) bs with
  | none => d.stopLodge l 2
  | some v =>
    let d1 := ((d.setFld (.lodgeCtl l) Reg.LODGE_STS.GH_READY 1).setMeas l 3 (Config.sm3 bs)).modLodge l
      (fun x => { x with ghVer := some v })
    if d.pwr.hotStart then d1.modLodge l (fun x => { x with stopped := true }) else d1.endStep l 3 4

/-- Counter `n` of lodge `l` as last authenticated. -/
def Dev.counter (d : Dev) (l n : Nat) : Nat := d.fldI (.security l) Reg.SEC_CTR.VALUE n

/-- The four counters of lodge `l` as authenticated. -/
def Dev.setCounters (d : Dev) (l : Nat) (c : Nat × Nat × Nat × Nat) : Dev :=
  (((d.setFldI (.security l) Reg.SEC_CTR.VALUE 0 c.1).setFldI (.security l) Reg.SEC_CTR.VALUE 1 c.2.1).setFldI
    (.security l) Reg.SEC_CTR.VALUE 2 c.2.2.1).setFldI (.security l) Reg.SEC_CTR.VALUE 3 c.2.2.2

/-- The identity and serial of a lodge are known. -/
def Dev.setIdentity (d : Dev) (l : Nat) (i : Option (Nat × Nat)) : Dev :=
  match i with
  | none => d
  | some (key, serial) =>
    (((d.setFld (.security l) Reg.SEC_STS.IDENT_OK 1).setFld (.security l) Reg.SEC_SERIAL_LO.SERIAL_LO serial).setFld
      (.security l) Reg.SEC_SERIAL_HI.SERIAL_HI (serial / 2 ^ 32)).modLodge l (fun x => { x with ident := some key })

/-- The owner slots of a lodge are enrolled, or left empty (R436). -/
def Dev.enrol (d : Dev) (l : Nat) (c : Option (Nat × List OwnerSlot)) : Dev :=
  let d1 := { d with owners := d.owners.filter (fun o => o.lodge != l) }
  match c with
  | none => (d1.setFld (.security l) Reg.SEC_STS.OWNER_OK 0).setFld (.security l) Reg.SEC_OWNER_SLOTS.SLOTS 0
  | some (v, os) =>
    ({ ((d1.setFld (.security l) Reg.SEC_STS.OWNER_OK 1).setFld (.security l) Reg.SEC_OWNER_SLOTS.SLOTS
        (os.foldl (fun m (o : OwnerSlot) => m + 2 ^ (o.slot - 1)) 0)) with owners := d1.owners ++ os }).modLodge l
      (fun x => { x with certVer := some v })

/-- Step 4: the boot ROM derives the identity, authenticates the counters and verifies the loader and the owner certificate
(R430, R435 to R439, Table 19.2, 21 R471). -/
def Dev.bootStep (d : Dev) (l : Nat) (m : Option BootMedia) : Dev :=
  let boot := (d.lodge l).straps.boot
  if boot = 3 then d.stopLodge l 6
  else match m with
    | none => d.stopLodge l 5
    | some m =>
      let ctrs := if m.ident.isSome then m.counters else some (0, 0, 0, 0)
      if m.ident.isNone && boot != 2 then d.stopLodge l 7
      else match ctrs with
        | none => d.stopLodge l 4
        | some c =>
          match (if m.rootKey = Config.vendorKey then verifyImage 1 vendorOnly m.loader else none) with
          | none => d.stopLodge l 1
          | some v =>
            if decide (v < c.1) || decide (((d.lodge l).ghVer.getD 0) < c.2.1) then d.stopLodge l 3
            else
              let d1 := ((d.setIdentity l m.ident).setCounters l c).enrol l
                (certOwners l m.cert (m.ident.map (fun i => i.2)) c.2.2.2)
              let d2 := ((d1.setMeas l 1 m.rom).setMeas l 2 (Config.sm3 m.loader)).setFld (.lodgeCtl l)
                Reg.LODGE_STS.KEEPER_UP (d.fld (.lodgeCtl l) Reg.KEEPER_RUN.RUN % 2)
              (d2.modLodge l (fun x => { x with loaderVer := some v })).endStep l 4 5

/-- The bits of CLKEN_DEV that keeper firmware sets at step 6: CHIME, TRELLIS, QUEUE, TRUG and the ports. -/
def firmwareEnables : Nat := 0xFF36

/-- The entry of an emergency stop that gatehouse SRAM has kept (R430, 20 R455). -/
def Dev.logKeptStop (d : Dev) : Dev :=
  match d.pwr.cause with
  | some c => { d.logPush { d.entry .power Ev.estop 3 with cause := c } with pwr := { d.pwr with cause := none } }
  | none => d

/-- Step 6: the loader verifies and starts keeper firmware (R428, R435, R437, R439). -/
def Dev.firmwareStep (d : Dev) (l : Nat) (bs : List Byte) : Dev :=
  match verifyImage 3 (componentKey (d.owners.filter (fun o => o.lodge == l)) (d.lodge l).straps.boot 1) bs with
  | none => d.stopLodge l 2
  | some v =>
    if v < d.counter l 1 then d.stopLodge l 3
    else
      let d1 := (((d.setFld (.lodgeCtl l) Reg.LODGE_STS.FW_UP 1).setFld (.lodgeCtl l) Reg.LODGE_STS.KEEPER_UP
        (d.fld (.lodgeCtl l) Reg.KEEPER_RUN.RUN)).setMeas l 4 (Config.sm3 bs)).modLodge l (fun x => { x with fwVer := some v })
      let d2 := if d.isWarden l then (d1.forceClken 0x100 firmwareEnables).logKeptStop else d1
      d2.endFirmwareSteps

/-! ### Step 8: BIST and the repair map (R433, R434) -/

/-- A hint as the warden's identity key signed it (R434, Table 19.4). -/
def hintVerifies (key : Option Nat) (h : List Byte) : Bool :=
  match key with
  | none => false
  | some k => h.length == 328 && numLe h 0 4 == 0x54525052 && numLe h 4 4 == 1
    && Config.sm2Verify k (Config.sm3 (h.take 0x108)) (numBe h 0x108 32) (numBe h 0x128 32)

/-- The bytes TERRACE of the map in force: eight for each terrace (Table 19.4). -/
def Dev.terraceBytes (d : Dev) : List Byte :=
  (List.range 32).flatMap (fun i =>
    let cols (fs : List Nat) : Nat := (List.range 17).foldl (fun m c =>
      if fs.contains (plotKey (i / 4) (i % 4) c) then m + 2 ^ c else m) 0
    leBytes 8 (cols d.arrFail + cols d.defFail * 2 ^ 32))

/-- A failed engine or glasshouse bank is logged (R433). -/
def Dev.logFailedEngine (d : Dev) (a : Nat) : Dev :=
  match Blk.ofAddr a with
  | some b => d.logPush (d.entry b Ev.ctl 2)
  | none => d

/-- READY and ACTIVE_PLOTS, the same in both lodges (04 R115, R116); a lodge that runs measures the repair map. -/
def Dev.setReady (d : Dev) (l : Nat) : Dev :=
  let d1 := (d.setFld (.lodgeCtl l) Reg.PARAM_STS.READY 1).setFld (.lodgeCtl l) Reg.ACTIVE_PLOTS.COUNT d.mappedCount
  if d.isSet (.lodgeCtl l) Reg.LODGE_STS.FW_UP && !(d.lodge l).stopped then d1.setMeas l 6 (Config.sm3 d.terraceBytes) else d1

/-- Step 8: the results of BIST become the repair map; READY is set (R428, R433, R434, R441). -/
def Dev.bistStep (d : Dev) (l : Nat) (arrays stages engines : List Nat) (hint : List Byte) (calib : List (Nat × Word)) :
    Dev :=
  let ok := hintVerifies (d.lodge l).ident hint
  let d1 := { d with arrFail := arrays, defFail := stages, arrNew := [], defNew := [], engFail := engines }
  let d2 := (d1.setFld (.security l) Reg.SEC_STS.HINT_USED (bit ok)).setFld (.security l) Reg.SEC_STS.HINT_BAD
    (if ok then d.fld (.security l) Reg.SEC_STS.HINT_BAD else 1)
  let d3 := calib.foldl (fun d c => d.calibrate c.1 c.2) (engines.foldl (fun d a => d.logFailedEngine a) d2)
  ((d3.setReady 0).setReady 1).endStep l 8 9

/-- START_STEP_END: step 3, 4, 6 or 8 of lodge `l` ends, or fails with a cause; the lodge goes on or stops (R428, R430). -/
def execStartStepEnd (t l : Nat) (r : StepResult) (s : State) : Host.Outcome State Fault Refusal :=
  s.run t (.security (l % 2)) (fun d =>
    let l := l % 2
    let x := d.lodge l
    if x.stopped || d.powerState == 5 then d
    else match x.step, r with
      | 3, .image bs cert => d.gatehouseStep l bs cert
      | 4, .boot m => d.bootStep l m
      | 6, .image bs _ => if d.isSet (.lodgeCtl l) Reg.LODGE_STS.FW_UP then d else d.firmwareStep l bs
      | 8, .bist a b e h c => if d.isWarden l then d.bistStep l a b e h c else d
      | n, .failed c => if n = 3 ∨ n = 4 ∨ n = 6 ∨ n = 8 then d.stopLodge l c else d
      | _, _ => d)

/-! ### Step 7: HBM training (R431, R432, R442) -/

/-- SEC_HBM_BIN and SEC_HBM_FAIL of both lodges show a stack. -/
def Dev.showStack (d : Dev) (k bin : Nat) : Dev :=
  (List.range 2).foldl (fun d l =>
    let b := Blk.security l
    let d1 := d.setFld b Reg.SEC_HBM_BIN.BIN (putBits (d.fld b Reg.SEC_HBM_BIN.BIN) (2 * k + 1) (2 * k) bin)
    if bin = 3 then d1.setFld b Reg.SEC_HBM_FAIL.STACKS (d.fld b Reg.SEC_HBM_FAIL.STACKS ||| 2 ^ k) else d1) d

/-- Every stack is READY or FAILED. -/
def Dev.stacksTrained (d : Dev) : Bool :=
  (List.range 16).all (fun k =>
    let v := d.fld (.hbmCtl (k / 2) (k % 2)) Reg.HBM_STS.STATE
    v == 2 || v == 4)

/-- An attempt of stack `k` ends: it is READY at its bin; or the step that failed, which names its cause unless the attempt
timed out, is recorded, and the stack retrains at the next lower bin or is FAILED. -/
def Dev.endAttempt (d : Dev) (k step cause rows : Nat) : Dev :=
  let b := Blk.hbmCtl (k / 2) (k % 2)
  let bin := d.fld b Reg.HBM_STS.BIN_ACT
  let d1 := ((d.countSat b Reg.HBM_TRAIN.ATTEMPTS 1).countSat b Reg.HBM_TRAIN_US.US
    ((d.now - Tbl.get (fun _ => 0) d.trainT k) / 64000)).countSat b Reg.HBM_ROW_REPAIR.COUNT rows
  if cause = 0 then
    ((d1.setFld b Reg.HBM_STS.TRAIN_STEP 11).setFld b Reg.HBM_STS.STATE 2).showStack k bin
  else
    let d2 := ((d1.setFld b Reg.HBM_STS.TRAIN_STEP (step - 1)).setFld b Reg.HBM_TRAIN.FAIL_STEP step).setFld b
      Reg.HBM_TRAIN.FAIL_CAUSE cause
    if bin < 2 then { d2.setFld b Reg.HBM_STS.BIN_ACT (bin + 1) with trainT := Tbl.set (fun _ => 0) d.trainT k d.now }
    else
      let d3 := ((d2.setFld b Reg.HBM_STS.STATE 4).setFld b Reg.HBM_STS.BIN_ACT 3).showStack k 3
      d3.logPush (d3.entry b Ev.ctl 2)

/-- HBM_ATTEMPT_END: a training attempt of a stack ends, with `cause` 0 or at step `step` with the cause of Table 19.13; after
the last stack step 7 ends (R431, R432). -/
def execHbmAttemptEnd (t stack step cause rows : Nat) (s : State) : Host.Outcome State Fault Refusal :=
  s.run t (.hbmCtl (stack % 16 / 2) (stack % 2)) (fun d =>
    let k := stack % 16
    let valid := cause == 0 || (decide (1 ≤ step ∧ step ≤ 11) && (cause == 0xB || (cause == step && decide (step ≤ 10))))
    if d.fld (.hbmCtl (k / 2) (k % 2)) Reg.HBM_STS.STATE = 1 ∧ valid = true then
      let d1 := d.endAttempt k step cause rows
      if d1.stacksTrained then d1.endStep d1.wardenLodge 7 8 else d1
    else d)

/-- HBM_CTL takes the merged word `new`: a write of BIN = 3 is ignored (Table 19.10). -/
def Dev.hbmCtlWritten (d : Dev) (i k : Nat) (new : Word) : Dev :=
  if bitsOf new.toNat 5 4 = 3 then d.setFld (.hbmCtl i k) Reg.HBM_STS.CMD_IGN 1 else d.setWord (.hbmCtl i k) 0x0 new

end Machine
end Sys2Proof
end

