-- ==== Sys2Proof/Machine/Security.lean ====
section
/-! DEFINITION. The commands of the SECURITY block and attestation (19 R434, R437 to R441). -/
namespace Sys2Proof
namespace Machine

/-- SEC_VERSION of the component in force that counter `n` guards; of the two firmware images under counter 1 the lower
(R437, R438; entry 32). -/
def Dev.versionInForce (d : Dev) (l n : Nat) : Option Nat :=
  let x := d.lodge l
  match n with
  | 0 => x.loaderVer
  | 1 => match x.ghVer, x.fwVer with
    | some a, some b => some (min a b)
    | _, _ => none
  | 2 => if d.isSet .trellis Reg.TRELLIS_STS.LOADED then some (d.fld .trellis Reg.TRELLIS_SEC_VER.SEC_VERSION) else none
  | _ => x.certVer

/-- ADVANCE_CTR of the counter in CTR to SEC_CTR_ARG, ignored out of bounds (R438). -/
def Dev.advanceCounter (d : Dev) (l : Nat) : Dev :=
  let n := d.fld (.security l) Reg.SEC_CTL.CTR
  let v := d.fld (.security l) Reg.SEC_CTR_ARG.VALUE
  let ok := match d.versionInForce l n with
    | some top => decide (d.counter l n ≤ v ∧ v ≤ top)
    | none => false
  if ok && (d.lodge l).advance.isNone then
    (d.modLodge l (fun x => { x with advance := some (n, v) })).emit [.flashCounter l n v]
  else d.setFld (.security l) Reg.SEC_STS.CMD_IGN 1

/-- HINT_WRITE: the map of this start is written as a signed hint; without an identity, or before a map is built, it is
ignored (R434, R439). -/
def Dev.writeHint (d : Dev) (l : Nat) : Dev :=
  if (d.lodge l).ident.isSome && d.isSet (.lodgeCtl l) Reg.PARAM_STS.READY then
    let t := d.takeFree
    t.2.emit [.flashHint l (leBytes 4 0x54525052 ++ leBytes 4 1 ++ d.terraceBytes) (Config.identSignature t.1)]
  else d.setFld (.security l) Reg.SEC_STS.CMD_IGN 1

/-- SEC_CTL of lodge `l` takes the merged word `new` and starts the command `cmd` (Table 19.7). -/
def Dev.secCtlWritten (d : Dev) (l : Nat) (new cmd : Word) : Dev :=
  let d1 := d.setWord (.security l) 0x0 new
  match bitsOf cmd.toNat 3 0 with
  | 0 => d1
  | 1 => d1.advanceCounter l
  | 2 => d1.writeHint l
  | _ => d1.setFld (.security l) Reg.SEC_STS.CMD_IGN 1

/-- ADVANCE_CTR: the base write of CTR and CMD = ADVANCE_CTR in the source's lodge (R438). -/
def execAdvanceCtr (t : Nat) (src : Source) (ctr : BitVec 2) (s : State) : Host.Outcome State Fault Refusal :=
  s.access t src (.security src.lodge) (fun d => d.rowWrite src (.security src.lodge) 0x0 (fun d =>
    d.secCtlWritten src.lodge (BitVec.ofNat 32 (putBits (d.word (.security src.lodge) 0x0).toNat 9 8 ctr.toNat)) 1#32))

/-- ADVANCE_CTR_DONE: the flash has raised the counter, or failed (R438). -/
def execAdvanceCtrDone (t l : Nat) (ok : Bool) (s : State) : Host.Outcome State Fault Refusal :=
  s.run t (.security (l % 2)) (fun d =>
    let l := l % 2
    match (d.lodge l).advance with
    | some (n, v) =>
      let d1 := d.modLodge l (fun x => { x with advance := none })
      if ok then (d1.setFldI (.security l) Reg.SEC_CTR.VALUE n v).setFld (.security l) Reg.SEC_STS.ADV_DONE 1
      else d1.setFld (.security l) Reg.SEC_STS.ADV_ERR 1
    | none => d)

/-- HINT_WRITE: the base write of CMD = HINT_WRITE in the source's lodge (R434). -/
def execHintWrite (t : Nat) (src : Source) (s : State) : Host.Outcome State Fault Refusal :=
  s.access t src (.security src.lodge) (fun d => d.rowWrite src (.security src.lodge) 0x0 (fun d =>
    d.secCtlWritten src.lodge (d.word (.security src.lodge) 0x0) 2#32))

/-- The SPDM 1.2 ERROR message with code Busy (PRESUMED, entry 33). -/
def spdmBusy : List Byte := [0x12#8, 0x7F#8, 0x03#8, 0x00#8]

/-- SPDM_REQUEST: the gatehouse, while VAUX3V3 feeds it, answers: Busy before step 4 has ended, an error without an identity,
and otherwise as an SPDM 1.2 responder (R439, R440). -/
def execSpdmRequest (t l : Nat) (bytes : List Byte) (s : State) : Host.Outcome State Fault Refusal :=
  s.run t (.security (l % 2)) (fun d =>
    let l := l % 2
    if !d.pwr.vaux then d
    else if d.fld (.security l) Reg.SEC_STS.START_STEP < 4 then d.emit [.spdm l spdmBusy]
    else
      let f := d.takeFree
      if d.isSet (.security l) Reg.SEC_STS.IDENT_OK then f.2.emit [.spdm l (Config.spdmAnswer f.1 bytes)]
      else f.2.emit [.spdm l (Config.spdmError f.1 bytes)])

end Machine
end Sys2Proof
end

