-- ==== Sys2Proof/Machine/RegWrite.lean ====
section
/-! DEFINITION. Register writes (04 R98 to R109): what a write leaves in each register and what it starts, posted writes, and
control writes to the dies (16 R387). -/
namespace Sys2Proof
namespace Machine

/-! ### What a write does, block by block -/

/-- KEEPER_RUN of lodge `l` takes the merged word `new`: a keeper whose bit is cleared is held in reset, and one whose bit is set
runs, once keeper firmware does (16 Table 16.2). -/
def Dev.keeperRunWritten (d : Dev) (l : Nat) (new : Word) : Dev :=
  let old := d.fld (.lodgeCtl l) Reg.KEEPER_RUN.RUN
  let run := bitsOf new.toNat 15 0
  let up := d.fld (.lodgeCtl l) Reg.LODGE_STS.KEEPER_UP
  let starts := if d.isSet (.lodgeCtl l) Reg.LODGE_STS.FW_UP then run - (run &&& old) else 0
  (d.setWord (.lodgeCtl l) 0x4 new).setFld (.lodgeCtl l) Reg.LODGE_STS.KEEPER_UP ((up ||| starts) &&& run)

/-- A register of LODGE_CTL is written; GH_MBOX_OUT by the gatehouse alone (16 Table 16.2). -/
def Dev.lodgeWritten (d : Dev) (l : Nat) (src : Source) (o : Nat) (al : Alias) (data new : Word) : Dev :=
  match o with
  | 0x04 => d.keeperRunWritten l new
  | 0x1C => (d.setWord (.lodgeCtl l) 0x1C new).emit [.gatehouseMailbox l]
  | 0x20 =>
    let old := d.word (.lodgeCtl l) 0x20
    let w := match al with | .base => data | .set => old ||| data | .clr => old &&& ~~~data | .tog => old ^^^ data
    if src = .gatehouse l then (d.setWord (.lodgeCtl l) 0x20 w).emit [.keeperMailboxIrq l] else d
  | _ => d.setWord (.lodgeCtl l) o new

/-- A register of QUEUE, or of a VF's part of it, is written. -/
def Dev.queueWritten (d : Dev) (src : Source) (o : Nat) (new cmd : Word) : Dev :=
  if o = 0x4 then (d.setQword src 0x4 new).qctxCmdWritten src (bitsOf cmd.toNat 3 0)
  else if 0x100 ≤ o ∧ o < 0x200 then d.bedVecWritten ((o - 0x100) / 4) new
  else if o = 0x200 then d.vfVecWritten 0 new
  else if o = 0x204 then d.vfVecWritten 1 new
  else d.setQword src o new

/-- A register of an Obotil port is written; offsets from 0x100 on are OBOTIL_0's. -/
def Dev.obotilWritten (d : Dev) (n o : Nat) (new cmd : Word) : Dev :=
  if o = 0 then d.obCtlWritten n new cmd
  else if o = 0x100 then d.devIdWritten new
  else if o = 0x114 then d.gateCmdWritten new cmd
  else if 0x200 ≤ o ∧ o < 0x300 ∧ o % 16 = 0 then d.barCfgWritten ((o - 0x200) / 16) new
  else if 0x300 ≤ o ∧ o < 0x400 then d.wepochWritten ((o - 0x300) / 4) new
  else d.setWord (.obotil n) o new

/-- A register of TRUG is written. -/
def Dev.trugWritten (d : Dev) (o : Nat) (new cmd : Word) : Dev :=
  if o = 0 then d.trugCtlWritten new cmd
  else if o = 0x10 then d.stageSizeWritten new
  else if 0x100 ≤ o ∧ o < 0x300 then
    if o % 32 = 0 then d.grpCtlWritten ((o - 0x100) / 32) new else d.grpWritten ((o - 0x100) / 32) (o % 32) new
  else d.setWord .trug o new

/-- A register of a shed sequencer is written. -/
def Dev.shedWritten (d : Dev) (k o : Nat) (al : Alias) (data new : Word) : Dev :=
  if 0x100 ≤ o ∧ o < 0x500 then
    match (o - 0x100) % 32 with
    | 0 => d.bedCtlWritten k ((o - 0x100) / 32) new
    | 4 => (d.setWord (.shed k) o new).bedStsWritten k ((o - 0x100) / 32) (if al = .base ∨ al = .clr then data else 0#32)
    | _ => d.setWord (.shed k) o new
  else d.setWord (.shed k) o new

/-- A register of a Mower is written. -/
def Dev.mowerWritten (d : Dev) (k o : Nat) (new cmd : Word) : Dev :=
  if o = 0 then d.mowCtlWritten k new cmd
  else if o = 0x8 then d.mowStepWritten k new
  else if mowMirrored o then d.mowMirrorWritten k o new
  else d.setWord (.mower k) o new

/-- A register of a plot is written. -/
def Dev.plotWritten (d : Dev) (k p o : Nat) (new cmd : Word) : Dev :=
  if o = 0 then d.plotCtlWritten k p new cmd
  else if 0x200 ≤ o ∧ o < 0x600 then
    match (o - 0x200) % 32 with
    | 0 => d.furCfgWritten k p ((o - 0x200) / 32) new
    | 0x14 => d.furCtlWritten k p ((o - 0x200) / 32) new cmd
    | _ => d.setWord (.plot k p) o new
  else d.setWord (.plot k p) o new

/-- The registers whose fields that software writes have another home than the stored word. -/
def Blk.elsewhere (b : Blk) (o : Nat) : Bool :=
  match b with
  | .shed _ => decide (0x100 ≤ o ∧ o < 0x500) && o % 32 == 0
  | .plot _ _ => decide (0x200 ≤ o ∧ o < 0x600) && o % 32 == 0
  | .sieve _ _ => o == 0x24 || o == 0x28
  | _ => false

/-- The word that an alias write changes (Table 4.2). -/
def Dev.oldWord (d : Dev) (src : Source) (b : Blk) (o : Nat) : Word :=
  if src.isVf then d.qword src o else if b.elsewhere o then d.view b o else d.word b o

/-- A write of `data` through an alias to register `o` of a block takes effect (R98, R99, and the block's chapter). -/
def Dev.regWritten (d : Dev) (src : Source) (b : Blk) (o : Nat) (al : Alias) (data : Word) : Dev :=
  let new := writeMerge b o al data (d.oldWord src b o)
  let cmd := writeCmd b o al data
  match b with
  | .lodgeCtl l => d.lodgeWritten l src o al data new
  | .warden l => if o = 0 then d.wardenCtlWritten l new cmd else d.setWord b o new
  | .clock l =>
    if o = 0 then d.clkCtlWritten l new cmd
    else if o = 0x8 then d.sundialStsWritten l new
    else if 0x100 ≤ o then d.clkenWritten l o new
    else d.setWord b o new
  | .chime =>
    if o = 0 then d.chimeCtlWritten new
    else if o = 4 then d.chimePeriodWritten new
    else if o = 0x14 then d.chimeLeadWritten new
    else d.setWord b o new
  | .trellis => if o = 0 then d.trellisCtlWritten new cmd else d.setWord b o new
  | .power => if o = 0 then d.powerCtlWritten new cmd else d.setWord b o new
  | .fault => if o = 0 then d.faultCtlWritten new cmd else d.setWord b o new
  | .security l => if o = 0 then d.secCtlWritten l new cmd else d.setWord b o new
  | .queue => d.queueWritten src o new cmd
  | .obotil n => d.obotilWritten n o new cmd
  | .trug => d.trugWritten o new cmd
  | .hbmCtl i k => if o = 0 then d.hbmCtlWritten i k new else d.setWord b o new
  | .shed k => d.shedWritten k o al data new
  | .mower k => d.mowerWritten k o new cmd
  | .rill k e => if o = 0 then d.rillCtlWritten k e new cmd else d.setWord b o new
  | .sieve k v =>
    if o = 0 then d.sieveCtlWritten k v new cmd else if o = 0x24 ∨ o = 0x28 then d.trayWritten k v o new else d.setWord b o new
  | .plot k p => d.plotWritten k p o new cmd
  | .dieCtl _ | .lattice _ | .gh _ => d.setWord b o new

/-! ### The commands -/

/-- The alias by its number, and back, for a posted write. -/
def Alias.code : Alias → Nat
  | .base => 0 | .set => 1 | .clr => 2 | .tog => 3
def aliasOfCode : Nat → Alias
  | 0 => .base | 1 => .set | 2 => .clr | _ => .tog

/-- An accepted write to register `o`: a posted block holds it until it is applied; another takes it at once (R101). -/
def Dev.acceptWrite (d : Dev) (src : Source) (b : Blk) (o : Nat) (al : Alias) (data : Word) : Dev :=
  if b.posted then
    { d with posted := Tbl.set (fun _ => (none : Option PWrite)) d.posted b.base (some ⟨o, al.code, data, src⟩) }
  else d.regWritten src b o al data

/-- A word of a VF's MSI-X table is written (15 R361). -/
def Dev.vfTableWritten (d : Dev) (w : WriteAccess) : Dev :=
  if w.size = 4 ∧ w.addr % 4 = 0 ∧ w.enables = 0xF#4 then d.tableWrite w.src.func (w.addr - 0x10000) w.data else d

/-- A register write as it reaches the device (R92, R98, R102, R106, R108): held while the device is asleep (20 R449), refused
by the first error of Table 4.4, or answered and accepted. -/
def Dev.writeAt (d : Dev) (w : WriteAccess) : Dev :=
  if !d.answers w.src then d
  else if w.src.isHost && d.asleep then d.holdReq (.write w)
  else if d.noSuchFn w.src then d.emit [.answer w.src .dropped]
  else if w.src.isVf && decide (0x10000 ≤ w.addr ∧ w.addr < 0x20000) then (d.vfTableWritten w).emit [.answer w.src .done]
  else match d.writeErr w with
    | some e => d.refuseWrite w.src w.addr e
    | none => match target w.src w.addr with
      | none => d
      | some (b, _) =>
        let o := w.addr % 0x4000
        let d1 := (d.wakeIdle b).emit [.answer w.src .done]
        if w.src.lists b o && !d.lostCopy w.src b o then
          d1.controlWrite (d.lodgePair w.src.lodge) b (fun d => d.acceptWrite w.src b o (aliasOf w.addr) w.data)
        else d1

/-- The block that a write reaches; FAULT, which logs it, where it reaches none. -/
def WriteAccess.blk (w : WriteAccess) : Blk := match target w.src w.addr with | some (b, _) => b | none => .fault

/-- REGISTER_WRITE (R98): a write may alter reserved-live bits, and may put their documented values back; it runs whether or not
they are altered (R100). -/
def execRegisterWrite (t : Nat) (w : WriteAccess) (s : State) : Host.Outcome State Fault Refusal :=
  s.go t (fun d => if d.dark (w.blk) && !(w.src.isHost && d.asleep) then d else d.writeAt w)

/-- POSTED_WRITE_APPLY: the write that a posted block holds takes effect, and BUSY clears (R101). -/
def execPostedWriteApply (t : Nat) (b : Blk) (s : State) : Host.Outcome State Fault Refusal :=
  s.go t (fun d => match Tbl.get (fun _ => (none : Option PWrite)) d.posted b.base with
    | some p => ({ d with posted := Tbl.set (fun _ => (none : Option PWrite)) d.posted b.base none }).regWritten p.src b p.off
        (aliasOfCode p.form) p.data
    | none => d)

/-- IDLE_BLOCK_ACCESS: an access to a block whose clock IDLE has stopped: the device is ACTIVE, and the access completes
(20 R444). -/
def execIdleBlockAccess (t : Nat) (write : Bool) (w : WriteAccess) (s : State) : Host.Outcome State Fault Refusal :=
  s.run t w.blk (fun d =>
    if d.powerState = 1 ∧ (w.blk).idleStops = true then
      (if write then d.writeAt w else d.readAt w.src w.addr w.size)
    else d)

/-- DIE_CONTROL_WRITE: a control write of lodge `l`, with the epoch that the lodge follows, reaches its die. It is refused by an
error of Table 4.4 that the path or the block shows; else applied when the die holds that pair, and refused otherwise (04
R92, R102, R107, 16 R384, R387). That the role was the lodge's was judged as it left. -/
def execDieControlWrite (t l epoch : Nat) (w : WriteAccess) (s : State) : Host.Outcome State Fault Refusal :=
  s.run t w.blk (fun d =>
    let b := w.blk
    let o := w.addr % 0x4000
    if b.dieOf.isNone || (target w.src w.addr).isNone || w.src.isVf then d
    else match d.writeErr w with
      | some .size => d.refuseWrite w.src w.addr .size
      | some .gated => d.refuseWrite w.src w.addr .gated
      | _ => (d.wakeIdle b).controlWrite (epoch, l % 2) b (fun d =>
          if b.posted && d.isBusy b then d.refuseWrite w.src w.addr .busy
          else if b.listed o then d.acceptWrite w.src b o (aliasOf w.addr) w.data
          else d))

end Machine
end Sys2Proof
end

