-- ==== Sys2Proof/Machine/Power.lean ====
section
/-! DEFINITION. Power states, dormancy, the power ward, thermal limits, the emergency stop and the supplies (20 R443 to R455,
21 R465 to R467). -/
namespace Sys2Proof
namespace Machine

/-! ### POWER_CTL.CMD (R443 to R446) -/

/-- A row that writes POWER_CTL with its present fields and the command `cmd`. -/
def State.powerRow (s : State) (t : Nat) (src : Source) (cmd : Word) : Host.Outcome State Fault Refusal :=
  s.access t src .power (fun d => d.rowWrite src .power 0x0 (fun d => d.powerCtlWritten (d.word .power 0x0) cmd))

/-- ACTIVE (R443). -/
def execPowerActive (t : Nat) (src : Source) (s : State) : Host.Outcome State Fault Refusal := s.powerRow t src 1#32

/-- IDLE (R445). -/
def execPowerIdle (t : Nat) (src : Source) (s : State) : Host.Outcome State Fault Refusal := s.powerRow t src 2#32

/-- DORMANT (R445, R446). -/
def execPowerDormant (t : Nat) (src : Source) (s : State) : Host.Outcome State Fault Refusal := s.powerRow t src 3#32

/-! ### Dormancy (R446 to R449) -/

/-- Each stack in state `a` of Table 19.11 goes to state `b`. -/
def Dev.moveStacks (d : Dev) (a b : Nat) : Dev :=
  (List.range 16).foldl (fun d k =>
    let c := Blk.hbmCtl (k / 2) (k % 2)
    if d.fld c Reg.HBM_STS.STATE = a then d.setFld c Reg.HBM_STS.STATE b else d) d

/-- The keepers of both lodges are without supply. -/
def Dev.keepersOff (d : Dev) : Dev :=
  (List.range 2).foldl (fun d l =>
    (d.setFld (.lodgeCtl l) Reg.LODGE_STS.KEEPER_UP 0).setFld (.lodgeCtl l) Reg.LODGE_STS.FW_UP 0) d

/-- The keepers of each lodge whose firmware had started run on. -/
def Dev.keepersOn (d : Dev) : Dev :=
  (List.range 2).foldl (fun d l =>
    if (d.lodge l).fwVer.isSome && !(d.lodge l).stopped then
      (d.setFld (.lodgeCtl l) Reg.LODGE_STS.KEEPER_UP (d.fld (.lodgeCtl l) Reg.KEEPER_RUN.RUN)).setFld (.lodgeCtl l)
        Reg.LODGE_STS.FW_UP 1
    else d) d

/-- DORMANT_ENTRY_DONE: self-refresh, PLLs stopped, keepers off: the device is DORMANT (R446). -/
def execDormantEntryDone (t : Nat) (s : State) : Host.Outcome State Fault Refusal :=
  s.run t .power (fun d =>
    if d.powerState = 3 then
      let d1 := ((((d.moveStacks 2 3).setLocks 0 0).setLocks 1 0).keepersOff).setPower 2
      { d1 with pwr := { d1.pwr with entered := d1.now } }
    else d)

/-- WAKE: link activity on a PCIe port (0) or an SMBus command (1) (R447). -/
def execPowerWake (t how : Nat) (s : State) : Host.Outcome State Fault Refusal :=
  s.run t .power (fun d => if how < 2 then d.wake how else d)

/-- WAKE_TIMER: the gatehouse timer, when it is enabled and has run since entry completed (R447). -/
def execWakeTimer (t : Nat) (s : State) : Host.Outcome State Fault Refusal :=
  s.run t .power (fun d =>
    if d.powerState = 2 ∧ d.isSet .power Reg.POWER_WAKE.EN = true
        ∧ d.pwr.entered + d.fld .power Reg.POWER_WAKE.TIMER_MS * 64000000 ≤ d.now then d.wake 2
    else d)

/-- The register at an address keeps its value in a start-up from step 4: the auxiliary ones, what the sundials hold, and HBM_CTL,
whose BIN is for the next start-up (19 Table 19.10). -/
def survivesRestart (a : Nat) : Bool :=
  match Blk.ofAddr a with
  | some .power => true
  | some (.security _) => true
  | some (.clock _) => decide (a % 0x10000 < 0x100)
  | some (.hbmCtl _ _) => a % 0x10000 == 0
  | _ => false

/-- Lodge `l` begins start-up again at step 4, when its gatehouse firmware runs. -/
def Dev.restartLodge (d : Dev) (old : LodgeSt) (l : Nat) : Dev :=
  let d1 := d.setFld (.warden l) Reg.WARDEN_STS.PREF old.straps.pref
  if old.ghVer.isNone then d1.modLodge l (fun _ => old)
  else (((d1.setFld (.lodgeCtl l) Reg.LODGE_STS.GH_READY 1).setFld (.security l) Reg.SEC_STS.START_STEP 3).setFld (.security l)
      Reg.SEC_STS.START_CAUSE 0).modLodge l
    (fun _ => { LodgeSt.start with step := 4, stepT := d.now, straps := old.straps, ghVer := old.ghVer })

/-- The digest of keeper firmware differs: a full start-up from step 4, which keeps HBM content (R448). -/
def Dev.restart (d : Dev) : Dev :=
  let d1 := { Dev.start with
    now := d.now
    sent := d.sent
    freeCnt := d.freeCnt
    regs := d.regs.filter (fun e => survivesRestart e.1)
    hbm := d.hbm
    synd := d.synd.filter (fun e => e.1 / 2 ^ 44 == Mem.hbm.code)
    rewrites := d.rewrites.filter (fun k => k / 2 ^ 44 == Mem.hbm.code)
    clks := d.clks
    pwr := { d.pwr with ports := 0, held := [] } }
  ((d1.restartLodge (d.lodge 0) 0).restartLodge (d.lodge 1) 1).setPower 0

/-- The reference at the end of exit: the previous one when the sundial accepts it, otherwise INT_OSC with NOREF, and no
frost; the PLLs lock (R448 phases 1 and 2). -/
def Dev.exitClock (d : Dev) (refOk : Bool) : Dev :=
  let d1 := if refOk || d.srcAct d.wardenLodge == 0 then d
    else ((d.setClock Reg.CLK_STS.SRC_ACT 0).setClock Reg.CLK_STS.NOREF 1).setClock Reg.SUNDIAL_STS.CAL 0
  (d1.setLocks 0 1).setLocks 1 1

/-- The time that the stacks have spent in self-refresh is added to the intervals of the scrubbers (18 R420). -/
def Dev.exitScrub (d : Dev) : Dev :=
  let slept := (List.range 16).any (fun k => d.fld (.hbmCtl (k / 2) (k % 2)) Reg.HBM_STS.STATE == 3)
  let later (t : Option Nat) : Option Nat := t.map (fun t => t + (d.now - d.pwr.entered))
  if slept then { d with scrub := { d.scrub with hbmT := later d.scrub.hbmT, sramT := later d.scrub.sramT } } else d

/-- The warden heartbeats again at its epoch; the standby resyncs (R448 phase 5). -/
def Dev.exitWarden (d : Dev) : Dev :=
  (List.range 2).foldl (fun d l =>
    let d1 := d.modWard l (fun w => { w with lastHb := some d.now, gotHb := true, hbT := none, hb := none })
    if d1.role l = 2 then d1.beginResync l else d1) d

/-- The chime generator restarts from the kept count: the window that is open begins now (R448 phase 6). -/
def Dev.exitChime (d : Dev) : Dev :=
  if d.chimeEnabled then
    { d with chime := { d.chime with prev := d.now, fromEnable := true, openPeriod := d.period, due := [], emitted := 0, srcFrom := d.now, emitFrom := d.now } }
  else d

/-- The ports recorded at entry begin training. -/
def Dev.exitPorts (d : Dev) : Dev :=
  let d1 := (List.range 8).foldl (fun d p => if d.pwr.ports.testBit p then d.portEnable p true else d) d
  { d1 with pwr := { d1.pwr with ports := 0 } }

/-- A host access that the port held completes (R449). -/
def Dev.releaseReq (d : Dev) : HeldReq → Dev
  | .write w => d.writeAt w
  | .read src a n => d.readAt src a n
  | .bar4 p fn off op x => d.bar4Access p fn off op x
  | .bell sq p fn page v => d.doorbellWrite sq p fn page v

/-- Every access that the ports hold completes, in order. -/
def Dev.releaseHeld (d : Dev) : Dev :=
  let d1 := { d with pwr := { d.pwr with held := [] } }
  d.pwr.held.foldl (fun d r => d.releaseReq r) d1

/-- DORMANT_EXIT_DONE: the device is ACTIVE and its chime restarts; or, when the digest of keeper firmware differs, starts up
from step 4 (R448, R449). -/
def execDormantExitDone (t : Nat) (refOk fwOk : Bool) (s : State) : Host.Outcome State Fault Refusal :=
  s.run t .power (fun d =>
    if d.powerState ≠ 4 then d
    else if !fwOk then d.restart
    else
      let d1 := ((((d.exitScrub).exitClock refOk).moveStacks 3 2).keepersOn).exitWarden
      ((d1.setPower 0).exitChime.exitPorts).releaseHeld)

/-! ### The power ward (R451) -/

/-- P_avg times the number of ticks it is the mean of, and that number: the last WINDOW ticks, or all while there are fewer. -/
def Dev.wardSum (d : Dev) : Nat × Nat :=
  let xs := d.pwr.ticks.take (max 1 (d.fld .power Reg.POWER_WINDOW.WINDOW))
  (xs.foldl (fun a x => a + x) 0, max 1 xs.length)

/-- Some sensor reads above THROTTLE_C; every sensor reads at least 5 °C below it. -/
def Dev.tooHot (d : Dev) : Bool := d.pwr.temps.any (fun x => decide (d.throttleTemp < x))
def Dev.coolEnough (d : Dev) : Bool := d.pwr.temps.all (fun x => decide (x + 20 ≤ d.throttleTemp))

/-- The device is over the cap; CAP_EN = 0 leaves the sensors alone. -/
def Dev.overCap (d : Dev) : Bool :=
  d.tooHot || (d.isSet .power Reg.POWER_CTL.CAP_EN && decide (d.fld .power Reg.POWER_CAP.CAP_W * d.wardSum.2 < d.wardSum.1))

/-- The device is under the cap; with CAP_EN = 0, whenever no sensor is above THROTTLE_C. -/
def Dev.underCap (d : Dev) : Bool :=
  if d.isSet .power Reg.POWER_CTL.CAP_EN then
    d.coolEnough && decide (d.wardSum.1 + d.fld .power Reg.POWER_CAP.HYST_W * d.wardSum.2
      < d.fld .power Reg.POWER_CAP.CAP_W * d.wardSum.2)
  else !d.tooHot

/-- The rule of R451 on the step `s` and the duty `d`, with the largest step, above the limit, below it, and whether `d` has changed since the
last chime. -/
def wardRule (stepMax : Nat) (above below moved : Bool) (s d : Nat) : Nat × Nat :=
  if above then
    if s < stepMax then (s + 1, d) else if d < 8 ∧ moved = false then (s, d + 1) else (s, d)
  else if below then
    if 0 < d ∧ moved = false then (s, d - 1) else if d = 0 ∧ 0 < s then (s - 1, d) else (s, d)
  else (s, d)

/-- The ward acts on its step and hold duty. -/
def Dev.wardAct (d : Dev) : Dev :=
  let s := d.fld .power Reg.POWER_STS.STEP
  let h := d.fld .power Reg.POWER_STS.DUTY
  let r := wardRule (min 48 (d.fld .power Reg.POWER_CTL.STEP_MAX)) d.overCap d.underCap d.pwr.dutyMoved s h
  { (d.setFld .power Reg.POWER_STS.STEP r.1).setFld .power Reg.POWER_STS.DUTY r.2 with
    pwr := { d.pwr with dutyMoved := d.pwr.dutyMoved || r.2 != h } }

/-- POWER_MEAS and the dies' DIE_POWER show a tick of `w` watts. -/
def Dev.showPower (d : Dev) (w : Nat) (dies : List Nat) : Dev :=
  let d1 := { d with pwr := { d.pwr with ticks := (w :: d.pwr.ticks).take 255 } }
  let d2 := (d1.setFld .power Reg.POWER_MEAS.AVG_W (min 0xFFFF (d1.wardSum.1 / d1.wardSum.2))).setFld .power
    Reg.POWER_MEAS.PEAK_W (min 0xFFFF (max w (d.fld .power Reg.POWER_MEAS.PEAK_W)))
  if d.dark (.dieCtl 0) || dies.length != 8 then d2
  else (List.range 8).foldl (fun d k => d.setFld (.dieCtl k) Reg.DIE_POWER.WATTS (min 0xFFFF (dies.getD k 0))) d2

/-- WARD_TICK: the regulators report the device's power, and that of each die (R451). -/
def execWardTick (t watts : Nat) (dies : List Nat) (s : State) : Host.Outcome State Fault Refusal :=
  s.run t .power (fun d =>
    if d.pwr.pwrgd = true ∧ d.powerState ≠ 5 then (d.showPower watts dies).wardAct else d)

/-! ### Temperatures (R453) -/

/-- The highest of the readings and its SRC: four of each die, then two of each lodge. -/
def hottest (ts : List Nat) : Nat × Nat :=
  let top := ts.foldl (fun a x => max a x) 0
  let i := ts.findIdx (fun x => x == top)
  (top, if i < 32 then i / 4 else 8 + (i - 32) / 2)

/-- The registers show the readings `ts`: 36 junctions, then the stacks' own if they report. -/
def Dev.showTemps (d : Dev) (ts : List Nat) : Dev :=
  let top := hottest (ts.take 36)
  let d1 := ({ d with pwr := { d.pwr with temps := ts.take 36 } }.setFld .power Reg.POWER_TEMP_MAX.TEMP
    (min 1023 top.1)).setFld .power Reg.POWER_TEMP_MAX.SRC top.2
  if d.dark (.dieCtl 0) then d1
  else
    let d2 := (List.range 32).foldl (fun d i =>
      d.setFldI (.dieCtl (i / 4)) Reg.DIE_TEMP.TEMP (i % 4) (min 1023 (ts.getD i 0))) d1
    if ts.length = 52 then
      (List.range 16).foldl (fun d k =>
        d.setFld (.hbmCtl (k / 2) (k % 2)) Reg.HBM_TEMP.TEMP (min 1023 (ts.getD (36 + k) 0))) d2
    else d2

/-- WARN_C: ALERT_N goes low, with the event THERM_WARN in the log while that runs, and is released 5 °C below (R453). -/
def Dev.warn (d : Dev) : Dev :=
  let above := d.pwr.temps.any (fun x => decide (d.warnTemp < x))
  let below := d.pwr.temps.all (fun x => decide (x + 20 ≤ d.warnTemp))
  if above then
    let d1 := { d.setFld .power Reg.POWER_STS.ALERT 1 with pwr := { d.pwr with alert := true } }
    if d.pwr.alert || d.dark .fault then d1 else d1.logPush (d1.entry .power Ev.thermWarn 1)
  else if below then { d with pwr := { d.pwr with alert := false } }
  else d

/-- THERMAL_READ: the sensors are read; above 115 °C an emergency stop follows (R453, R454). -/
def execThermalRead (t : Nat) (temps : List Nat) (s : State) : Host.Outcome State Fault Refusal :=
  s.run t .power (fun d =>
    if temps.length < 36 then d
    else
      let d1 := (d.showTemps temps).warn
      if (temps.take 36).any (fun x => decide (460 < x)) then d1.emergencyStop 1 else d1)

/-! ### Emergency stop and supplies (R454, R455, 21 R465 to R467) -/

/-- EMERGENCY_STOP for a cause of Table 20.5. -/
def execEmergencyStop (t cause : Nat) (s : State) : Host.Outcome State Fault Refusal :=
  s.go t (fun d => if 1 ≤ cause ∧ cause ≤ 5 then d.emergencyStop cause else d)

/-- THERM_TRIP_INPUT: the board drives THERM_TRIP_N low. -/
def execThermTripInput (t : Nat) (s : State) : Host.Outcome State Fault Refusal := s.go t (fun d => d.emergencyStop 2)

/-- VIN48_FAULT: VIN48 at `millivolts`: outside 38 V to 60 V an emergency stop; outside 40 V to 58 V, the device runs but
without ROC (21 R467). -/
def execVin48Fault (t millivolts : Nat) (s : State) : Host.Outcome State Fault Refusal :=
  s.go t (fun d =>
    if d.pwr.pwrgd = false ∨ d.powerState = 5 then d
    else if millivolts < 38000 ∨ 60000 < millivolts then d.emergencyStop 3
    else { d with pwr := { d.pwr with vinRoc := decide (40000 ≤ millivolts ∧ millivolts ≤ 58000) } })

/-- REGULATOR_FAULT. -/
def execRegulatorFault (t : Nat) (s : State) : Host.Outcome State Fault Refusal := s.go t (fun d => d.emergencyStop 4)

/-- VAUX3V3_LOSS: nothing runs on, and no cause is kept (R455). -/
def execVauxLoss (t : Nat) (s : State) : Host.Outcome State Fault Refusal :=
  s.go t (fun d => { Dev.start with
    now := d.now
    sent := d.sent
    freeCnt := d.freeCnt })

/-- PWRGD_FALL: the device is OFF, THERM_TRIP_N is released, and a cause that an emergency stop recorded stays (21 R466). -/
def execPwrgdFall (t : Nat) (s : State) : Host.Outcome State Fault Refusal :=
  s.go t (fun d =>
    if d.pwr.pwrgd then
      let d1 := d.powerOff
      { d1 with pwr := { d1.pwr with pwrgd := false, thermTrip := false } }
    else d)

/-- VAUX3V3_APPLY: the gatehouses and POWER run, and the state is OFF (21 R465). -/
def execVauxApply (t : Nat) (s : State) : Host.Outcome State Fault Refusal :=
  s.go t (fun d => if d.pwr.vaux then d else ({ d with pwr := { d.pwr with vaux := true } }).setPower 5)

end Machine
end Sys2Proof
end

