-- ==== Sys2Proof/Machine/Ring.lean ====
section
/-! DEFINITION. The turnstile that transposes (08 R206, R207). -/
namespace Sys2Proof
namespace Machine

/-- The rows of a block, those beyond the barrow's last left out. -/
def blockRows (rows : List (RowPlan × RowData)) (k : Nat) : List (RowPlan × RowData) := (rows.drop (64 * k)).take 64

/-- The re-blocking of a block-scaled format meets an uncorrectable word: its row and element (10 R241). -/
def turnBad (f : Fmt) (kind : Nat) : List (RowPlan × RowData) → Option (Nat × Nat × RErr)
  | [] => none
  | (w, x) :: rest =>
    match (List.range w.n).find? (fun i => f.blockScaled && x.eltBad f kind i) with
    | some i => some (w.row, cutAt f i, .cause Cause.ueConvert none)
    | none => turnBad f kind rest

/-- Block `k` of a run's barrow: the bytes of its 64 vectors and the flags of its conversions, or the element that stops
the walk. -/
def Dev.turnOf (d : Dev) (die e : Nat) (x : RillRun) (k : Nat) : Except (Nat × Nat × RErr) (List Lane × FlagSet) :=
  let r := x.fields
  let p := x.plan
  let c := d.runCfg x
  let cols := max 1 (p.colBlocks r c.exact)
  let rows := blockRows (d.rillRows die e x) (k / cols)
  match d.firstStop c die e r p x.place none rows with
  | some z => .error z
  | none =>
    let out := rows.map (fun y => (y.1, outRow r c p y.1 y.2 y.1.n))
    match (if p.converts then none else turnBad p.fD p.kind rows) with
    | some z => .error z
    | none =>
      let data := out.map (fun y => y.2.1)
      let rate := if c.exact then 1 else denseRate r.fD
      let vs := (List.range 64).map (fun q => turnVector p.fD p.kind p.n rate (k % cols * r.turnElems c.exact) q data)
      let v0 := (x.outBytes / r.turnBytes c.exact + k) * 64
      let y := turnBlock r.fD (r.delivery c).rnd (r.delivery c).key v0 vs
      .ok (y.1, (out.foldl (fun f z => f ||| z.2.2) 0#5) ||| y.2)

/-- Where the source rows of a run's present block begin in the walk, and end. -/
def RillRun.turnTop (x : RillRun) (ex : Bool) : Nat × Nat :=
  (x.top.1 + 64 * (x.blocks / max 1 (x.plan.colBlocks x.fields ex)), 0)
def RillRun.turnEnd (x : RillRun) (ex : Bool) : Nat × Nat := ((x.turnTop ex).1 + 64, 0)

/-- The source rows of a block are read with its first column block, from the place in the walk on (R206). -/
def Dev.turnReads (d : Dev) (die e : Nat) (x : RillRun) (to_ : Nat × Nat) : Dev :=
  let ex := (d.runCfg x).exact
  if x.blocks % max 1 (x.plan.colBlocks x.fields ex) = 0 then
    (d.noteReads die e x (if x.place.1 = (x.turnTop ex).1 then x.place else x.turnTop ex) to_).cachePages die e x
  else d

/-- TRANSPOSE_BLOCK_EMIT: a block of the rill's barrow is complete in the turnstile's buffer, and its 64 vectors go to
the claimed range of the furrow (R206, R207). An element that stops the walk poisons the barrow instead. -/
def execTransposeBlockEmit (t die rill : Nat) (s : State) : Host.Outcome State Fault Refusal :=
  s.run t (.rill die rill) (fun d =>
    match (d.rill die rill).run with
    | none => d
    | some x =>
      let r := x.fields
      let p := x.plan
      let ex := (d.runCfg x).exact
      if d.fld (.rill die rill) Reg.RILL_STS.STATE != 1 || x.bad.isSome || r.empty || !r.transpose ||
          !d.rillReady die rill x || !x.hostHere || decide (p.blocks r ex ≤ x.blocks) then d
      else if d.inputStale x then d.rillUnrecov die rill Cause.stale
      else match x.dstAt, d.furOfAddr r.dstAddr with
        | some at_, some f =>
          (match d.turnOf die rill x x.blocks with
            | .error (_, _, .page _ _) => d
            | .error z => (d.turnReads die rill x (readTo p z)).rillStops die rill x z
            | .ok y =>
              let d0 := d.turnReads die rill x (x.turnEnd ex)
              let a := at_ + x.blocks * r.turnBytes ex
              let d1 := ((d0.sendLanes x.bed (.die die (Router.ofRill rill)) f.1 a y.1).furStore f.1 f.2.1 f.2.2 a y.1).useLines
                f.1 f.2.1 f.2.2 a (r.turnBytes ex) clsLattice true
              ((d1.modFur f.1 f.2.1 f.2.2 (fun g => g.fillRange a (r.turnBytes ex))).countWrap (.plot f.1 f.2.1)
                Reg.PLOT_TSTILE_BLK.COUNT 1).modRun die rill (fun z => { z with
                  blocks := z.blocks + 1, flags := z.flags ||| y.2 }))
        | _, _ => d)

end Machine
end Sys2Proof
end

