-- ==== Sys2Proof/Machine/Dispatch.lean ====
section
/-! DEFINITION. The dispatch of commands to their meanings, one arm per constructor. -/
namespace Sys2Proof
namespace Machine

/-- The meaning of a command at a state. -/
def exec (i : Instr) (s : State) : Host.Outcome State Fault Refusal :=
  match i with
  | .registerWrite t w => Sys2Proof.Machine.execRegisterWrite t w s
  | .postedWriteApply t b => Sys2Proof.Machine.execPostedWriteApply t b s
  | .chimeCountLoRead t src => Sys2Proof.Machine.execChimeCountLoRead t src s
  | .powerMeasRead t src => Sys2Proof.Machine.execPowerMeasRead t src s
  | .idleBlockAccess t write w => Sys2Proof.Machine.execIdleBlockAccess t write w s
  | .chimeEnableSet t src => Sys2Proof.Machine.execChimeEnableSet t src s
  | .chimeEnableClear t src => Sys2Proof.Machine.execChimeEnableClear t src s
  | .chimeSourceChange t src sel => Sys2Proof.Machine.execChimeSourceChange t src sel s
  | .chimePeriodWrite t src period => Sys2Proof.Machine.execChimePeriodWrite t src period s
  | .chime t => Sys2Proof.Machine.execChime t s
  | .closingPoint t => Sys2Proof.Machine.execClosingPoint t s
  | .markerEmit t => Sys2Proof.Machine.execMarkerEmit t s
  | .markerReceive t port bytes => Sys2Proof.Machine.execMarkerReceive t port bytes s
  | .markerMiss t => Sys2Proof.Machine.execMarkerMiss t s
  | .chimeInEdge t => Sys2Proof.Machine.execChimeInEdge t s
  | .chimeInMiss t => Sys2Proof.Machine.execChimeInMiss t s
  | .heldItemIssue t die kind unit => Sys2Proof.Machine.execHeldItemIssue t die kind unit s
  | .bedRunSet t src die slot => Sys2Proof.Machine.execBedRunSet t src die slot s
  | .bedRunClear t src die slot => Sys2Proof.Machine.execBedRunClear t src die slot s
  | .trellisLoad t src => Sys2Proof.Machine.execTrellisLoad t src s
  | .trellisLoadDone t => Sys2Proof.Machine.execTrellisLoadDone t s
  | .trellisReplant t src bed => Sys2Proof.Machine.execTrellisReplant t src bed s
  | .replantArmed t => Sys2Proof.Machine.execReplantArmed t s
  | .replantDrainEnd t => Sys2Proof.Machine.execReplantDrainEnd t s
  | .replantConfigEnd t => Sys2Proof.Machine.execReplantConfigEnd t s
  | .trellisAbort t src => Sys2Proof.Machine.execTrellisAbort t src s
  | .passIssue t die plot => Sys2Proof.Machine.execPassIssue t die plot s
  | .stationaryLoad t die plot => Sys2Proof.Machine.execStationaryLoad t die plot s
  | .stationaryLoadDone t die plot => Sys2Proof.Machine.execStationaryLoadDone t die plot s
  | .passStart t die plot => Sys2Proof.Machine.execPassStart t die plot s
  | .movingVectorArrive t die plot => Sys2Proof.Machine.execMovingVectorArrive t die plot s
  | .passRetire t die plot => Sys2Proof.Machine.execPassRetire t die plot s
  | .passAbandon t die plot what => Sys2Proof.Machine.execPassAbandon t die plot what s
  | .retestEnd t die plot result => Sys2Proof.Machine.execRetestEnd t die plot result s
  | .preempt t src die plot => Sys2Proof.Machine.execPreempt t src die plot s
  | .preemptBoundary t die plot => Sys2Proof.Machine.execPreemptBoundary t die plot s
  | .accSpillDone t die plot => Sys2Proof.Machine.execAccSpillDone t die plot s
  | .resume t src die plot => Sys2Proof.Machine.execResume t src die plot s
  | .accRestoreDone t die plot => Sys2Proof.Machine.execAccRestoreDone t die plot s
  | .retest t src die plot => Sys2Proof.Machine.execRetest t src die plot s
  | .transposeBlockEmit t die rill => Sys2Proof.Machine.execTransposeBlockEmit t die rill s
  | .benchAccessIssue t a => Sys2Proof.Machine.execBenchAccessIssue t a s
  | .latticeBenchRequest t a upset => Sys2Proof.Machine.execLatticeBenchRequest t a upset s
  | .benchRequestResend t a => Sys2Proof.Machine.execBenchRequestResend t a s
  | .ceRewrite t word => Sys2Proof.Machine.execCeRewrite t word s
  | .furrowReset t src die plot fur => Sys2Proof.Machine.execFurrowReset t src die plot fur s
  | .furCfgWrite t src die plot fur data => Sys2Proof.Machine.execFurCfgWrite t src die plot fur data s
  | .glasshouseRequest t die bank reqs => Sys2Proof.Machine.execGlasshouseRequest t die bank reqs s
  | .hbmRequest t stack pc reqs => Sys2Proof.Machine.execHbmRequest t stack pc reqs s
  | .rillDescStart t die rill => Sys2Proof.Machine.execRillDescStart t die rill s
  | .barrowClaim t agent q => Sys2Proof.Machine.execBarrowClaim t agent q s
  | .barrowPost t agent q b => Sys2Proof.Machine.execBarrowPost t agent q b s
  | .barrowTake t agent q => Sys2Proof.Machine.execBarrowTake t agent q s
  | .barrowRelease t agent q => Sys2Proof.Machine.execBarrowRelease t agent q s
  | .rillFault t die rill kind => Sys2Proof.Machine.execRillFault t die rill kind s
  | .pageRequestResponse t req success => Sys2Proof.Machine.execPageRequestResponse t req success s
  | .rillResume t src die rill => Sys2Proof.Machine.execRillResume t src die rill s
  | .rillFail t src die rill => Sys2Proof.Machine.execRillFail t src die rill s
  | .rillCancel t src die rill => Sys2Proof.Machine.execRillCancel t src die rill s
  | .cancelDone t die rill => Sys2Proof.Machine.execCancelDone t die rill s
  | .inval t src die rill => Sys2Proof.Machine.execInval t src die rill s
  | .sieveIssue t die sieve => Sys2Proof.Machine.execSieveIssue t die sieve s
  | .sieveStart t die sieve => Sys2Proof.Machine.execSieveStart t die sieve s
  | .sieveRetire t die sieve rows => Sys2Proof.Machine.execSieveRetire t die sieve rows s
  | .trayClear t src die sieve => Sys2Proof.Machine.execTrayClear t src die sieve s
  | .trayClearDone t die sieve => Sys2Proof.Machine.execTrayClearDone t die sieve s
  | .sieveTrayWrite t src die sieve data => Sys2Proof.Machine.execSieveTrayWrite t src die sieve data s
  | .mowerIssue t die => Sys2Proof.Machine.execMowerIssue t die s
  | .mowerNorm t die => Sys2Proof.Machine.execMowerNorm t die s
  | .mowerUpdate t die blocks => Sys2Proof.Machine.execMowerUpdate t die blocks s
  | .mowerCopy t die blocks => Sys2Proof.Machine.execMowerCopy t die blocks s
  | .mowerAdopt t src die => Sys2Proof.Machine.execMowerAdopt t src die s
  | .mowerDiscard t src die => Sys2Proof.Machine.execMowerDiscard t src die s
  | .mowerRetire t die => Sys2Proof.Machine.execMowerRetire t die s
  | .mowerMirrorWrite t src die off data => Sys2Proof.Machine.execMowerMirrorWrite t src die off data s
  | .trugIssue t bed => Sys2Proof.Machine.execTrugIssue t bed s
  | .trugStart t bed => Sys2Proof.Machine.execTrugStart t bed s
  | .trugPacketReceive t port => Sys2Proof.Machine.execTrugPacketReceive t port s
  | .trugInstanceClose t grp bucket => Sys2Proof.Machine.execTrugInstanceClose t grp bucket s
  | .trugPurge t src grp => Sys2Proof.Machine.execTrugPurge t src grp s
  | .groupValidate t src grp => Sys2Proof.Machine.execGroupValidate t src grp s
  | .linkEnable t src port => Sys2Proof.Machine.execLinkEnable t src port s
  | .linkTrainDone t port dev node delay width => Sys2Proof.Machine.execLinkTrainDone t port dev node delay width s
  | .portRetrain t src port => Sys2Proof.Machine.execPortRetrain t src port s
  | .portDown t src port => Sys2Proof.Machine.execPortDown t src port s
  | .portClear t src port => Sys2Proof.Machine.execPortClear t src port s
  | .flitTransmit t port => Sys2Proof.Machine.execFlitTransmit t port s
  | .dataFlitReceive t port bytes => Sys2Proof.Machine.execDataFlitReceive t port bytes s
  | .linkFlitReceive t port bytes => Sys2Proof.Machine.execLinkFlitReceive t port bytes s
  | .replayTimeout t port => Sys2Proof.Machine.execReplayTimeout t port s
  | .gateWrite t port => Sys2Proof.Machine.execGateWrite t port s
  | .gateWriteAck t port => Sys2Proof.Machine.execGateWriteAck t port s
  | .gateWriteNack t port => Sys2Proof.Machine.execGateWriteNack t port s
  | .gateLoad t src gate => Sys2Proof.Machine.execGateLoad t src gate s
  | .gateOpen t by_ gate => Sys2Proof.Machine.execGateOpen t by_ gate s
  | .gateLatch t by_ gate => Sys2Proof.Machine.execGateLatch t by_ gate s
  | .gateAdvance t by_ gate => Sys2Proof.Machine.execGateAdvance t by_ gate s
  | .gateUnload t src gate => Sys2Proof.Machine.execGateUnload t src gate s
  | .gateCmdComplete t gate => Sys2Proof.Machine.execGateCmdComplete t gate s
  | .wadvance t bed l => Sys2Proof.Machine.execWadvance t bed l s
  | .barrier t bed => Sys2Proof.Machine.execBarrier t bed s
  | .barrierTokenReceive t port bytes => Sys2Proof.Machine.execBarrierTokenReceive t port bytes s
  | .sackReceive t port bytes => Sys2Proof.Machine.execSackReceive t port bytes s
  | .tokenRetransmit t group => Sys2Proof.Machine.execTokenRetransmit t group s
  | .configRequest t port fn op => Sys2Proof.Machine.execConfigRequest t port fn op s
  | .bar4Access t port fn off op poisoned => Sys2Proof.Machine.execBar4Access t port fn off op poisoned s
  | .sqTailDoorbell t port fn page value => Sys2Proof.Machine.execSqTailDoorbell t port fn page value s
  | .cqHeadDoorbell t port fn page value => Sys2Proof.Machine.execCqHeadDoorbell t port fn page value s
  | .commandFetch t q bytes => Sys2Proof.Machine.execCommandFetch t q bytes s
  | .hostNop t q cid => Sys2Proof.Machine.execHostNop t q cid s
  | .hostCopy t q cid => Sys2Proof.Machine.execHostCopy t q cid s
  | .hostBedRun t q cid => Sys2Proof.Machine.execHostBedRun t q cid s
  | .hostTrellis t q cid => Sys2Proof.Machine.execHostTrellis t q cid s
  | .hostWaitChime t q cid => Sys2Proof.Machine.execHostWaitChime t q cid s
  | .hostWaitWindows t q cid => Sys2Proof.Machine.execHostWaitWindows t q cid s
  | .hostFirmware t q cid status result => Sys2Proof.Machine.execHostFirmware t q cid status result s
  | .completionWrite t q cid => Sys2Proof.Machine.execCompletionWrite t q cid s
  | .qctxRead t src => Sys2Proof.Machine.execQctxRead t src s
  | .qctxWrite t src => Sys2Proof.Machine.execQctxWrite t src s
  | .qctxAbortAll t src => Sys2Proof.Machine.execQctxAbortAll t src s
  | .qctxReset t src => Sys2Proof.Machine.execQctxReset t src s
  | .queueBedVecWrite t src bed data => Sys2Proof.Machine.execQueueBedVecWrite t src bed data s
  | .vfEnable t port num => Sys2Proof.Machine.execVfEnable t port num s
  | .functionLevelReset t port fn vfs => Sys2Proof.Machine.execFunctionLevelReset t port fn vfs s
  | .perst t port => Sys2Proof.Machine.execPerst t port s
  | .heartbeatSend t l => Sys2Proof.Machine.execHeartbeatSend t l s
  | .heartbeatReceive t l => Sys2Proof.Machine.execHeartbeatReceive t l s
  | .echoRecord t l ok => Sys2Proof.Machine.execEchoRecord t l ok s
  | .resyncDone t l => Sys2Proof.Machine.execResyncDone t l s
  | .heartbeatTimeout t l => Sys2Proof.Machine.execHeartbeatTimeout t l s
  | .election t l => Sys2Proof.Machine.execElection t l s
  | .claimReceive t die l => Sys2Proof.Machine.execClaimReceive t die l s
  | .claimAnswer t l die => Sys2Proof.Machine.execClaimAnswer t l die s
  | .claimResolve t l => Sys2Proof.Machine.execClaimResolve t l s
  | .claimRepeat t l => Sys2Proof.Machine.execClaimRepeat t l s
  | .dieControlWrite t l epoch w => Sys2Proof.Machine.execDieControlWrite t l epoch w s
  | .wardenFence t l => Sys2Proof.Machine.execWardenFence t l s
  | .wardenYield t src => Sys2Proof.Machine.execWardenYield t src s
  | .wardenResync t src => Sys2Proof.Machine.execWardenResync t src s
  | .oscWaitEnd t l => Sys2Proof.Machine.execOscWaitEnd t l s
  | .sundialWindow t l count => Sys2Proof.Machine.execSundialWindow t l count s
  | .pllLockDone t l => Sys2Proof.Machine.execPllLockDone t l s
  | .clkSelect t src sel port => Sys2Proof.Machine.execClkSelect t src sel port s
  | .switchPhaseEnd t l => Sys2Proof.Machine.execSwitchPhaseEnd t l s
  | .rampStep t l => Sys2Proof.Machine.execRampStep t l s
  | .intOscLoss t l => Sys2Proof.Machine.execIntOscLoss t l s
  | .frostClear t src => Sys2Proof.Machine.execFrostClear t src s
  | .clkenWrite t src off data => Sys2Proof.Machine.execClkenWrite t src off data s
  | .clkenApply t => Sys2Proof.Machine.execClkenApply t s
  | .scrubRead t u => Sys2Proof.Machine.execScrubRead t u s
  | .controlStateMismatch t m => Sys2Proof.Machine.execControlStateMismatch t m s
  | .faultPop t src => Sys2Proof.Machine.execFaultPop t src s
  | .faultClear t src => Sys2Proof.Machine.execFaultClear t src s
  | .pwrgdRise t s0 s1 => Sys2Proof.Machine.execPwrgdRise t s0 s1 s
  | .hbmAttemptEnd t stack step cause rows => Sys2Proof.Machine.execHbmAttemptEnd t stack step cause rows s
  | .advanceCtr t src ctr => Sys2Proof.Machine.execAdvanceCtr t src ctr s
  | .advanceCtrDone t l ok => Sys2Proof.Machine.execAdvanceCtrDone t l ok s
  | .hintWrite t src => Sys2Proof.Machine.execHintWrite t src s
  | .spdmRequest t l bytes => Sys2Proof.Machine.execSpdmRequest t l bytes s
  | .powerActive t src => Sys2Proof.Machine.execPowerActive t src s
  | .powerIdle t src => Sys2Proof.Machine.execPowerIdle t src s
  | .powerDormant t src => Sys2Proof.Machine.execPowerDormant t src s
  | .dormantEntryDone t => Sys2Proof.Machine.execDormantEntryDone t s
  | .powerWake t how => Sys2Proof.Machine.execPowerWake t how s
  | .wakeTimer t => Sys2Proof.Machine.execWakeTimer t s
  | .dormantExitDone t refOk fwOk => Sys2Proof.Machine.execDormantExitDone t refOk fwOk s
  | .wardTick t watts dies => Sys2Proof.Machine.execWardTick t watts dies s
  | .thermalRead t temps => Sys2Proof.Machine.execThermalRead t temps s
  | .emergencyStop t cause => Sys2Proof.Machine.execEmergencyStop t cause s
  | .thermTripInput t => Sys2Proof.Machine.execThermTripInput t s
  | .vin48Fault t millivolts => Sys2Proof.Machine.execVin48Fault t millivolts s
  | .regulatorFault t => Sys2Proof.Machine.execRegulatorFault t s
  | .vauxLoss t => Sys2Proof.Machine.execVauxLoss t s
  | .pwrgdFall t => Sys2Proof.Machine.execPwrgdFall t s
  | .startStepEnd t l r => Sys2Proof.Machine.execStartStepEnd t l r s
  | .linkTrainFail t port => Sys2Proof.Machine.execLinkTrainFail t port s
  | .pcieCompletionReceive t req st bytes ep => Sys2Proof.Machine.execPcieCompletionReceive t req st bytes ep s
  | .keeperWatchdog t l core => Sys2Proof.Machine.execKeeperWatchdog t l core s
  | .vauxApply t => Sys2Proof.Machine.execVauxApply t s
  | .chimeOutFall t => Sys2Proof.Machine.execChimeOutFall t s

end Machine
end Sys2Proof
end

