-- ==== Sys2Proof/Safety.lean ====
section
/-! DEFINITION. The terms in which claims about the block are stated: when a command of a block runs, when a write is
accepted, what the device is after it, and the canonical form of its memories. -/
namespace Sys2Proof
namespace Machine

/-- Block `b` runs commands: its reserved-live bits hold their documented values (04 R100), and it has power. -/
def State.live (s : State) (b : Blk) : Bool := !s.dev.altered b && !s.dev.dark b

/-- No step of the state can stop: no block's reserved-live bits are altered (04 R100). -/
def State.safe (s : State) : Prop := ∀ b : Blk, s.dev.altered b = false

/-- The sender's pair is the one that the die of block `b` holds; a block of no die holds none (16 R387). -/
def Dev.pairHeld (d : Dev) (l : Nat) (b : Blk) : Bool :=
  match b.dieOf with
  | none => true
  | some k => d.diePair k == d.lodgePair l

/-- An access of `src` reaches the blocks: a host's does when the device is not asleep to it (20 R449), has READY (15 R360) and
has the function (15 R375). -/
def State.reached (s : State) (src : Source) : Bool :=
  !(src.isHost && s.dev.asleep) && s.dev.answers src && !s.dev.noSuchFn src

/-- A write has its effect at register `o` of block `b`: no error of Table 4.4 holds of it; the register exists for its sender;
the sender is the lodge whose shared state stands (16 R384), and a die block's die holds its pair (16 R387). -/
def State.writable (s : State) (w : WriteAccess) (b : Blk) (o : Nat) : Bool :=
  (s.dev.writeErr w).isNone && w.src.lists b o && !s.dev.lostCopy w.src b o && s.dev.pairHeld w.src.lodge b

/-- A write runs at block `b` and has its effect: the block has power, the write reaches it, is aimed at it and is in order. -/
def State.acceptsWrite (s : State) (w : WriteAccess) (b : Blk) : Bool :=
  !s.dev.dark b && s.reached w.src && decide (target w.src w.addr = some (b, false)) &&
    s.writable w b (w.addr % 0x4000)

/-- A command that is a write from `src` to register `o` of block `b` runs and has its effect: as above, and the block's
reserved-live bits hold their documented values (04 R100). -/
def State.accepts (s : State) (src : Source) (b : Blk) (o : Nat) : Bool :=
  s.live b && s.reached src && s.writable (wordWrite src b o) b o

/-- A read of 4 bytes from `src` at BAR0 offset `a` runs and meets no error of Table 4.4 at block `b`. -/
def State.acceptsRead (s : State) (src : Source) (b : Blk) (a : Nat) : Bool :=
  s.live b && s.reached src && decide (target src a = some (b, false)) &&
    (s.dev.readErr src a 4).isNone

/-- The device at instant `t` once a write from `src` to block `b` has been accepted and before its effect: an IDLE device is
ACTIVE where the block was stopped (20 R444), the sender is answered, and a new warden's first write to a die is noted
(16 R390). -/
def State.written (s : State) (t : Nat) (src : Source) (b : Blk) : Dev :=
  let d := ((s.dev.touch t).wakeIdle b).emit [.answer src .done]
  if b.dieOf.isSome then d.noteFirstWrite src.lodge else d

/-- What is stored under the hedge code: the bytes of device HBM, the glasshouses and the benches, and the syndromes of the
words that are not clean. -/
def Dev.mems (d : Dev) : List Host.Cell × List Host.Cell × List Host.Cell × Tbl (BitVec 8) := (d.hbm, d.gh, d.bench, d.synd)

/-- A memory in canonical form: addresses rising strictly, no cell equal to what an unlisted address reads as. -/
def Memory.wf (m : List Host.Cell) : Bool := Tbl.wf cell0 m

/-- Each memory is, and so are the syndromes. -/
def Mems.wf (m : List Host.Cell × List Host.Cell × List Host.Cell × Tbl (BitVec 8)) : Bool :=
  Memory.wf m.1 && Memory.wf m.2.1 && Memory.wf m.2.2.1 && Tbl.wf (fun _ => 0#8) m.2.2.2

/-- Every memory of the device is in canonical form. -/
def Dev.memWf (d : Dev) : Bool := Mems.wf d.mems

end Machine
end Sys2Proof
end

