-- ==== Sys2Proof/Certificates/Slice0/Obligations.lean ====
section
/-! DEFINITION. The statements for the provers: what every command of the block does where it completes, the register conventions, the
memories, the log, the encodings and the invariant of a step. -/
open Sys2Proof Sys2Proof.Machine

/-- 04 R98, R101: an accepted write takes effect at once in a block that is not posted, and in a posted block is held until it
is applied; POSTED_WRITE_APPLY applies it and clears BUSY.
Completion (the conclusion is a next state, under conditions on the state and the operands alone): registerWrite, postedWriteApply. -/
def Obligations.RegisterWritesComplete : Prop :=
  (∀ (s : State) (t : Nat) (w : WriteAccess) (b : Blk), s.acceptsWrite w b → b.posted = false →
    exec (.registerWrite t w) s = .next ⟨s.pending,
      (s.written t w.src b).regWritten w.src b (w.addr % 0x4000) (aliasOf w.addr) w.data⟩) ∧
  (∀ (s : State) (t : Nat) (w : WriteAccess) (b : Blk), s.acceptsWrite w b → b.posted = true →
    exec (.registerWrite t w) s = .next ⟨s.pending, { s.written t w.src b with
      posted := Tbl.set (fun _ => none) s.dev.posted b.base
        (some ⟨w.addr % 0x4000, (aliasOf w.addr).code, w.data, w.src⟩) }⟩) ∧
  (∀ (s : State) (t : Nat) (b : Blk) (p : PWrite), Tbl.get (fun _ => none) s.dev.posted b.base = some p →
    exec (.postedWriteApply t b) s = .next ⟨s.pending,
      ({ s.dev.touch t with posted := Tbl.set (fun _ => none) s.dev.posted b.base none }).regWritten
        p.src b p.off (aliasOfCode p.form) p.data⟩)

/-- 04 R98, Tables 4.1, 4.2: what each alias of a write leaves in every bit of a register: a stored bit (RW, PW, RSVL) takes the
datum, is set, cleared or inverted; a W1C bit is cleared by a 1 in the base and CLR aliases; every other bit stays. R99: a command
starts on a base write alone. -/
def Obligations.AliasesFollowTable42 : Prop :=
  ∀ (b : Blk) (o : Nat) (data old : Word) (i : Nat), i < 32 →
    let stored := (b.storedMask o).testBit i
    let w1c := (b.w1cMask o).testBit i
    (writeMerge b o .base data old).getLsbD i =
        (if stored then data.getLsbD i else if w1c && data.getLsbD i then false else old.getLsbD i) ∧
    (writeMerge b o .set data old).getLsbD i = (if stored && data.getLsbD i then true else old.getLsbD i) ∧
    (writeMerge b o .clr data old).getLsbD i = (if (stored || w1c) && data.getLsbD i then false else old.getLsbD i) ∧
    (writeMerge b o .tog data old).getLsbD i = (if stored && data.getLsbD i then !old.getLsbD i else old.getLsbD i) ∧
    (writeCmd b o .base data).getLsbD i = ((b.cmdMask o).testBit i && data.getLsbD i) ∧
    writeCmd b o .set data = 0#32 ∧ writeCmd b o .clr data = 0#32 ∧ writeCmd b o .tog data = 0#32

/-- 04 R93: a read of CHIME_COUNT_LO answers the low word and latches the high one; a read of POWER_MEAS answers the readings and
restarts the PEAK_W maximum; nothing else changes. R444: an access to a block whose clock IDLE has stopped returns the device to
ACTIVE and completes.
Completion (the conclusion is a next state, under conditions on the state and the operands alone): chimeCountLoRead, powerMeasRead,
idleBlockAccess. -/
def Obligations.ReadsComplete : Prop :=
  (∀ (s : State) (t : Nat) (src : Source), s.acceptsRead src .chime 0x3000C →
    exec (.chimeCountLoRead t src) s = .next ⟨s.pending,
      ({ s.dev.touch t with chime := { s.dev.chime with hiLatch := (s.dev.chime.count >>> 32).setWidth 32 } }).emit
        [.answer src (.value (s.dev.chime.count.toNat % 2 ^ 32))]⟩) ∧
  (∀ (s : State) (t : Nat) (src : Source), s.acceptsRead src .power 0x50010 →
    exec (.powerMeasRead t src) s = .next ⟨s.pending,
      ((s.dev.touch t).setFld .power Reg.POWER_MEAS.PEAK_W 0).emit
        [.answer src (.value (s.dev.word .power 0x10).toNat)]⟩) ∧
  (∀ (s : State) (t : Nat) (w : WriteAccess) (b : Blk), s.live b → s.reached w.src → w.src.isVf = false → w.size ≠ 8 → s.dev.readErr w.src w.addr w.size = none →
    target w.src w.addr = some (b, false) → b.idleStops = true → s.dev.powerState = 1 →
    exec (.idleBlockAccess t false w) s = .next ⟨s.pending,
      ((s.dev.touch t).setPower 0).emit [.answer w.src (.value
        (readPart ((s.dev.touch t).readReg b (w.addr % 0x4000 / 4 * 4)).toNat w.addr w.size))]⟩) ∧
  (∀ (s : State) (t : Nat) (w : WriteAccess) (b : Blk), s.acceptsWrite w b → s.dev.altered b = false →
    b.idleStops = true → s.dev.powerState = 1 →
    exec (.idleBlockAccess t true w) s = .next ⟨s.pending,
      ((((s.dev.touch t).setPower 0).emit [.answer w.src .done]).noteFirstWrite w.src.lodge).regWritten
        w.src b (w.addr % 0x4000) (aliasOf w.addr) w.data⟩)

/-- 02 R474, R40, R30, R29: writes that set or clear ENABLE, change SRC, or change PERIOD_NS. Setting ENABLE starts the generator at
that instant; clearing it stops the generator, clears FREERUN and keeps the number; a change of SRC clears FREERUN and what the old
source announced; SRC = 3 and a period outside 1,000 to 10,000,000 ns are rejected whole with PREJ.
Completion (the conclusion is a next state, under conditions on the state and the operands alone): chimeEnableSet, chimeEnableClear,
chimeSourceChange, chimePeriodWrite. -/
def Obligations.ChimeRegisterWritesComplete : Prop :=
  (∀ (s : State) (t : Nat) (src : Source), s.accepts src .chime 0x0 → s.dev.fld .chime Reg.CHIME_CTL.SRC ≠ 3 →
    let d := (s.written t src .chime).setWord .chime 0x0 (s.dev.word .chime 0x0 ||| 1#32)
    exec (.chimeEnableSet t src) s = .next ⟨s.pending,
      if s.dev.chimeEnabled then d
      else { d with chime := { s.dev.chime with prev := max s.dev.now t, fromEnable := true, openPeriod := s.dev.period,
                                                due := [], emitted := 0, srcFrom := max s.dev.now t,
                                                emitFrom := max s.dev.now t } }⟩) ∧
  (∀ (s : State) (t : Nat) (src : Source), s.accepts src .chime 0x0 → s.dev.fld .chime Reg.CHIME_CTL.SRC ≠ 3 →
    let d := (s.written t src .chime).setWord .chime 0x0 (s.dev.word .chime 0x0 &&& ~~~1#32)
    exec (.chimeEnableClear t src) s = .next ⟨s.pending,
      if s.dev.chimeEnabled then
        { d.setFld .chime Reg.CHIME_STS.FREERUN 0 with chime := { s.dev.chime with due := [] }, chimeOut := false }
      else d⟩) ∧
  (∀ (s : State) (t : Nat) (src : Source) (sel : BitVec 2), s.accepts src .chime 0x0 → sel ≠ 3#2 →
    let d := (s.written t src .chime).setWord .chime 0x0
      (BitVec.ofNat 32 (putBits (s.dev.word .chime 0x0).toNat 2 1 sel.toNat))
    exec (.chimeSourceChange t src sel) s = .next ⟨s.pending,
      if sel.toNat = s.dev.fld .chime Reg.CHIME_CTL.SRC then d
      else { (d.setFld .chime Reg.CHIME_STS.FREERUN 0).setFld .chime Reg.CHIME_STS.SRC_ACT sel.toNat with
             chime := { s.dev.chime with due := [], emitted := 0, srcFrom := max s.dev.now t, emitFrom := max s.dev.now t } }⟩) ∧
  (∀ (s : State) (t : Nat) (src : Source), s.accepts src .chime 0x0 →
    exec (.chimeSourceChange t src 3#2) s = .next ⟨s.pending,
      (s.written t src .chime).setFld .chime Reg.CHIME_STS.PREJ 1⟩) ∧
  (∀ (s : State) (t : Nat) (src : Source) (p : BitVec 24), s.accepts src .chime 0x4 →
    exec (.chimePeriodWrite t src p) s = .next ⟨s.pending,
      if 1000 ≤ p.toNat ∧ p.toNat ≤ 10000000 then
        (s.written t src .chime).setWord .chime 0x4 (BitVec.ofNat 32 (putBits (s.dev.word .chime 0x4).toNat 23 0 p.toNat))
      else (s.written t src .chime).setFld .chime Reg.CHIME_STS.PREJ 1⟩)

/-- 02 R33, R37, R39, R40, R469: a chime fires at its due instant, with the number that its marker carried or one more than the last;
from its own count when neither a marker nor an edge fires one by the end of the interval. The window that opens has the period in force,
and the fire times that are still to come stand (where the spec leaves the instants open: entries 59 to 61).
Completion (the conclusion is a next state, under conditions on the state and the operands alone): chime, markerMiss, chimeInMiss. -/
def Obligations.ChimesFire : Prop :=
  (∀ (s : State) (t T : Nat), s.live .chime → s.dev.nextDue t = some T → T ≤ t →
    ∃ d : Dev, exec (.chime t) s = .next ⟨s.pending, d⟩ ∧
      d.chime.count = ((s.dev.markedDue t).bind (fun f => f.2)).getD s.dev.chime.nextNumber ∧
      d.chime.started = true ∧ d.chime.prev = T ∧ d.chime.fromEnable = false ∧
      d.chime.due = s.dev.chime.due.filter (fun f => decide (T < f.1))) ∧
  (∀ (s : State) (t : Nat), s.live .chime → s.dev.chimeOn = true →
    s.dev.isSet .chime Reg.CHIME_STS.FREERUN = false → s.dev.markedDue t = none → s.dev.missAt t ≤ t →
    let fired (d : Dev) : Prop :=
      d.chime.count = s.dev.chime.nextNumber ∧ d.chime.started = true ∧ d.chime.prev = s.dev.missAt t ∧
      d.chime.due = s.dev.chime.due.filter (fun f => decide (s.dev.missAt t < f.1))
    (s.dev.fld .chime Reg.CHIME_CTL.SRC = 1 → ∃ d : Dev, exec (.markerMiss t) s = .next ⟨s.pending, d⟩ ∧ fired d) ∧
    (s.dev.fld .chime Reg.CHIME_CTL.SRC = 2 → ∃ d : Dev, exec (.chimeInMiss t) s = .next ⟨s.pending, d⟩ ∧ fired d))

/-- 02 R35, R36, R37, R38, R41, R469: the closing point samples every open window for the chime that is due; in LOCAL mode a marker is queued
on every port of MKR_EMIT that is UP, LEAD_NS before its chime or with the lead left at the enabling write; in MARKER mode a marker of
positive lead sets its chime's instant and number, and in PIN mode an edge sets it PIN_DELAY ns later, or either is early and only sets
MEARLY; CHIME_OUT falls 100 ns after the chime (where the spec leaves a point open: entries 62 to 64).
Completion (the conclusion is a next state, under conditions on the state and the operands alone): closingPoint, markerEmit,
markerReceive, chimeInEdge, chimeOutFall. -/
def Obligations.ChimeEventsComplete : Prop :=
  (∀ (s : State) (t T b : Nat) (x : Bed), s.live .chime → s.dev.nextDue (t + 64 * 64) = some T → T ≤ t + 64 * 64 →
    let d0 := s.dev.touch t
    d0.bed b = some x →
    ∃ d : Dev, exec (.closingPoint t) s = .next ⟨s.pending, d⟩ ∧
      d.bed b = some (if x.openT.isSome then { x with sample := some (T, d0.retiredBy b x T) } else x) ∧
      d.items = d0.items ∧ d.toIssue = d0.toIssue ∧ d.mems = s.dev.mems ∧ d.regs = s.dev.regs) ∧
  (∀ (s : State) (t : Nat), s.live .chime → s.dev.chimeOn = true → s.dev.fld .chime Reg.CHIME_CTL.SRC = 0 →
    let T := s.dev.nextUnemitted
    let e := max s.dev.chime.emitFrom (T - s.dev.fld .chime Reg.CHIME_LEAD.LEAD_NS * 64)
    e ≤ t →
    ∃ d : Dev, exec (.markerEmit t) s = .next ⟨s.pending, d⟩ ∧
      d.chime = { s.dev.chime with emitted := s.dev.chime.emitted + 1 } ∧ d.regs = s.dev.regs ∧ d.mems = s.dev.mems ∧
      ∀ p, p ∈ s.dev.markerPorts → s.dev.portUp p = true → ShortFlit.marker
        (s.dev.chime.nextNumber + BitVec.ofNat 64 s.dev.chime.emitted) (.fixed ((T - e) / 4)) s.dev.devId 0 ∈ (d.port p).short) ∧
  (∀ (s : State) (t port : Nat) (bytes q : List Byte), s.live .chime → s.dev.portUp port = true →
    ((s.dev.touch t).recvShort port 0 bytes).2 = some q →
    bitsOf (numAt q 8 8) 63 56 = 0 → (q.drop 16).all (fun b => b == 0#8) = true →
    let lead := (BitVec.ofNat 32 (numAt q 8 8)).toInt
    let F := (Int.ofNat t + lead * 4).toNat
    0 < lead → s.dev.chimeOn = true → s.dev.fld .chime Reg.CHIME_CTL.SRC = 1 →
    s.dev.fld .chime Reg.CHIME_CTL.MKR_PORT = port → s.dev.tooEarly F = false →
    ∃ d : Dev, exec (.markerReceive t port bytes) s = .next ⟨s.pending, d⟩ ∧
      d.chime = { s.dev.chime with due := insertBy (F, some (BitVec.ofNat 64 (numAt q 0 8))) s.dev.chime.due } ∧
      d.mems = s.dev.mems) ∧
  (∀ (s : State) (t : Nat), s.live .chime → s.dev.chimeOn = true → s.dev.fld .chime Reg.CHIME_CTL.SRC = 2 →
    let F := t + s.dev.fld .chime Reg.CHIME_PIN.PIN_DELAY * 64
    exec (.chimeInEdge t) s = .next ⟨s.pending,
      if s.dev.tooEarly F then (s.dev.touch t).setFld .chime Reg.CHIME_STS.MEARLY 1
      else { s.dev.touch t with chime := { s.dev.chime with due := insertBy (F, none) s.dev.chime.due } }⟩) ∧
  (∀ (s : State) (t : Nat), s.live .chime → s.dev.chime.prev + 100 * 64 ≤ t →
    exec (.chimeOutFall t) s = .next ⟨s.pending, { s.dev.touch t with chimeOut := false }⟩)

/-- 02 R45, R57, R58: a write of RUN at the bed's lowest die starts or stops its issue, RUN rising at this instant; at another die it changes
nothing of the bed and sets MIRROR_WR; the first held item of an engine below its limit is sent.
Completion (the conclusion is a next state, under conditions on the state and the operands alone): heldItemIssue, bedRunSet, bedRunClear. -/
def Obligations.ShedCommandsComplete : Prop :=
  (∀ (s : State) (t : Nat) (src : Source) (die slot b : Nat) (x : Bed), s.accepts src (.shed die) (slotOff slot) →
    let d := s.written t src (.shed die)
    d.bedAtSlot die slot = some b → d.bed b = some x → x.slipLimit < 16 →
    let w := d.setWord (.shed die) (slotOff slot) (d.bedCtl die slot ||| 1#32)
    exec (.bedRunSet t src die slot) s = .next ⟨s.pending,
      if die = x.lowDie then w.setBed b (some { x with run := true, runAt := if x.run then x.runAt else max s.dev.now t })
      else if x.run then w else w.setFld (.shed die) Reg.SHED_STS.MIRROR_WR 1⟩) ∧
  (∀ (s : State) (t : Nat) (src : Source) (die slot b : Nat) (x : Bed), s.accepts src (.shed die) (slotOff slot) →
    let d := s.written t src (.shed die)
    d.bedAtSlot die slot = some b → d.bed b = some x → x.slipLimit < 16 →
    let w := d.setWord (.shed die) (slotOff slot) (d.bedCtl die slot &&& ~~~1#32)
    exec (.bedRunClear t src die slot) s = .next ⟨s.pending,
      if die = x.lowDie then w.setBed b (some { x with run := false })
      else if x.run then w.setFld (.shed die) Reg.SHED_STS.MIRROR_WR 1 else w⟩) ∧
  (∀ (s : State) (t die unit : Nat) (kind : Kind) (i : Item), s.live (.shed die) →
    let d := s.dev.touch t
    d.firstHeld die kind unit = some i → d.atLimit i.bed die i.cfg = false →
    exec (.heldItemIssue t die kind unit) s = .next ⟨s.pending, { d with
      items := d.items.map (fun j => if j.seq = i.seq then { j with held := false } else j) }⟩)

/-- 03 R77, R84, R88: LOAD and REPLANT begin VERIFY of an idle loader (LOAD only while no bed runs), ABORT leaves VERIFY or ARMED with
ABORTED; a LOAD while a bed runs is refused with BEDS_RUNNING and any command of a busy loader with LOADER_BUSY.
Completion (the conclusion is a next state, under conditions on the state and the operands alone): trellisLoad, trellisReplant,
trellisAbort. -/
def Obligations.LoaderCommandsComplete : Prop :=
  (∀ (s : State) (t : Nat) (src : Source), s.accepts src .trellis 0x0 → s.dev.lstate = 0 →
    let d := (s.written t src .trellis).setWord .trellis 0x0 (s.dev.word .trellis 0x0)
    exec (.trellisLoad t src) s = .next ⟨s.pending,
      if d.bedsRunning then d.loaderErr ⟨noSec, LCode.bedsRunning, 0⟩
      else { d.setLstate 1 with loader := { LoaderSt.start with
        op := some .load, counter := s.dev.trellisCounter, awaiting := s.dev.loader.awaiting } }⟩) ∧
  (∀ (s : State) (t : Nat) (src : Source) (bed : BitVec 6), s.accepts src .trellis 0x0 → s.dev.lstate = 0 →
    let d := (s.written t src .trellis).setWord .trellis 0x0
      (BitVec.ofNat 32 (putBits (s.dev.word .trellis 0x0).toNat 21 16 bed.toNat))
    exec (.trellisReplant t src bed) s = .next ⟨s.pending,
      { (d.setLstate 1).setFld .trellis Reg.TRELLIS_STS.LBED bed.toNat with loader := { LoaderSt.start with
        op := some .replant, bed := bed.toNat, counter := s.dev.trellisCounter, awaiting := s.dev.loader.awaiting } }⟩) ∧
  (∀ (s : State) (t : Nat) (src : Source), s.accepts src .trellis 0x0 → s.dev.lstate = 1 ∨ s.dev.lstate = 2 →
    let d := (s.written t src .trellis).setWord .trellis 0x0 (s.dev.word .trellis 0x0)
    exec (.trellisAbort t src) s = .next ⟨s.pending, (d.loaderErr ⟨noSec, LCode.aborted, 0⟩).loaderIdle⟩) ∧
  (∀ (s : State) (t : Nat) (src : Source), s.accepts src .trellis 0x0 → s.dev.lstate ≠ 0 →
    let d := (s.written t src .trellis).setWord .trellis 0x0 (s.dev.word .trellis 0x0)
    exec (.trellisLoad t src) s = .next ⟨s.pending, d.loaderErr ⟨noSec, LCode.loaderBusy, 0⟩⟩)

/-- 03 R79, R80, R84 to R87, R89, 16 R384: a verified full image takes effect with every bed in it fresh and no item left, and a refused one
leaves the beds, their items and memory as they were; a verified replant arms, drains, and reconfigures its bed alone, once the bed's
Sieve and Mower commands have retired (entry 74). The loader's writes to the dies have their effect where the dies hold the warden's
pair.
Completion (the conclusion is a next state, under conditions on the state and the operands alone): trellisLoadDone, replantArmed,
replantDrainEnd, replantConfigEnd. -/
def Obligations.LoaderOperationsComplete : Prop :=
  (∀ (s : State) (t : Nat) (h : Header) (es : List DirEntry) (bs : List (Nat × BedCfg)) (dig : Nat), s.live .trellis →
    let d0 := s.dev.touch t
    s.dev.lstate = 1 → s.dev.loader.op = some .load → d0.bedsRunning = false →
    (∀ k, k < 8 → s.dev.diePair k = s.dev.lodgePair s.dev.wardenLodge) →
    d0.checkStaged false = .ok (h, es, bs, dig) → checkFull d0.staged (d0.loadView true) es bs = .ok () →
    bs.Pairwise (fun x y => x.1 ≠ y.1) →
    ∃ d : Dev, exec (.trellisLoadDone t) s = .next ⟨s.pending, d⟩ ∧
      (∀ x ∈ bs, d.bed x.1 = some (Bed.fresh x.2 (fullSlots bs x.1 x.2))) ∧
      d.items = [] ∧ d.toIssue = [] ∧ d.loader.op = none ∧ d.arrFail = s.dev.mergedArr ∧ d.mems = s.dev.mems ∧
      d.chime = s.dev.chime) ∧
  (∀ (s : State) (t : Nat) (e : LErr), s.live .trellis →
    let d0 := s.dev.touch t
    s.dev.lstate = 1 → s.dev.loader.op = some .load → d0.bedsRunning = false → d0.checkStaged false = .error e →
    ∃ d : Dev, exec (.trellisLoadDone t) s = .next ⟨s.pending, d⟩ ∧
      d.beds = d0.beds ∧ d.items = d0.items ∧ d.plots = s.dev.plots ∧ d.mems = s.dev.mems ∧ d.loader.op = none) ∧
  (∀ (s : State) (t n : Nat) (h : Header) (es : List DirEntry) (c : BedCfg) (dig : Nat) (x : Bed), s.live .trellis →
    let d := s.dev.touch t
    s.dev.lstate = 1 → s.dev.loader.op = some .replant → d.stagingOk s.dev.loader.bed = true →
    d.checkStaged true = .ok (h, es, [(n, c)], dig) → d.checkReplant es s.dev.loader.bed c = .ok () →
    d.bed s.dev.loader.bed = some x →
    let d1 : Dev := { d.setLstate 2 with loader := { s.dev.loader with
      cfg := some c, digest := dig, armT := max s.dev.now t, drained := false } }
    exec (.replantArmed t) s = .next ⟨s.pending,
      if x.state = .idle ∨ x.state = .halted then d1.beginConfig s.dev.loader.bed else d1⟩) ∧
  (∀ (s : State) (t : Nat), s.live .trellis → s.dev.lstate = 3 →
    let d := s.dev.touch t
    (s.dev.loader.drained = true ∨ d.items.any (fun i => i.bed == s.dev.loader.bed) = false) →
    exec (.replantDrainEnd t) s = .next ⟨s.pending, (d.endItems s.dev.loader.bed).setLstate 4⟩) ∧
  (∀ (s : State) (t : Nat), s.live .trellis → s.dev.lstate = 4 →
    let d0 := s.dev.touch t
    (∀ k, k < 8 → s.dev.diePair k = s.dev.lodgePair s.dev.wardenLodge) → d0.commandsLeft s.dev.loader.bed = false →
    ∃ d : Dev, exec (.replantConfigEnd t) s = .next ⟨s.pending, d⟩ ∧
      d.beds = Tbl.set (fun _ => none) d0.beds s.dev.loader.bed
        (s.dev.loader.cfg.map (fun c => d0.replanted s.dev.loader.bed c)) ∧
      d.items = d0.items.filter (fun i => i.bed != s.dev.loader.bed) ∧
      d.toIssue = d0.toIssue.filter (fun q => q.bed != s.dev.loader.bed) ∧ d.loader.op = none ∧ d.mems = s.dev.mems)

/-- 07 R175, R177, R181, R182: a plot accepts the next PASS item that passes every check and refuses, halting the bed, one that fails a
check; the tile of the next LOAD = 1 pass is read into the free shadow bank from a claimed range, and stands there when it is loaded.
Completion (the conclusion is a next state, under conditions on the state and the operands alone): passIssue, stationaryLoad,
stationaryLoadDone. -/
def Obligations.PassesIssueAndLoad : Prop :=
  (∀ (s : State) (t die plot L : Nat) (i : Item) (b : Bed), s.live (.plot die plot) →
    let d := (s.dev.touch t).settle die plot
    d.logicalOf die plot = some L → d.nextItem die .pass (L % 64) = some i → d.bed i.bed = some b →
    let c := PassCmd.ofBytes i.cfg.cmd
    let code := d.passRefusal die plot i.bed b.cfg c
    exec (.passIssue t die plot) s = .next ⟨s.pending,
      if code = 0 then (d.acceptItem i.seq).modPlot die plot (fun p => { p with
        passes := p.passes ++ [⟨i.seq, i.bed, i.cfg.cmd, i.cfg.ext, .accepted, 0, [], 0, 0, none, none, none, none, none,
          none, false, 0, c.load && c.flow != 2, none⟩] })
      else d.refusePass die plot i.bed i.seq code⟩) ∧
  (∀ (s : State) (t die plot base : Nat) (x : Pass) (c : BedCfg) (a : BenchAccess), s.live (.plot die plot) →
    let d := (s.dev.touch t).settle die plot
    d.fld (.plot die plot) Reg.PLOT_STS.STATE ≠ 4 → (d.plot die plot).shadowFree coreCycle d.now = true →
    (d.plot die plot).passes.find? (fun x => x.loads && x.stage == .accepted) = some x →
    x.sBase = none → d.passCfg x = some c →
    d.passAccess die plot x.fields.furS false (x.fields.tileBytes c.exact) = some a → (d.request a).2 = some base →
    exec (.stationaryLoad t die plot) s = .next ⟨s.pending, (d.request a).1.beginLoad die plot x c.exact base⟩) ∧
  (∀ (s : State) (t die plot rd rp rf rb rn : Nat) (x : Pass) (c : BedCfg), s.live (.plot die plot) →
    let d := (s.dev.touch t).settle die plot
    (d.plot die plot).passes.find? (fun x => x.stage == .loading) = some x → d.passCfg x = some c →
    d.tileRange die plot x c.exact = some (rd, rp, rf, rb, rn) → x.linkMark = none →
    exec (.stationaryLoadDone t die plot) s = .next ⟨s.pending,
      ((((d.noteWords x.bed (d.furWords rd rp rf rb rn)).modPass die plot x.seq (fun y => { y with stage := .ready })).modPlot
        die plot (fun p => { p with shadowTile := d.furLanes rd rp rf rb rn })).setFld (.plot die plot)
          Reg.PLOT_STS.SHADOW_VALID 1).countSat (.plot die plot) Reg.PLOT_NBR_WAIT.CYCLES 0⟩)

/-- 07 R171 to R176, R210: a pass whose tile, barrow slot, output range and first vector are there starts, taking the live tile, and its
vector 0 enters; each later vector enters c core cycles after the one before it or later; the oldest pass retires once all have
entered and c · K + 86 cycles have passed since the first.
Completion (the conclusion is a next state, under conditions on the state and the operands alone): passStart, movingVectorArrive,
passRetire. -/
def Obligations.PassesRun : Prop :=
  (∀ (s : State) (t die plot : Nat) (x y z : Pass) (c : BedCfg), s.live (.plot die plot) →
    let d := (s.dev.touch t).settle die plot
    let d1 := (d.passSlot die plot x).1
    let d2 := (d1.passOutput die plot x).1
    let d4 := ((d2.passImages die plot y c.exact).takeTile die plot y c.exact).modPass die plot x.seq (fun z => { z with
      stage := .running, startT := d.now })
    let d5 := d4.enterVector die plot z c.exact
    (d.plot die plot).nextPass = some x → d.passCfg x = some c →
    (d.fld (.plot die plot) Reg.PLOT_STS.STATE < 2 ∨ d.fld (.plot die plot) Reg.PLOT_STS.STATE = 2 ∧ x.replay = true) →
    (d.plot die plot).mayStart x c.exact d.now = true → d.startRefusal die plot x c.exact = 0 →
    (d.passSlot die plot x).2 = true → (d1.passOutput die plot x).2 = true →
    (d2.plot die plot).passes.find? (fun y => y.seq == x.seq) = some y →
    (y.entered = y.fed → d2.vectorNeeds die plot y y.fields c.exact 0 = none) →
    (d4.plot die plot).passes.find? (fun z => z.seq == x.seq) = some z →
    (d5.plot die plot).passes.any (fun q => q.seq == x.seq && q.entered != 0) = true →
    exec (.passStart t die plot) s = .next ⟨s.pending, d5⟩) ∧
  (∀ (s : State) (t die plot : Nat) (x : Pass) (c : BedCfg), s.live (.plot die plot) →
    let d := (s.dev.touch t).settle die plot
    let d1 := d.enterVector die plot x c.exact
    (d.plot die plot).passes.find? (fun x => x.running && decide (x.entered < x.fields.k)) = some x →
    d.passCfg x = some c → x.startT + x.fields.cyc c.exact * x.entered * coreCycle ≤ d.now →
    (d1.plot die plot).passes.any (fun x => x.replay) = false →
    exec (.movingVectorArrive t die plot) s = .next ⟨s.pending, d1⟩) ∧
  (∀ (s : State) (t die plot : Nat) (x : Pass) (xs : List Pass) (c : Bed), s.live (.plot die plot) →
    let d := (s.dev.touch t).settle die plot
    (d.plot die plot).passes = x :: xs → d.bed x.bed = some c → x.running = true → x.entered = x.fields.k →
    x.startT + (x.fields.cyc c.cfg.exact * x.fields.k + 86) * coreCycle ≤ (d.plot die plot).advanced d.now →
    d.passOperandBad die plot x c.cfg.exact = false → d.passAccBad die plot x c.cfg.exact = false →
    d.passImageBad die plot x c.cfg.exact = false →
    exec (.passRetire t die plot) s = .next ⟨s.pending, d.retirePass die plot x c.cfg⟩)

/-- 07 R187 to R189, R194 to R196, R481: a detection abandons the oldest pass of a checked bed that it can concern and those behind it: a
lane mismatch is placed and counted and a retest begins; a word error waits for a replay; a bad image halts the bed. A retest that
passes returns the plot to the state it had; one that fails records the plot.
Completion (the conclusion is a next state, under conditions on the state and the operands alone): passAbandon, retestEnd. -/
def Obligations.PassesAbandonAndRetest : Prop :=
  (∀ (s : State) (t die plot n v r c g : Nat) (x : Pass) (y : BedCfg), s.live (.plot die plot) →
    let d := (s.dev.touch t).settle die plot
    let b := Blk.plot die plot
    ((d.plot die plot).passes.filter (fun x => x.running))[n]? = some x → d.passCfg x = some y → y.unchecked = false →
    (v < x.entered → exec (.passAbandon t die plot (.lane n v r c g)) s = .next ⟨s.pending,
      ((((d.setFld b Reg.PLOT_LANE_LOC.VECTOR v).setFld b Reg.PLOT_LANE_LOC.ROW r).setFld b
        Reg.PLOT_LANE_LOC.COL c).setFld b Reg.PLOT_LANE_LOC.GROUP g).laneAbandon die plot x y.exact 0x01⟩) ∧
    (0 < x.entered → exec (.passAbandon t die plot (.finish n)) s = .next ⟨s.pending, d.laneAbandon die plot x y.exact 0x04⟩)) ∧
  (∀ (s : State) (t die plot : Nat) (x : Pass), s.live (.plot die plot) →
    let d := (s.dev.touch t).settle die plot
    let ex (x : Pass) : Bool := (d.passCfg x).elim false (fun b => b.exact)
    ((d.plot die plot).passes.find? (fun x => x.running && d.passOperandBad die plot x (ex x)) = some x →
      exec (.passAbandon t die plot .hedgeOpnd) s = .next ⟨s.pending, d.wordAbandon die plot x (ex x) 0x02⟩) ∧
    ((d.plot die plot).passes.find? (fun x => x.running && d.passAccBad die plot x (ex x)) = some x →
      exec (.passAbandon t die plot .hedgeAcc) s = .next ⟨s.pending, d.wordAbandon die plot x (ex x) 0x03⟩) ∧
    ((d.plot die plot).passes.find? (fun x => x.running && d.passImageBad die plot x (ex x)) = some x →
      let d1 := d.abandonPasses die plot x.seq 0x06 (ex x)
      exec (.passAbandon t die plot .badImage) s = .next ⟨s.pending,
        d1.plotHalt die plot (d1.fld (.plot die plot) Reg.PLOT_STS.CAUSE)⟩)) ∧
  (∀ (s : State) (t die plot : Nat), s.live (.plot die plot) →
    let d := (s.dev.touch t).settle die plot
    let p := d.plot die plot
    let d1 := (d.setFld (.plot die plot) Reg.PLOT_STS.STATE p.back).modPlot die plot (fun s => { s with
      retestReplay := false, exhausted := false })
    d.fld (.plot die plot) Reg.PLOT_STS.STATE = 4 → p.exhausted = false →
    exec (.retestEnd t die plot .clean) s = .next ⟨s.pending, d1⟩ ∧
    (∀ x bed, d.bedOfPlot die plot = some bed → d.bed bed = some x → exec (.retestEnd t die plot .sumFail) s = .next ⟨s.pending,
      if x.cfg.exact then (d1.recordPlot die plot 0x16).plotHalt die plot 0x16 else d1.recordPlot die plot 0x16⟩) ∧
    exec (.retestEnd t die plot .arrayFail) s = .next ⟨s.pending,
      (d1.recordPlot die plot 0x17).plotHalt die plot 0x17⟩)

/-- 07 R184 to R186, R189: PREEMPT in IDLE or RUN; at the boundary the kept accumulators begin to be spilled where the spill furrow has
room, and the plot is PREEMPTED at once when none are kept or the room is short; the spill fills its range; RESUME restores a spill or
returns to RUN at once; the restored file returns to RUN. RETEST in IDLE or PREEMPTED begins a retest. In any other state PREEMPT,
RESUME and RETEST only set CMD_IGN.
Completion (the conclusion is a next state, under conditions on the state and the operands alone): preempt, preemptBoundary, accSpillDone,
resume, accRestoreDone, retest. -/
def Obligations.PlotsPreempt : Prop :=
  (∀ (s : State) (t : Nat) (src : Source) (die plot : Nat), s.accepts src (.plot die plot) 0x0 →
    let d := s.written t src (.plot die plot)
    let st := d.fld (.plot die plot) Reg.PLOT_STS.STATE
    let ign := d.setFld (.plot die plot) Reg.PLOT_STS.CMD_IGN 1
    exec (.preempt t src die plot) s = .next ⟨s.pending,
      if st ≤ 1 then d.setFld (.plot die plot) Reg.PLOT_STS.STATE 2 else ign⟩ ∧
    exec (.resume t src die plot) s = .next ⟨s.pending,
      if st = 3 then
        if (d.plot die plot).spill.isSome then d.modPlot die plot (fun p => { p with restoring := true })
        else d.setFld (.plot die plot) Reg.PLOT_STS.STATE 1
      else ign⟩ ∧
    exec (.retest t src die plot) s = .next ⟨s.pending,
      if d.plotState die plot = 0 ∨ d.plotState die plot = 3 then
        ((d.startRetest die plot false false).modPlot die plot (fun p => { p with
          file := [], fileOther := [], record := (0, 0, 0, 0) })).setFld (.plot die plot) Reg.PLOT_STS.ACC_VALID 0
      else ign⟩) ∧
  (∀ (s : State) (t die plot : Nat), s.live (.plot die plot) →
    let d := (s.dev.touch t).settle die plot
    let b := Blk.plot die plot
    let f := d.fld b Reg.PLOT_CTL.SPILL_FUR
    let x := d.furNow die plot f
    let a : BenchAccess := ⟨.plot die plot, die, plot, f, 0, true, 32768⟩
    d.fld b Reg.PLOT_STS.STATE = 2 → (d.plot die plot).passes.any (fun x => x.running || x.replay) = false →
    (d.isSet b Reg.PLOT_STS.ACC_VALID = false → exec (.preemptBoundary t die plot) s = .next ⟨s.pending,
      (d.setFld b Reg.PLOT_STS.STATE 3).modPlot die plot (fun p => { p with spill := none })⟩) ∧
    (d.isSet b Reg.PLOT_STS.ACC_VALID = true → (d.plot die plot).spill = none → x.portFree 0 = true →
      exec (.preemptBoundary t die plot) s = .next ⟨s.pending,
        if x.clear a then
          (d.setFur die plot f (x.claim a)).modPlot die plot (fun p => { p with spill := some (x.head, f) })
        else ((d.setFld b Reg.PLOT_STS.SPILL_SHORT 1).setFld b Reg.PLOT_STS.STATE 3).modPlot die plot
          (fun p => { p with spill := none })⟩)) ∧
  (∀ (s : State) (t die plot c f : Nat), s.live (.plot die plot) →
    let d := (s.dev.touch t).settle die plot
    let a : BenchAccess := ⟨.plot die plot, die, plot, f, 0, false, 32768⟩
    (d.plot die plot).spill = some (c, f) →
    (d.fld (.plot die plot) Reg.PLOT_STS.STATE = 2 →
      exec (.accSpillDone t die plot) s = .next ⟨s.pending,
        (((d.furWrite die plot f c ((List.range 4096).flatMap (fun e =>
          ((leBytes 8 ((d.plot die plot).entry e).1.toNat).zip (List.range 8)).map
            (fun x => ⟨x.1, ((d.plot die plot).entry e).2, x.2⟩)))).useLines die plot f c 32768 clsWrite true).modFur die plot f
              (fun x => x.fillRange c 32768)).setFld (.plot die plot) Reg.PLOT_STS.STATE 3⟩) ∧
    ((d.plot die plot).restoring = true → d.fld (.plot die plot) Reg.PLOT_STS.STATE = 3 →
      (d.furNow die plot f).mayIssue a = true →
      let ls (e : Nat) := d.furLanes die plot f (c + 8 * e) 8
      exec (.accRestoreDone t die plot) s = .next ⟨s.pending,
        (((((d.noteWords ((d.bedOfPlot die plot).getD 0xFF) (d.furWords die plot f c 32768)).useLines die plot f c 32768
          clsRead false).modFur die plot f (fun x => (x.claim a).release c 32768)).modPlot die plot (fun p => { p with
            file := (List.range 4096).foldl (fun t e => Tbl.set (fun _ => (0#64, 0#8)) t e
              (BitVec.ofNat 64 (leNat (laneBytes (ls e))), ((ls e).head?.map (fun l => l.synd)).getD 0#8)) []
            spill := none, restoring := false })).setFld (.plot die plot) Reg.PLOT_STS.ACC_VALID 1).setFld
              (.plot die plot) Reg.PLOT_STS.STATE 1⟩))

/-- 09 R219, R221, R222, R224, 18 R421: a stalled access whose condition has cleared claims its range and leaves the stall buffer; a
request that arrives claims its range when the scoreboard is clear, else waits while its furrow holds fewer than two, else is answered
with a retry and counted; a retried request arrives again once 64 lattice cycles have passed; a corrected word is rewritten.
Completion (the conclusion is a next state, under conditions on the state and the operands alone): benchAccessIssue, latticeBenchRequest,
benchRequestResend, ceRewrite. -/
def Obligations.BenchRequestsComplete : Prop :=
  (∀ (s : State) (t : Nat) (a : BenchAccess), s.live (.plot a.die a.plot) →
    let d := s.dev.touch t
    let f := d.furNow a.die a.plot a.fur
    f.stalled.contains a = true → f.mayIssue a = true →
    exec (.benchAccessIssue t a) s = .next ⟨s.pending, ((d.settle a.die a.plot).setFur a.die a.plot a.fur
      { f.claim a with stalled := f.stalled.erase a }).grant a (f.claimAt a)⟩) ∧
  (∀ (s : State) (t : Nat) (a : BenchAccess) (u : Upset), s.live (.plot a.die a.plot) → a.port = 3 →
    let d0 := s.dev.touch t
    let f := d0.fur a.die a.plot a.fur
    d0.wantsAccess a = true → d0.lost.contains a.agent = false → f.stalled.contains a = false →
    f.outstanding a.agent < 2 → f.retried.any (fun x => x.1.agent == a.agent) = false → u ≠ .header →
    let d := (d0.latticeUpset a.die u).settle a.die a.plot
    let g := d.furNow a.die a.plot a.fur
    (∀ i e, a.agent = .rill i e → a.write = false ∨ round64 a.n ≤ g.bytes) →
    exec (.latticeBenchRequest t a u) s = .next ⟨s.pending,
      if g.mayIssue a then (d.setFur a.die a.plot a.fur (g.claim a)).grant a (g.claimAt a)
      else if (g.stalled.filter (fun x => x.port == 3)).length < 2 then
        d.setFur a.die a.plot a.fur { g with stalled := g.stalled ++ [a] }
      else ((d.setFur a.die a.plot a.fur { g with retried := g.retried ++ [(a, d.now)] }).countSat
        (.plot a.die a.plot) Reg.BENCH_RETRY_CNT.COUNT 1).emit [.benchRetry a.die a.plot a.fur]⟩) ∧
  (∀ (s : State) (t t0 : Nat) (a : BenchAccess), s.live (.plot a.die a.plot) →
    let d := s.dev.touch t
    let f := d.fur a.die a.plot a.fur
    f.retried.find? (fun x => x.1 == a) = some (a, t0) → t0 + 64 * d.latticeCycle ≤ d.now →
    exec (.benchRequestResend t a) s = .next ⟨s.pending,
      (d.setFur a.die a.plot a.fur { f with retried := f.retried.erase (a, t0) }).latticeRequest a⟩) ∧
  (∀ (s : State) (t a bit : Nat), s.dev.rewrites.contains (a + 2 * 2 ^ 44) = true → a < 2 ^ 44 →
    (s.dev.touch t).bankFree (a + 2 * 2 ^ 44) = true → hedgeCheck (s.dev.syndOf (a + 2 * 2 ^ 44)) = .corrected bit →
    exec (.ceRewrite t (a + 2 * 2 ^ 44)) s = .next ⟨s.pending,
      ((s.dev.touch t).correctWord .bench (a * 8) bit).setSynd (a + 2 * 2 ^ 44) 0#8⟩)

/-- 03 R74, 09 R227, Tables 9.5, 9.9, 9.10: RESET returns a furrow's pointers to its base and clears its fill bits, and FUR_CFG gives it base
and size, only while the plot's bed is IDLE or HALTED or it belongs to none; else FUR_WR_IGN; a range that leaves the bench or
meets another furrow sets FUR_CFG_BAD.
Completion (the conclusion is a next state, under conditions on the state and the operands alone): furrowReset, furCfgWrite. -/
def Obligations.FurrowWritesComplete : Prop :=
  (∀ (s : State) (t : Nat) (src : Source) (die plot f : Nat), f < 32 →
    s.accepts src (.plot die plot) (0x214 + 32 * f) →
    let d := s.written t src (.plot die plot)
    exec (.furrowReset t src die plot f) s = .next ⟨s.pending,
      if d.furOpen die plot then
        d.setFur die plot f { Furrow.start with base := (d.fur die plot f).base, size := (d.fur die plot f).size }
      else d.setFld (.plot die plot) Reg.BENCH_STS.FUR_WR_IGN 1⟩) ∧
  (∀ (s : State) (t : Nat) (src : Source) (die plot f : Nat) (w : Word), f < 32 →
    s.accepts src (.plot die plot) (0x200 + 32 * f) →
    let d := s.written t src (.plot die plot)
    let base := bitsOf w.toNat 12 0
    let size := bitsOf w.toNat 28 16
    exec (.furCfgWrite t src die plot f w) s = .next ⟨s.pending,
      if d.furOpen die plot = false then d.setFld (.plot die plot) Reg.BENCH_STS.FUR_WR_IGN 1
      else if d.furFits die plot f base size then
        (d.setWord (.plot die plot) (0x200 + 32 * f) w).setFur die plot f { Furrow.start with base := base, size := size }
      else d.setFld (.plot die plot) Reg.BENCH_STS.FUR_CFG_BAD 1⟩)

/-- 09 R229, R230, 10 R234, R235, R252, R253: a keeper's store to populated HBM writes its bytes and is answered; its load of a glasshouse
bank without an uncorrectable word is answered with the bytes; an access to nothing is an access fault; of two requests, both hits on
the open row or neither, the one of the earlier deadline is served first.
Completion (the conclusion is a next state, under conditions on the state and the operands alone): glasshouseRequest, hbmRequest. -/
def Obligations.MemoryRequestsComplete : Prop :=
  (∀ (s : State) (t stack pc part issued queued addr l k : Nat) (hit : Bool) (bs : List Byte),
    s.live (.hbmCtl (stack / 2) (stack % 2)) →
    let r : MemReq := ⟨.keeper l k, none, part, issued, queued, [], hit, addr, .write bs, .none⟩
    r.ofPc stack pc = true →
    exec (.hbmRequest t stack pc [r]) s = .next ⟨s.pending,
      let d := s.dev.touch t
      if d.hbmPopulated addr ∧ d.clockOn (.hbmCtl (stack / 2) (stack % 2)) = true then
        (d.writeBytes .hbm addr bs).emit [.answer (.keeper l k) .done]
      else d.emit [.answer (.keeper l k) .accessFault]⟩) ∧
  (∀ (s : State) (t die bank part issued queued addr n l k : Nat) (hit : Bool), s.live (.gh die) →
    let r : MemReq := ⟨.keeper l k, none, part, issued, queued, [], hit, addr, .read n, .none⟩
    let a := die * 2 ^ 26 + addr % 2 ^ 26
    r.ofBank die bank = true → s.dev.clockOn (.gh die) = true → s.dev.anyBad .gh a n = false →
    ∃ d : Dev, exec (.glasshouseRequest t die bank [r]) s = .next ⟨s.pending, d⟩ ∧
      (Out.answer (.keeper l k) (.bytes (s.dev.readBytes .gh a n) false)) ∈ d.sent ∧
      d.mems = s.dev.mems ∧ d.beds = (s.dev.touch t).beds ∧ d.items = (s.dev.touch t).items) ∧
  (∀ (rows : Bool) (a b : Nat) (x y : Waiting), x.req.hit = y.req.hit → a < b →
    serveOrder rows 2 [(a, x), (b, y)] = [x.req, y.req] ∧ serveOrder rows 2 [(b, y), (a, x)] = [x.req, y.req])

/-- 10 R233, R244, R265, 08 R206, R207, 09 R220: a rill that is IDLE, or whose earlier descriptors have issued all their requests, takes its
next descriptor; it refuses it, halting the bed, on the first check that fails, else begins it: an empty one claims its slot and ends, one to a
gate without a route has the fault GATE_CLOSED; a complete block of a transposing rill goes to its claimed range, its lines are filled and it is
counted.
Completion (the conclusion is a next state, under conditions on the state and the operands alone): transposeBlockEmit, rillDescStart. -/
def Obligations.RillsRunDescriptors : Prop :=
  (∀ (s : State) (t die e : Nat) (i : Item) (b : Bed), s.live (.rill die e) →
    let d := s.dev.touch t
    d.rillFree die e = true → d.nextItem die .rill e = some i → d.bed i.bed = some b →
    let r := RillDesc.ofBytes i.cfg.cmd
    let code := d.rillRefusal die e i.bed b.cfg r
    let d1 := (d.acceptItem i.seq).rillRuns die e i.rillRun
    exec (.rillDescStart t die e) s = .next ⟨s.pending,
      if code ≠ 0 then d.refuseRill die e i.bed i.seq code
      else if d1.noRoute r then (d1.gateLast 0xF (bitsOf r.dstAddr 43 32) (bitsOf r.dstAddr 63 48)).rillUnrecov die e 0x35
      else if r.empty then d1.rillEmpty die e r else d1.rillProgress die e⟩) ∧
  (∀ (s : State) (t die e at_ : Nat) (f : Nat × Nat × Nat) (x : RillRun) (ls : List Lane) (fl : FlagSet), s.live (.rill die e) →
    let d := s.dev.touch t
    let r := x.fields
    let ex := (d.runCfg x).exact
    (d.rill die e).run = some x → d.fld (.rill die e) Reg.RILL_STS.STATE = 1 → x.bad = none → r.empty = false →
    r.transpose = true → d.rillReady die e x = true → x.hostHere = true → x.blocks < x.plan.blocks r ex →
    d.inputStale x = false → x.dstAt = some at_ → d.furOfAddr r.dstAddr = some f → d.turnOf die e x x.blocks = .ok (ls, fl) →
    let a := at_ + x.blocks * r.turnBytes ex
    let d1 := (((d.turnReads die e x (x.turnEnd ex)).sendLanes x.bed (.die die (Router.ofRill e)) f.1 a ls).furStore
      f.1 f.2.1 f.2.2 a ls).useLines f.1 f.2.1 f.2.2 a (r.turnBytes ex) clsLattice true
    exec (.transposeBlockEmit t die e) s = .next ⟨s.pending,
      ((d1.modFur f.1 f.2.1 f.2.2 (fun g => g.fillRange a (r.turnBytes ex))).countWrap (.plot f.1 f.2.1)
        Reg.PLOT_TSTILE_BLK.COUNT 1).modRun die e (fun z => { z with blocks := z.blocks + 1, flags := z.flags ||| fl })⟩)

/-- 10 R256 to R261: a translation that fails at an element of a barrow completes the elements before it and puts the rill in FAULT_WAIT with
the address and the side of the access, a host one asking for its page; a third failure of one address is unrecoverable. A page response of
Success lets the rill resume, and any other is unrecoverable. RESUME resumes and FAIL ends a waiting rill; in another state either only sets
CMD_IGN.
Completion (the conclusion is a next state, under conditions on the state and the operands alone): rillFault, pageRequestResponse,
rillResume, rillFail. -/
def Obligations.RillFaultsComplete : Prop :=
  (∀ (s : State) (t die e row i0 : Nat) (write scale : Bool) (x : RillRun) (w : RowPlan), s.live (.rill die e) →
    let d := s.dev.touch t
    (d.rill die e).run = some x → d.fld (.rill die e) Reg.RILL_STS.STATE = 1 → x.bad = none → x.fields.empty = false →
    x.sent = false → d.rillReady die e x = true → d.inputStale x = false →
    x.plan.rows.find? (fun w => w.row == row && decide (i0 < w.n)) = some w →
    (if write then x.fields.dstLoc else x.plan.sLoc) = 3 → x.hostBefore row i0 ≤ x.hostIn.length →
    ¬(row < x.doneRow ∨ (row = x.doneRow ∧ i0 < x.doneI0)) →
    (scale = true → (if write then x.plan.fD else x.plan.fS).blockScaled = true) →
    let a := w.eltAddr x.plan i0 write scale
    let third := decide (2 ≤ x.pageReqs) && d.sameHostFault die e a write
    (third = true → exec (.rillFault t die e (.host row i0 write scale)) s = .next ⟨s.pending, d.rillUnrecov die e 0x32⟩) ∧
    (∀ (y : Dev) (r' i' : Nat), third = false →
      d.rillPartial die e x (some (row, i0)) = (y, some (r', i', .page 0x10000000000000000 false)) →
      exec (.rillFault t die e (.host row i0 write scale)) s = .next ⟨s.pending, y.enterFaultWait die e x r' i' a write true⟩)) ∧
  (∀ (s : State) (t die e row i0 a : Nat) (write : Bool) (x : RillRun) (y : Dev), s.live (.rill die e) →
    let d := s.dev.touch t
    (d.rill die e).run = some x → d.fld (.rill die e) Reg.RILL_STS.STATE = 1 → x.bad = none → x.fields.empty = false →
    x.sent = false → d.rillReady die e x = true → d.inputStale x = false → x.hostHere = true →
    d.rillPartial die e x none = (y, some (row, i0, .page a write)) →
    exec (.rillFault t die e .virt) s = .next ⟨s.pending, y.enterFaultWait die e x row i0 a write false⟩) ∧
  (∀ (s : State) (t die e : Nat) (x : RillRun) (f : RillFault) (ok : Bool), s.live (.rill die e) →
    let d := s.dev.touch t
    (d.rill die e).run = some x → x.fault = some f → f.host = true →
    exec (.pageRequestResponse t (.rill die e) ok) s = .next ⟨s.pending,
      if ok then ((d.setFld (.rill die e) Reg.RILL_STS.STATE 1).modRun die e (fun y => { y with fault := none })).rillProgress die e
      else d.rillUnrecov die e 0x32⟩) ∧
  (∀ (s : State) (t : Nat) (src : Source) (die e : Nat), s.accepts src (.rill die e) 0x0 →
    let d := s.written t src (.rill die e)
    let ign := d.setFld (.rill die e) Reg.RILL_STS.CMD_IGN 1
    exec (.rillResume t src die e) s = .next ⟨s.pending,
      if d.fld (.rill die e) Reg.RILL_STS.STATE = 3 then
        ((d.setFld (.rill die e) Reg.RILL_STS.STATE 1).modRun die e (fun y => { y with fault := none })).rillProgress die e
      else ign⟩ ∧
    exec (.rillFail t src die e) s = .next ⟨s.pending,
      if d.fld (.rill die e) Reg.RILL_STS.STATE = 3 then d.rillUnrecov die e 0x33 else ign⟩)

/-- 10 R236, R262, R263: CANCEL of a rill that does not cancel already recycles the slots of its queue, releases its input barrows, discards its
items and requests and makes it CANCELLING; the cancel ends with the rill IDLE, CANCEL_DONE set and the time it took reported. INVAL
discards its cached translations.
Completion (the conclusion is a next state, under conditions on the state and the operands alone): rillCancel, cancelDone, inval. -/
def Obligations.RillsCancel : Prop :=
  (∀ (s : State) (t : Nat) (src : Source) (die e : Nat), s.accepts src (.rill die e) 0x0 →
    let d := s.written t src (.rill die e)
    exec (.inval t src die e) s = .next ⟨s.pending, d.setRill die e { d.rill die e with cache := [] }⟩ ∧
    (d.fld (.rill die e) Reg.RILL_STS.STATE = 4 → exec (.rillCancel t src die e) s = .next ⟨s.pending, d⟩) ∧
    (d.fld (.rill die e) Reg.RILL_STS.STATE ≠ 4 → (∃ d' : Dev, exec (.rillCancel t src die e) s = .next ⟨s.pending, d'⟩ ∧
      d'.rill die e = { d.rill die e with run := none, trail := [], cancelT := some d.now } ∧
      d'.items = d.items.filter (fun i => !(i.sameEngine die .rill e)) ∧
      (∀ c ∈ d'.claimed, c.agent ≠ Agent.rill die e) ∧ d'.beds = d.beds ∧ d'.chime = d.chime))) ∧
  (∀ (s : State) (t die e c : Nat), s.live (.rill die e) →
    let d := s.dev.touch t
    (d.rill die e).cancelT = some c → d.fld (.rill die e) Reg.RILL_STS.STATE = 4 →
    exec (.cancelDone t die e) s = .next ⟨s.pending,
      (((d.setRill die e { d.rill die e with cancelT := none }).setFld (.rill die e) Reg.RILL_STS.STATE 0).setFld
        (.rill die e) Reg.RILL_STS.CANCEL_DONE 1).setFld (.rill die e) Reg.RILL_CANCEL_LAT.LAT_NS
          (min ((d.now - c) / 64) 0xFFFFFFFF)⟩)

/-- 10 R247 to R250, R478: a producer whose work wants a slot claims slot CLAIM while fewer than LIMIT are outstanding, and is left waiting
otherwise; software posts into its oldest claimed slot; a consumer takes the barrow at CONS, and releases it, advancing REL while the
slot holds its GEN and counting STALE otherwise.
Completion (the conclusion is a next state, under conditions on the state and the operands alone): barrowClaim, barrowPost, barrowTake,
barrowRelease. -/
def Obligations.BarrowSlotsMove : Prop :=
  (∀ (s : State) (t : Nat) (a : Agent) (q : Nat), s.live a.blk →
    let d := s.dev.touch t
    d.wantsSlot a q = true →
    let c : ClaimedSlot := ⟨q, d.qfld q Ctx.claim, a, false, false, false⟩
    let d1 : Dev := { d.setQfld q Ctx.claim ((c.count + 1) % 0x10000) with claimed := d.claimed ++ [c] }
    exec (.barrowClaim t a q) s = .next ⟨s.pending,
      if d.canClaim d.lplot a q then (d1.noteClaim a q c).goOn a else d⟩) ∧
  (∀ (s : State) (t q : Nat) (b : BarrowArg) (c : ClaimedSlot), s.live .queue →
    let d := s.dev.touch t
    d.firstClaim .software q = some c →
    exec (.barrowPost t .software q b) s = .next ⟨s.pending, (d.postAt c
      ⟨b.addr, b.length, 0, b.loc, b.path, b.last, b.flags, false, b.poisoned, false, b.cause⟩).1⟩) ∧
  (∀ (s : State) (t q : Nat) (a : Agent) (b : Barrow) (d1 : Dev) (k : TakenBarrow), s.live a.blk →
    let d := s.dev.touch t
    d.wantsBarrow a q = true → d.takeSlot a q = some (b, d1) → d1.taken.getLast? = some k →
    exec (.barrowTake t a q) s = .next ⟨s.pending,
      (d1.noteTaken a q k (b.poisonCause (d.nextBad q))).goOn a⟩) ∧
  (∀ (s : State) (t q : Nat) (k : TakenBarrow), s.live .queue →
    let d := s.dev.touch t
    d.firstTaken .software q = some k →
    let d1 : Dev := { d with taken := d.taken.erase k }
    exec (.barrowRelease t .software q) s = .next ⟨s.pending,
      if d.takenFresh k then d1.setQfld k.queue Ctx.rel ((d1.qfld k.queue Ctx.rel + 1) % 0x10000) else d1.countStale k.queue⟩)

/-- 11 R284 to R288, R270, R272: a Sieve accepts its next item when every check passes, behind those it has accepted, and refuses it, halting the
bed, on the first that fails; a command begins once its inputs are there, its parameters loaded; it retires when its rows are done, or fewer
where its bed stops it early, having walked them; a poisoned one posts its cause without a row.
Completion (the conclusion is a next state, under conditions on the state and the operands alone): sieveIssue, sieveStart, sieveRetire. -/
def Obligations.SievesRunCommands : Prop :=
  (∀ (s : State) (t die sv : Nat) (i : Item) (x : Bed), s.live (.sieve die sv) →
    let d := s.dev.touch t
    d.nextItem die .sieve sv = some i → d.bed i.bed = some x →
    let b := Blk.sieve die sv
    let code := d.sieveRefusal die sv i.bed x.cfg (SieveCmd.ofBytes i.cfg.cmd)
    let d1 : Dev := { (d.setFld b Reg.SIEVE_STS.REFUSED 1).setFld b Reg.SIEVE_STS.CAUSE code with
      items := d.items.filter (fun j => j.seq != i.seq) }
    let d2 := d.acceptItem i.seq
    exec (.sieveIssue t die sv) s = .next ⟨s.pending,
      if code ≠ 0 then d1.haltBed i.bed 3
      else if (d2.sieve die sv).run.isSome || d2.fld b Reg.SIEVE_STS.STATE == 3 then d2
      else match d2.firstAccepted die .sieve sv with
        | some i => (d2.setSieve die sv { d2.sieve die sv with
          run := some ⟨i.seq, i.bed, i.openT, i.cfg.cmd, false, none, none, none, none, none, 0#5, none⟩ }).setFld b Reg.SIEVE_STS.STATE 2
        | none => d2⟩) ∧
  (∀ (s : State) (t die sv : Nat) (x : SieveRun) (b : Bed), s.live (.sieve die sv) →
    let d := s.dev.touch t
    (d.sieve die sv).run = some x → d.bed x.bed = some b → x.started = false → x.poison = none → x.inputsHere = true →
    d.sieveStale x = false →
    let p := d.loadParams b.cfg die sv x.bed (SieveCmd.ofBytes x.cmd)
    exec (.sieveStart t die sv) s = .next ⟨s.pending,
      (p.1.setSieve die sv { p.1.sieve die sv with
        startT := p.1.now, run := some { x with started := true, flags := p.2.1, poison := p.2.2 } }).setFld
          (.sieve die sv) Reg.SIEVE_STS.STATE 1⟩) ∧
  (∀ (s : State) (t die sv rows : Nat) (x : SieveRun) (b : Bed), s.live (.sieve die sv) →
    let d := s.dev.touch t
    (d.sieve die sv).run = some x → d.bed x.bed = some b →
    let stops := d.bedStopsEarly x.bed
    x.mayRetire stops = true → d.lost.contains (.sieve die sv) = false →
    let c := SieveCmd.ofBytes x.cmd
    (∀ e, x.poison = some e → exec (.sieveRetire t die sv rows) s = .next ⟨s.pending, d.sieveEnds die sv x 0 0#5 (some e)⟩) ∧
    (x.poison = none →
      (if c.yLoc = 2 ∧ x.yAt = none then rows = 0 else rows = c.rows ∨ rows < c.rows ∧ stops = true) →
      let w := d.sieveWalk b.cfg die sv c x rows
      exec (.sieveRetire t die sv rows) s = .next ⟨s.pending,
        (w.dev.countWrap (.sieve die sv) Reg.SIEVE_ROWS.COUNT w.done).sieveEnds die sv x w.done w.flags w.cause⟩))

/-- 11 R276, R278, Table 11.9: TRAY_CLEAR of an IDLE Sieve makes it CLEARING, and 32,768 core cycles later every entry is +0 and it is IDLE;
a write of SIEVE_TRAY_B while IDLE stores the whole entry at SIEVE_TRAY_IDX. In another state either only sets CMD_IGN.
Completion (the conclusion is a next state, under conditions on the state and the operands alone): trayClear, trayClearDone,
sieveTrayWrite. -/
def Obligations.SieveTraysComplete : Prop :=
  (∀ (s : State) (t : Nat) (src : Source) (die sv : Nat), s.accepts src (.sieve die sv) 0x0 →
    let d := s.written t src (.sieve die sv)
    exec (.trayClear t src die sv) s = .next ⟨s.pending,
      if d.fld (.sieve die sv) Reg.SIEVE_STS.STATE = 0 ∧ (d.sieve die sv).run = none then
        (d.setFld (.sieve die sv) Reg.SIEVE_STS.STATE 3).setSieve die sv { d.sieve die sv with clearT := some d.now }
      else d.setFld (.sieve die sv) Reg.SIEVE_STS.CMD_IGN 1⟩) ∧
  (∀ (s : State) (t die sv c : Nat), die < 8 → sv < 4 → s.live (.sieve die sv) →
    let e := s.dev.touch t
    (e.sieve die sv).clearT = some c → e.fld (.sieve die sv) Reg.SIEVE_STS.STATE = 3 → c + 32768 * 16 ≤ e.now →
    (∃ d : Dev, exec (.trayClearDone t die sv) s = .next ⟨s.pending, d⟩ ∧
      (∀ n, n < 2 ^ 18 → d.trayWord (trayIndex die sv n) = 0#64) ∧
      (∀ die' sv' n, (die' * 4 + sv' ≠ die * 4 + sv) → n < 2 ^ 18 →
        d.trayWord (trayIndex die' sv' n) = e.trayWord (trayIndex die' sv' n)) ∧
      d.hbm = e.hbm ∧ d.gh = e.gh ∧ d.bench = e.bench ∧ d.items = e.items ∧ d.beds = e.beds)) ∧
  (∀ (s : State) (t : Nat) (src : Source) (die sv : Nat) (w : Word), s.accepts src (.sieve die sv) 0x28 →
    let d := s.written t src (.sieve die sv)
    let b := Blk.sieve die sv
    exec (.sieveTrayWrite t src die sv w) s = .next ⟨s.pending,
      if d.fld b Reg.SIEVE_STS.STATE = 0 then
        (d.setWord b 0x28 w).setTray (trayIndex die sv (d.fld b Reg.SIEVE_TRAY_IDX.ENTRY))
          (BitVec.ofNat 64 (w.toNat * 2 ^ 32 + (d.word b 0x24).toNat))
      else d.setFld b Reg.SIEVE_STS.CMD_IGN 1⟩)

/-- 12 R291 to R298, R303, R305: a Mower accepts its next item, behind those it has accepted, or refuses it on the first failing check; a
command begins once it has its input, with MOW_BLOCKS at 0: NORM sums its gradient's squares and writes their image, UPDATE checks its tags and
forms its step, and UPDATE and COPY write the next blocks; a command that has ended retires, its barrow posted, its input released and MOW_STEP
advanced under END_STEP unless it was held in SKEW.
Completion (the conclusion is a next state, under conditions on the state and the operands alone): mowerIssue, mowerNorm, mowerUpdate,
mowerCopy, mowerRetire. -/
def Obligations.MowersRunCommands : Prop :=
  (∀ (s : State) (t die : Nat) (i : Item), s.live (.mower die) →
    let d := s.dev.touch t
    d.nextItem die .mower 0 = some i →
    let b := Blk.mower die
    let code := d.mowRefusal die i.bed (MowCmd.ofBytes i.cfg.cmd)
    let d1 : Dev := { (d.setFld b Reg.MOW_STS.REFUSED 1).setFld b Reg.MOW_STS.CAUSE code with
      items := d.items.filter (fun j => j.seq != i.seq) }
    let d2 := d.acceptItem i.seq
    exec (.mowerIssue t die) s = .next ⟨s.pending,
      if code ≠ 0 then d1.haltBed i.bed 3
      else if (d2.mower die).run.isSome then d2
      else match d2.firstAccepted die .mower 0 with
        | some i => (d2.setMower die { d2.mower die with
          run := some ⟨i.seq, i.bed, i.openT, i.cfg.cmd, none, none, false, false, false, 0#5, none⟩ }).setFld b Reg.MOW_STS.STATE 2
        | none => d2⟩) ∧
  (∀ (s : State) (t die : Nat) (x : MowerRun) (b : Bed) (sum : Long) (d1 : Dev), s.live (.mower die) →
    let d0 := s.dev.touch t
    (d0.mower die).run = some x → d0.bed x.bed = some b → x.ended = false → x.skew = false → x.poison = none →
    x.begun = false → x.hasInput = true → d0.mowStale x = false → d0.lost.contains (.mower die) = false →
    let c := MowCmd.ofBytes x.cmd
    let d := (d0.setFld (.mower die) Reg.MOW_BLOCKS.COUNT 0).setFld (.mower die) Reg.MOW_STS.STATE 1
    c.op = 1 → c.accum = false → Dev.normBlocks b.cfg die x.bed c c.blocks 0 d (Long.start false) = (d1, sum, none) →
    d1.mowCause b.cfg c.img 0 96 true = none →
    exec (.mowerNorm t die) s = .next ⟨s.pending, (d1.spanWrite c.img 0 sum.bytes).modMow die (fun y => { y with
      begun := true, ended := true, flags := sum.flags })⟩) ∧
  (∀ (s : State) (t die n : Nat) (x : MowerRun) (b : Bed), s.live (.mower die) →
    let d := s.dev.touch t
    (d.mower die).run = some x → d.bed x.bed = some b → x.ended = false → x.skew = false → x.poison = none →
    x.hasInput = true → d.lost.contains (.mower die) = false → (x.begun = false → d.mowStale x = false) →
    let c := MowCmd.ofBytes x.cmd
    let d0 := if x.begun then d else d.setFld (.mower die) Reg.MOW_BLOCKS.COUNT 0
    (c.op = 2 → exec (.mowerUpdate t die n) s = .next ⟨s.pending,
      Dev.mowBlocks b.cfg die c (min n c.blocks) (if x.begun then d0 else d0.beginUpdate die x b.cfg c)⟩) ∧
    (c.op = 3 → exec (.mowerCopy t die n) s = .next ⟨s.pending,
      Dev.mowBlocks b.cfg die c (min n c.blocks) ((d0.setFld (.mower die) Reg.MOW_STS.STATE 1).modMow die (fun y => { y with
        begun := true, ended := c.n == 0 }))⟩)) ∧
  (∀ (s : State) (t die : Nat) (x : MowerRun), s.live (.mower die) →
    let d0 := s.dev.touch t
    (d0.mower die).run = some x → x.ended = true → x.poison = none → x.claimed = none → x.input = none →
    let c := MowCmd.ofBytes x.cmd
    let b := Blk.mower die
    c.queue = 0xFFFF →
    let d := d0.countOutcome die x
    let d1 := if c.endStep ∧ x.skew = false then d.setFld b Reg.MOW_STEP.STEP ((d.fld b Reg.MOW_STEP.STEP + 1) % 2 ^ 32) else d
    exec (.mowerRetire t die) s = .next ⟨s.pending,
      (((d1.setMower die { d1.mower die with run := none }).setFld b Reg.MOW_STS.STATE 0).retireItem x.seq).mowerNext die⟩)

/-- 12 R292, R293, R301: ADOPT takes the tags' one step and runs the UPDATE held in SKEW when every tag is complete and of that step, else
sets CMD_IGN; DISCARD ends it with nothing written; a mirrored register takes its value at the bed's lowest Mower while that is IDLE,
with the others to follow at a chime, elsewhere it sets MIRROR_WR, and a Mower of no bed keeps its own value.
Completion (the conclusion is a next state, under conditions on the state and the operands alone): mowerAdopt, mowerDiscard,
mowerMirrorWrite. -/
def Obligations.MowerWritesComplete : Prop :=
  (∀ (s : State) (t : Nat) (src : Source) (die : Nat) (x : MowerRun) (v : Bed), s.accepts src (.mower die) 0x0 →
    let d := s.written t src (.mower die)
    let b := Blk.mower die
    let c := MowCmd.ofBytes x.cmd
    let step := d.tagStep c 0
    d.fld b Reg.MOW_STS.STATE = 3 → (d.mower die).run = some x → d.bed x.bed = some v →
    exec (.mowerAdopt t src die) s = .next ⟨s.pending,
      if (d.firstTagFault c step).isSome ∨ d.bedStopsEarly x.bed = true then d.setFld b Reg.MOW_STS.CMD_IGN 1
      else (((d.setFld b Reg.MOW_STEP.STEP step).setFld b Reg.MOW_STS.STATE 1).modMow die (fun y => { y with
        skew := false })).startUpdate die { x with skew := false } v.cfg c⟩ ∧
    exec (.mowerDiscard t src die) s = .next ⟨s.pending,
      ((d.setFld b Reg.MOW_STS.OUTCOME 3).setFld b Reg.MOW_STS.STATE 2).modMow die (fun y => { y with ended := true })⟩) ∧
  (∀ (s : State) (t : Nat) (src : Source) (die : Nat), s.accepts src (.mower die) 0x0 →
    let d := s.written t src (.mower die)
    d.fld (.mower die) Reg.MOW_STS.STATE ≠ 3 →
    exec (.mowerAdopt t src die) s = .next ⟨s.pending, d.setFld (.mower die) Reg.MOW_STS.CMD_IGN 1⟩ ∧
    exec (.mowerDiscard t src die) s = .next ⟨s.pending, d.setFld (.mower die) Reg.MOW_STS.CMD_IGN 1⟩) ∧
  (∀ (s : State) (t : Nat) (src : Source) (die o : Nat) (data : Word), mowMirrored o = true → s.accepts src (.mower die) o →
    let d := s.written t src (.mower die)
    let b := Blk.mower die
    let new := writeMerge b o .base data (d.word b o)
    (d.bedOfMower die = none → exec (.mowerMirrorWrite t src die o data) s = .next ⟨s.pending, d.setWord b o new⟩) ∧
    (∀ n x, d.bedOfMower die = some n → d.bed n = some x →
      (x.cfg.mowers.head? ≠ some die → exec (.mowerMirrorWrite t src die o data) s = .next ⟨s.pending,
        d.setFld b Reg.MOW_STS.MIRROR_WR 1⟩) ∧
      (x.cfg.mowers.head? = some die → d.fld b Reg.MOW_STS.STATE ≠ 0 → exec (.mowerMirrorWrite t src die o data) s = .next
        ⟨s.pending, d.setFld b Reg.MOW_STS.CMD_IGN 1⟩) ∧
      (x.cfg.mowers.head? = some die → d.fld b Reg.MOW_STS.STATE = 0 → exec (.mowerMirrorWrite t src die o data) s = .next
        ⟨s.pending, (x.cfg.mowers.drop 1).foldl (fun d m => d.setMower m { d.mower m with
          mirror := (d.mower m).mirror.filter (fun e => e.1 != o) ++ [(o, new)] }) (d.setWord b o new)⟩)))

/-- 01 R473, 13 R311, R312, R314, R320, R322: the Trug engine accepts the next TRUG item of a bed when every check passes, and refuses it,
halting the bed, on the first that fails; a command with its input starts, taking the oldest instance of its bucket without a command or opening
one while fewer than 4,096 are open, and sends its contributions once its source may be read.
Completion (the conclusion is a next state, under conditions on the state and the operands alone): trugIssue, trugStart. -/
def Obligations.TrugCommandsStart : Prop :=
  (∀ (s : State) (t bed : Nat) (i : Item), s.live .trug →
    let d := s.dev.touch t
    d.arriving bed [0, 1] (fun c => c.kind == .trug) = some i →
    let code := d.trugRefusal bed (TrugCmd.ofBytes i.cfg.cmd)
    let d1 : Dev := { (d.setFld .trug Reg.TRUG_STS.REFUSED 1).setFld .trug Reg.TRUG_STS.CAUSE code with
      items := d.items.filter (fun j => j.seq != i.seq) }
    exec (.trugIssue t bed) s = .next ⟨s.pending,
      if code ≠ 0 then d1.haltBed bed 3
      else { d.acceptItem i.seq with trugWait := d.trugWait ++ [⟨i.seq, bed, i.openT, i.cfg.cmd, none, none, none⟩] }⟩) ∧
  (∀ (s : State) (t bed : Nat) (r : TrugRun) (b : Bed) (x : TrugInst), s.live .trug →
    let d := s.dev.touch t
    d.trugWait.find? (fun r => r.bed == bed && ((TrugCmd.ofBytes r.cmd).inQ == 0xFFFF || r.input.isSome)) = some r →
    d.bed bed = some b → r.poison = none → (∀ k, r.input = some k → d.takenFresh k = true) →
    let c := TrugCmd.ofBytes r.cmd
    let at_ := d.instFor c
    (at_.isSome ∨ d.openTrugs (c.bucket % 2) < 4096) →
    let i := at_.getD d.trugs.length
    let d1 : Dev := { d with trugWait := d.trugWait.erase r, trugs := if at_.isSome then d.trugs
      else d.trugs ++ [⟨c.grp, c.bucket, none, [], [], false, false⟩] }
    let sp := d1.trugSource c
    d1.spanCause b.cfg sp.2 false = none →
    let d2 := d1.spanNote (.lodge (c.bucket % 2)) bed sp.2 0 sp.2.n
    d2.trugs[i]? = some x →
    let d3 := d2.setTrug i { x with run := some r }
    let ms := d3.members c.grp
    let w := Dev.sendContribs c ms (d3.selfOf c.grp) (d3.spanBytes sp.2 0 sp.2.n) sp.1 (List.range ms.length) d3
      { x with run := some r }
    exec (.trugStart t bed) s = .next ⟨s.pending, (w.1.setTrug i w.2).trugProgress i⟩)

/-- 13 R308, R320, R321: the oldest whole Trug message of a port joins the oldest instance of its bucket that its stream is not complete
in, or a new one while fewer than 4,096 are open; one that must wait is staged, written to HBM where there is room for it; one of a group that is
not valid, or of another epoch, is discarded, counted and sets FOREIGN.
Completion (the conclusion is a next state, under conditions on the state and the operands alone): trugPacketReceive. -/
def Obligations.TrugPacketsComplete : Prop :=
  ∀ (s : State) (t p : Nat) (m : RxMsg), s.live .trug →
    let d := s.dev.touch t
    (d.port p).firstMsg 1 = some m →
    let head := m.head.drop 32
    let h := TrugHead.ofBytes head
    let len := m.fields.length
    let ms := d.members h.grp
    let self := d.selfOf h.grp
    (1 ≤ h.type ∧ h.type ≤ 3) → h.zeros = true → (h.type ≠ 2 → h.mix = false) → (h.type = 1 → h.nflags = 0) →
    (h.count = 0 ↔ len = 0) → (h.count ≠ 0 → len % h.count = 0) → (h.empty = true → h.count = 0) →
    let free := d.modPort p (fun x => x.freeMsg m)
    (d.fldI .trug Reg.TRUG_GRP_CTL.VALID h.grp = 0 ∨ h.gepoch ≠ d.fldI .trug Reg.TRUG_GRP_EPOCH.EPOCH h.grp →
      exec (.trugPacketReceive t p) s = .next ⟨s.pending,
        (free.countSat .trug Reg.TRUG_FOREIGN_CNT.COUNT 1).setFld .trug Reg.TRUG_STS.FOREIGN 1⟩) ∧
    (d.fldI .trug Reg.TRUG_GRP_CTL.VALID h.grp ≠ 0 → h.gepoch = d.fldI .trug Reg.TRUG_GRP_EPOCH.EPOCH h.grp →
      h.src < ms.length → h.owner < ms.length → strangePacket h ms self = false →
      let at_ := d.instOf h
      (at_.isSome ∨ d.openTrugs (h.bucket % 2) < 4096) →
      let x := (at_.bind (fun i => d.trugs[i]?)).getD ⟨h.grp, h.bucket, none, [], [], false, false⟩
      let held := x.run.isNone || (h.type == 2 && !x.turn ms self h.src)
      let i := at_.getD d.trugs.length
      let join (e : Dev) (q : TrugPkt) : Dev := (if at_.isSome then e.setTrug i { x with pkts := x.pkts ++ [q] }
        else { e with trugs := e.trugs ++ [{ x with pkts := x.pkts ++ [q] }] }).trugProgress i
      (held = false → exec (.trugPacketReceive t p) s = .next ⟨s.pending, join free ⟨head, m.body.take len, none, false⟩⟩) ∧
      (held = true → d.stagePlace (h.bucket % 2) len = none → exec (.trugPacketReceive t p) s = .next ⟨s.pending,
        d.setFld .trug Reg.TRUG_STS.STAGE_FULL 1⟩) ∧
      (∀ a, held = true → d.stagePlace (h.bucket % 2) len = some a → exec (.trugPacketReceive t p) s = .next ⟨s.pending,
        join (free.writeBytes .hbm a (head ++ m.body.take len)) ⟨head, [], some (a, len), false⟩⟩))

/-- 13 R307, R320, R327: the oldest instance of a bucket whose command has started closes when it may; PURGE ends every instance of a group
and counts its staged packets; VALID = 1 is taken only where the group's table keeps the rules, with this device's own place in it.
Completion (the conclusion is a next state, under conditions on the state and the operands alone): trugInstanceClose, trugPurge,
groupValidate. -/
def Obligations.TrugGroupsComplete : Prop :=
  (∀ (s : State) (t grp bucket i : Nat) (x : TrugInst) (r : TrugRun) (b : Bed), s.live .trug →
    let d := s.dev.touch t
    d.trugs.findIdx? (fun x => x.grp == grp && x.bucket == bucket && x.run.isSome && !x.closed) = some i →
    d.trugs[i]? = some x → x.run = some r → d.bed r.bed = some b →
    ((TrugCmd.ofBytes r.cmd).queue = 0xFFFF ∨ r.claimed ≠ none) →
    exec (.trugInstanceClose t grp bucket) s = .next ⟨s.pending, d.closeTrug i x r b.cfg⟩) ∧
  (∀ (s : State) (t : Nat) (src : Source) (g : Nat), s.accepts src .trug 0x0 → g < 16 →
    (∃ d : Dev, exec (.trugPurge t src g) s = .next ⟨s.pending, d⟩ ∧
      d.trugs = s.dev.trugs.filter (fun x => x.grp != g) ∧ d.mems = s.dev.mems ∧ d.items = (s.dev.touch t).items ∧
        d.beds = (s.dev.touch t).beds)) ∧
  (∀ (s : State) (t : Nat) (src : Source) (g : Nat), s.accepts src .trug (0x100 + g * 0x20) →
    let d := s.written t src .trug
    let new := writeMerge .trug (0x100 + g * 0x20) .base 1#32 (d.word .trug (0x100 + g * 0x20))
    let d1 := d.noteFrom 0xFF (.lodge d.wardenLodge) (Mem.hbm.wordsOf (d.memberBase g) (8 * min (d.fldI .trug Reg.TRUG_GRP_COUNT.COUNT g) 32768))
    new.toNat.testBit 0 = true →
    exec (.groupValidate t src g) s = .next ⟨s.pending,
      if d.fldI .trug Reg.TRUG_GRP_CTL.VALID g = 1 then d.setFld .trug Reg.TRUG_STS.CMD_IGN 1
      else if d.groupOk g then
        ((d1.setWord .trug (0x100 + g * 0x20) new).setFldI .trug Reg.TRUG_GRP_SELF.VALID g 1).setFldI .trug
          Reg.TRUG_GRP_SELF.MEMBER g ((d.members g).findIdx (fun m => m.dev == d.devId))
      else (d1.setWord .trug (0x100 + g * 0x20) (new &&& ~~~1#32)).setFld .trug Reg.TRUG_STS.GRP_BAD 1⟩)

/-- 14 R331, R343, Table 14.10: ENABLE of a disabled port starts its training; a training port that settles a width it may have is UP with
its partner's identity; RETRAIN and DOWN act on a port whose state allows them and set CMD_IGN otherwise; CLEAR zeroes its
counters; the third failed retrain in succession takes the port DOWN.
Completion (the conclusion is a next state, under conditions on the state and the operands alone): linkEnable, linkTrainDone, portRetrain,
portDown, portClear, linkTrainFail. -/
def Obligations.PortCommandsComplete : Prop :=
  (∀ (s : State) (t : Nat) (src : Source) (p : Nat), s.accepts src (.obotil p) 0x0 →
    let d := s.written t src (.obotil p)
    let b := Blk.obotil p
    let st := d.portState p
    exec (.portRetrain t src p) s = .next ⟨s.pending,
      if st = 2 ∨ st = 4 then d.retrainPort p else if st = 3 then d else d.setFld b Reg.OB_STS.CMD_IGN 1⟩ ∧
    exec (.portDown t src p) s = .next ⟨s.pending,
      if st = 0 then d.setFld b Reg.OB_STS.CMD_IGN 1 else if st = 4 then d else d.portGoesDown p⟩ ∧
    exec (.portClear t src p) s = .next ⟨s.pending, d.clearPortCounters p⟩ ∧
    (∀ w : Word, w = BitVec.ofNat 32 (putBits (d.word b 0x0 ||| 1#32).toNat 7 4 0) →
      exec (.linkEnable t src p) s = .next ⟨s.pending,
        if (d.setWord b 0x0 w).portState p = 0 then ((d.setWord b 0x0 w).setFld b Reg.OB_STS.STATE 1).modPort p PortSt.anew
        else d.setWord b 0x0 w⟩)) ∧
  (∀ (s : State) (t p dev node delay width : Nat), s.live (.obotil p) →
    let d := s.dev.touch t
    let b := Blk.obotil p
    d.portState p = 1 ∨ d.portState p = 3 → d.widthOk p width = true →
    exec (.linkTrainDone t p dev node delay width) s = .next ⟨s.pending,
      ((((((d.emit [.portIdentity p d.devId (d.fld (.obotil 0) Reg.OB_DEV_ID.NODE)]).setFld b Reg.OB_STS.STATE 2).setFld
        b Reg.OB_STS.WIDTH width).setFld b Reg.OB_LINK_DELAY.DELAY delay).setFld b
        Reg.OB_PEER.DEV dev).setFld b Reg.OB_PEER.NODE node).modPort p (fun x => { x with
          resend := x.replay.head?.map (fun e => e.1), fails := 0, replays := 0, timer := d.now })⟩) ∧
  (∀ (s : State) (t p : Nat), s.live (.obotil p) → s.dev.portState p = 3 →
    let d := s.dev.touch t
    exec (.linkTrainFail t p) s = .next ⟨s.pending,
      if 2 ≤ (d.port p).fails then d.portGoesDown p else d.modPort p (fun x => { x with fails := x.fails + 1 })⟩)

/-- 14 R336, R337, R341 to R344: an UP port sends a pending short flit with a credit first, then the next quarter of the flit in progress, and at
a full-flit boundary a LINK, replayed, DATA or IDLE flit; a DATA flit of the expected number that finds a buffer is accepted, a later one
is answered with one NAK, an earlier one is dropped; a LINK flit updates acknowledgements and credits; without an
acknowledgement for 1 µs the replay begins.
Completion (the conclusion is a next state, under conditions on the state and the operands alone): flitTransmit, dataFlitReceive,
linkFlitReceive, replayTimeout. -/
def Obligations.FlitsComplete : Prop :=
  (∀ (s : State) (t p : Nat), s.live (.obotil p) → s.dev.portUp p = true →
    let d := s.dev.touch t
    let x := d.port p
    (∀ f, x.credit 3 = true → nextShort x.short = some f → exec (.flitTransmit t p) s = .next ⟨s.pending,
      (d.setPort p { x with short := x.short.erase f, sent := x.sent.add 3 1 }).transmit p
        (f.wireFrom d.now (d.fld (.obotil p) Reg.OB_LINK_DELAY.DELAY) d.devId)⟩) ∧
    (∀ q r, (x.credit 3 = false ∨ nextShort x.short = none) → x.cur = q :: r → exec (.flitTransmit t p) s = .next ⟨s.pending,
      (d.setPort p { x with cur := r }).transmit p q⟩) ∧
    (∀ q r y data, (x.credit 3 = false ∨ nextShort x.short = none) → x.cur = [] → x.nextFull d.now = (q :: r, y, data) →
      let d1 := (d.setPort p { y with cur := r }).transmit p q
      exec (.flitTransmit t p) s = .next ⟨s.pending,
        if data = true then d1.countWrap (.obotil p) Reg.OB_TX_FLITS.COUNT 1 else d1⟩)) ∧
  (∀ (s : State) (t p c n : Nat) (start : Bool) (data : List Byte), s.live (.obotil p) → s.dev.portUp p = true →
    data.length = 256 → c < 3 → n < 4096 →
    let wire := (wireFlit (dataTags ⟨c, start, data⟩ n) data).flatMap id
    exec (.dataFlitReceive t p wire) s = .next ⟨s.pending,
      ((s.dev.touch t).countSat (.obotil p) Reg.OB_CE_CNT.COUNT 0).dataFlit p c start n data⟩) ∧
  (∀ (s : State) (t p : Nat) (data : List Byte), s.live (.obotil p) → s.dev.portUp p = true → data.length = 256 →
    bitsOf (numAt data 16 8) 63 20 = 0 → (data.drop 24).all (fun b => b == 0#8) = true →
    exec (.linkFlitReceive t p ((wireFlit [1, 0, 0, 0] data).flatMap id)) s = .next ⟨s.pending,
      ((s.dev.touch t).countSat (.obotil p) Reg.OB_CE_CNT.COUNT 0).linkFlit p data⟩) ∧
  (∀ (s : State) (t p : Nat) (e : Nat × TxFlit) (es : List (Nat × TxFlit)), s.live (.obotil p) → s.dev.portUp p = true →
    (s.dev.port p).replay = e :: es → (s.dev.port p).timer + 64000 ≤ max s.dev.now t →
    exec (.replayTimeout t p) s = .next ⟨s.pending, (s.dev.touch t).startReplay p e.1⟩)

/-- 14 R333 to R335: a quarter of 64 bytes sent in set A or set B with any tag is decoded to that set, tag and data, without a correction. -/
def Obligations.FlitQuartersDecode : Prop :=
  ∀ (setB : Bool) (tag : Nat) (bs : List Byte), tag < 16 → bs.length = 64 →
    rxQuarter (wireQuarter setB tag bs) = some ⟨setB, tag, bs, 0⟩

/-- 14 R345, R346, R348, R350: LOAD of a gate that is not OPEN takes its table entry when the entry's window lies in its bed's writable regions, else
UNLOADs it with CFG_BAD; OPEN, LATCH, ADVANCE and UNLOAD move a gate from the states they allow, OPEN at once and the others completing when
the writes checked before have; from any other state a register's command is ignored and an item's halts its bed.
Completion (the conclusion is a next state, under conditions on the state and the operands alone): gateLoad, gateOpen, gateLatch,
gateAdvance, gateUnload, gateCmdComplete. -/
def Obligations.GateCommandsComplete : Prop :=
  (∀ (s : State) (t : Nat) (src : Source) (g : Nat), g < 4096 → s.accepts src (.obotil 0) 0x114 →
    let d := (s.written t src (.obotil 0)).setWord (.obotil 0) 0x114 (BitVec.ofNat 32 (g * 2 ^ 16))
    let a := d.gateEntryAt g
    let bs := d.readBytes .hbm a 32
    let d1 := d.noteFrom 0xFF (.lodge (g % 2)) (Mem.hbm.wordsOf a 32)
    exec (.gateLoad t src g) s = .next ⟨s.pending,
      if (d.gate g).state = 2 then d.gateIgnored g
      else if d.gateOk (GateEntry.ofBytes bs) ∧ d.anyBad .hbm a 32 = false then
        (d1.setGate g ⟨1, (GateEntry.ofBytes bs).epoch, bs⟩).showGate g
      else ((d1.setGate g { d.gate g with state := 0 }).setFld (.obotil 0) Reg.OB_GATE_STS.CFG_BAD 1).showGate g⟩) ∧
  (∀ (s : State) (t : Nat) (src : Source) (g : Nat), g < 4096 → s.accepts src (.obotil 0) 0x114 →
    let d := (s.written t src (.obotil 0)).setWord (.obotil 0) 0x114 (BitVec.ofNat 32 (g * 2 ^ 16))
    let x := d.gate g
    let wait (d : Dev) : Dev := { d with gateWaits := d.gateWaits ++ [⟨g, none, d.msgId⟩] }
    exec (.gateOpen t (.reg src) g) s = .next ⟨s.pending,
      if x.state = 1 then (d.setGate g { x with state := 2 }).showGate g else d.gateIgnored g⟩ ∧
    exec (.gateLatch t (.reg src) g) s = .next ⟨s.pending,
      if x.state = 2 then wait ((d.setGate g { x with state := 1 }).showGate g) else d.gateIgnored g⟩ ∧
    exec (.gateAdvance t (.reg src) g) s = .next ⟨s.pending,
      if x.state = 1 ∨ x.state = 2 then wait ((d.setGate g { x with state := 2, epoch := (x.epoch + 1) % 2 ^ 32 }).showGate g)
      else d.gateIgnored g⟩ ∧
    exec (.gateUnload t src g) s = .next ⟨s.pending,
      if x.state = 1 then wait ((d.setGate g { x with state := 0 }).showGate g) else d.gateIgnored g⟩) ∧
  (∀ (s : State) (t bed g : Nat) (i : Item) (y : GateSt), s.live (.obotil 0) →
    let d0 := s.dev.touch t
    d0.nextGateItem bed g = some i → i.cfg.gate = g → (d0.gate g).fields.bed = bed →
    let d := d0.acceptItem i.seq
    (i.cfg.op = 2 → gateMove 2 (d0.gate g) = some y → exec (.gateOpen t (.item bed) g) s = .next ⟨s.pending,
      ((d.setGate g y).showGate g).retireItem i.seq⟩) ∧
    (i.cfg.op = 1 → gateMove 3 (d0.gate g) = some y → exec (.gateLatch t (.item bed) g) s = .next ⟨s.pending,
      { (d.setGate g y).showGate g with gateWaits := d0.gateWaits ++ [⟨g, some i.seq, d0.msgId⟩] }⟩) ∧
    (i.cfg.op = 3 → gateMove 4 (d0.gate g) = some y → exec (.gateAdvance t (.item bed) g) s = .next ⟨s.pending,
      { (d.setGate g y).showGate g with gateWaits := d0.gateWaits ++ [⟨g, some i.seq, d0.msgId⟩] }⟩)) ∧
  (∀ (s : State) (t g : Nat) (w : GateWait), s.live (.obotil 0) →
    let d := s.dev.touch t
    d.gateWaits.find? (fun w => w.gate == g) = some w → d.writesBefore w = false →
    let d1 : Dev := { d with gateWaits := d.gateWaits.erase w }
    exec (.gateCmdComplete t g) s = .next ⟨s.pending, match w.item with
      | some q => d1.retireItem q
      | none => d1⟩)

/-- 01 R473, 14 R347 to R349, R351: a WRITE is checked on its start flit against Table 14.7, refused with a reason and without effect, or
accepted with the window its gate has then and applied there when it is whole, and acknowledged; an acknowledgement completes its write, and a
refusal is recorded and stops its writer's rill; WADVANCE adds 1 to a lodge's copy of the bed's writer epoch, and its item retires when both
lodges have.
Completion (the conclusion is a next state, under conditions on the state and the operands alone): gateWrite, gateWriteAck, gateWriteNack,
wadvance. -/
def Obligations.GateWritesComplete : Prop :=
  (∀ (s : State) (t p : Nat) (m : RxMsg), s.live (.obotil p) →
    let d := s.dev.touch t
    (d.port p).firstMsg 2 = some m → m.window = none →
    let e := (d.gate m.fields.gate).fields
    let m' : RxMsg := { m with window := some (e.loc, e.base), id := d.msgId }
    let d1 : Dev := { d.modPort p (fun x => { x with rx := x.rx.map (fun y => if y = m then m' else y) }) with msgId := d.msgId + 1 }
    exec (.gateWrite t p) s = .next ⟨s.pending,
      if d.writeRefusal m.fields ≠ 0 then d.refuseGateWrite p m (d.writeRefusal m.fields)
      else if m.whole then d1.applyGateWrite p m' else d1⟩) ∧
  (∀ (s : State) (t p loc base : Nat) (m : RxMsg) (a : Mem × Nat), s.live (.obotil p) →
    let d0 := s.dev.touch t
    (d0.port p).firstMsg 2 = some m → m.window = some (loc, base) → m.whole = true →
    locMem loc (base + m.fields.offset) = some a →
    let d := (d0.writeBytes a.1 a.2 (m.body.take m.fields.length)).modPort p (fun x => x.freeMsg m)
    exec (.gateWrite t p) s = .next ⟨s.pending, d.sendMsg (m.fields.answer d.devId 0) [] []⟩) ∧
  (∀ (s : State) (t p : Nat) (r : Nat × Nat) (m : RxMsg), s.live (.obotil p) →
    let d0 := s.dev.touch t
    (d0.port p).firstMsg 0 = some m →
    let d := d0.modPort p (fun x => x.freeMsg m)
    let h := m.fields
    (h.type = 2 → d.writerOf h.wtag = some r → exec (.gateWriteAck t p) s = .next ⟨s.pending, d.onAnswer r h.wtag id⟩) ∧
    (h.type = 3 → (d.gateLast h.reason h.gate h.src).writerOf h.wtag = some r →
      exec (.gateWriteNack t p) s = .next ⟨s.pending, (d.gateLast h.reason h.gate h.src).onAnswer r h.wtag
        (fun d => d.rillUnrecov r.1 r.2 0x35)⟩)) ∧
  (∀ (d : Dev) (die e tag : Nat), (d.rill die e).trail = [] →
    d.onAnswer (die, e) tag id = d.modRun die e (fun x => { x with tags := x.tags.erase tag }) ∧
    d.onAnswer (die, e) tag (fun d => d.rillUnrecov die e 0x35) =
      (d.modRun die e (fun x => { x with tags := x.tags.erase tag })).rillUnrecov die e 0x35) ∧
  (∀ (s : State) (t bed l : Nat) (i : Item), s.live (.obotil 0) → l < 2 →
    let d := s.dev.touch t
    d.arriving bed [l] (fun c => c.kind == .obotil && c.op == 4) = some i →
    let d1 := d.setWepoch l bed ((d.wepoch l bed + 1) % 2 ^ 32)
    let d2 : Dev := { d1 with wadvanced := d.wadvanced.filter (fun w => w.1 != i.seq) }
    exec (.wadvance t bed l) s = .next ⟨s.pending,
      if d.wadvanced.contains (i.seq, 1 - l) then d2.retireItem i.seq
      else { d1 with wadvanced := d.wadvanced ++ [(i.seq, l)] }⟩)

/-- 14 R353 to R355: a BARRIER item of an enabled group issues: its leader sends ARRIVE, another member acts on what it holds; of a group
that is not enabled it halts its bed. A token is acknowledged by its word 0 and acted on, held or dropped by its count; a SACK stops
the retransmission of its token, which is sent again 100 ns after it was sent on a port that is UP.
Completion (the conclusion is a next state, under conditions on the state and the operands alone): barrier, barrierTokenReceive,
sackReceive, tokenRetransmit. -/
def Obligations.BarriersComplete : Prop :=
  (∀ (s : State) (t bed : Nat) (i : Item), s.live (.obotil 0) →
    let d := s.dev.touch t
    d.arriving bed [0, 1] (fun c => c.kind == .barrier) = some i →
    let g := cmdNum i.cfg.cmd 0 1 % 16
    let n := (d.barGen g + (d.bar g).active.length) % 2 ^ 32
    let gone : Dev := { d with items := d.items.filter (fun j => j.seq != i.seq) }
    let d1 := (d.acceptItem i.seq).setBar g { d.bar g with active := (d.bar g).active ++ [i.seq] }
    exec (.barrier t bed) s = .next ⟨s.pending,
      if d.fldI (.obotil 0) Reg.BAR_CFG.ENABLE g = 0 then gone.haltBed bed 3
      else if d.barLeads g then d1.sendToken g (tokenWord n g 0 d.devId)
      else Dev.actHeld g ((d1.bar g).held.length) d1⟩) ∧
  (∀ (s : State) (t p : Nat) (bytes q : List Byte), s.live (.obotil p) → s.dev.portUp p = true →
    let r := (s.dev.touch t).recvShort p 1 bytes
    let w0 := numAt q 0 8
    let g := bitsOf w0 35 32
    r.2 = some q → bitsOf w0 39 36 = 0 → bitsOf w0 47 41 = 0 → bitsOf (numAt q 8 8) 63 16 = 0 →
    (q.drop 16).all (fun b => b == 0#8) = true →
    let d := r.1.queueShort p (.sack w0)
    exec (.barrierTokenReceive t p bytes) s = .next ⟨s.pending,
      if d.fldI (.obotil 0) Reg.BAR_CFG.ENABLE g = 0 then d else d.token g w0⟩) ∧
  (∀ (s : State) (t p : Nat) (bytes q : List Byte), s.live (.obotil p) → s.dev.portUp p = true →
    let r := (s.dev.touch t).recvShort p 2 bytes
    let w0 := numAt q 0 8
    let g := bitsOf w0 35 32
    r.2 = some q → (q.drop 8).all (fun b => b == 0#8) = true →
    exec (.sackReceive t p bytes) s = .next ⟨s.pending, r.1.setBar g { r.1.bar g with
      unsacked := (r.1.bar g).unsacked.filter (fun u => !(u.1 == p && u.2.1 == w0)) }⟩) ∧
  (∀ (s : State) (t g p w0 t0 : Nat), s.live (.obotil 0) →
    let d := s.dev.touch t
    (d.bar g).unsacked.find? (fun u => decide (u.2.2 + 6400 ≤ d.now) && d.portUp u.1) = some (p, w0, t0) →
    exec (.tokenRetransmit t g) s = .next ⟨s.pending, (d.queueShort p (.token w0)).setBar g { d.bar g with
      unsacked := (d.bar g).unsacked.map (fun v => if v = (p, w0, t0) then (p, w0, d.now) else v) }⟩)

/-- 15 R359 to R363, R375, R377: a configuration request before READY, or of a device asleep, is answered with Retry Status, and afterwards one of a
function that is not here with Unsupported Request; a setting of VF Enable instantiates its VFs within 65,536 vectors, else VEC_OVER; resets
reach the function, the VFs or the port; an awake PF's access to populated HBM through BAR4 reads or writes its bytes.
Completion (the conclusion is a next state, under conditions on the state and the operands alone): configRequest, bar4Access, vfEnable,
functionLevelReset, perst. -/
def Obligations.PcieCommandsComplete : Prop :=
  (∀ (s : State) (t p fn : Nat) (op : ConfigOp), p < 2 →
    let d := s.dev.touch t
    (d.portReady p = false → exec (.configRequest t p fn op) s = .next ⟨s.pending, d.emit [.answer (.pcie p fn) .retryStatus]⟩) ∧
    (d.portReady p = true → d.asleep = true → exec (.configRequest t p fn op) s = .next ⟨s.pending,
      (d.wake 0).emit [.answer (.pcie p fn) .retryStatus]⟩) ∧
    (d.portReady p = true → d.asleep = false → d.fnHere p fn = false → exec (.configRequest t p fn op) s = .next ⟨s.pending,
      d.emit [.answer (.pcie p fn) .unsupportedRequest]⟩)) ∧
  (∀ (s : State) (t p fn o w : Nat) (e m : Bool), p < 2 → s.dev.portReady p = true → s.dev.asleep = false →
    s.dev.fnHere p fn = true →
    let d := s.dev.touch t
    ((∃ d' : Dev, exec (.configRequest t p fn (.read o)) s = .next ⟨s.pending, d'⟩ ∧ (∃ v, d'.sent = s.dev.sent ++ [.answer (.pcie p fn) (.value v)]) ∧
      d'.regs = s.dev.regs ∧ d'.mems = s.dev.mems ∧ d'.queues = s.dev.queues)) ∧
    (exec (.configRequest t p fn (.msixControl e m)) s = .next ⟨s.pending,
      ({ d with fns := Tbl.set (fun _ => FnSt.start) d.fns (funcOf p fn) ⟨e, m⟩ }.sendPending (funcOf p fn)).emit
        [.answer (.pcie p fn) .done]⟩) ∧
    (exec (.configRequest t p fn (.other o w)) s = .next ⟨s.pending, (d.setPcie p { d.pcie p with
      config := Tbl.set (fun _ => 0) (d.pcie p).config (fn * 4096 + o) w }).emit [.answer (.pcie p fn) .done]⟩)) ∧
  (∀ (s : State) (t p n fn : Nat), p < 2 → s.dev.portReady p = true →
    let d := s.dev.touch t
    let o := d.pcie (1 - p)
    let other := if o.vfEnable then o.numVfs else 0
    let fits := decide (d.vectorsOf (if p = 0 then n else other) (if p = 0 then other else n) ≤ 65536)
    let d1 := d.setPcie p { d.pcie p with vfEnable := true, numVfs := n, vfUp := fits }
    ((d.pcie p).vfEnable = false → n ≤ 255 → exec (.vfEnable t p n) s = .next ⟨s.pending,
      if fits then d1 else d1.setFld .queue Reg.QUEUE_STS.VEC_OVER 1⟩) ∧
    exec (.functionLevelReset t p fn true) s = .next ⟨s.pending, d.clearVfs p⟩ ∧
    (d.fnHere p fn = true → exec (.functionLevelReset t p fn false) s = .next ⟨s.pending, d.resetFunction (funcOf p fn)⟩) ∧
    exec (.perst t p) s = .next ⟨s.pending, d.resetPort p⟩) ∧
  (∀ (s : State) (t p off n : Nat) (bs : List Byte) (ep : Bool), p < 2 → s.dev.portReady p = true → s.dev.asleep = false →
    off < 2 ^ (s.dev.pcie p).barLog2 → (off < 0x7FFF00000 ∨ 0x800000000 ≤ off) →
    let d := s.dev.touch t
    let a := d.winAddr p off
    d.hbmPopulated a = true → d.clockOn (.hbmCtl (a / 2 ^ 37) (a / 2 ^ 36 % 2)) = true →
    exec (.bar4Access t p 0 off (.read n) ep) s = .next ⟨s.pending, (d.noteFrom 0xFF (.lodge p) (Mem.hbm.wordsOf a n)).emit
      [.answer (.pcie p 0) (.bytes (d.readBytes .hbm a n) (d.anyBad .hbm a n))]⟩ ∧
    exec (.bar4Access t p 0 off (.write bs) ep) s = .next ⟨s.pending,
      ((if ep then d.sendBad 0xFF (.lodge p) (a / 2 ^ 37) (Mem.hbm.wordsOf a bs.length).length else d).writeWith .hbm a bs
        (if ep then poison else 0#8)).emit [.answer (.pcie p 0) .done]⟩)

/-- 15 R368 to R372, 20 R449: a doorbell of a queue that is not in ERROR sets SQ_TAIL, or CQ_HEAD within the entries that stand, and a value out
of range puts the queue in ERROR; one that no queue matches is dropped and counted; an active queue below its limit fetches the entry
at SQ_HEAD; a finished command is completed; a failed completion of a fetch puts its queue in ERROR.
Completion (the conclusion is a next state, under conditions on the state and the operands alone): sqTailDoorbell, cqHeadDoorbell,
commandFetch, completionWrite, pcieCompletionReceive. -/
def Obligations.HostQueuesComplete : Prop :=
  (∀ (s : State) (t p fn page q : Nat) (v : BitVec 16), p < 2 → s.live .queue → s.dev.asleep = false → s.dev.portReady p = true →
    s.dev.fnHere p fn = true → s.dev.clockOn .queue = true →
    let d := s.dev.touch t
    let n := 2 ^ d.qfld q Ctx.cqLog2
    let head := d.qfld q Ctx.cqHead
    (d.doorbell p fn page = some q → d.queueInError q = false →
      exec (.sqTailDoorbell t p fn page v) s = .next ⟨s.pending,
        if v.toNat < 2 ^ d.qfld q Ctx.sqLog2 then d.setQfld q Ctx.sqTail v.toNat else d.hostQueueError q 0x22⟩ ∧
      exec (.cqHeadDoorbell t p fn page v) s = .next ⟨s.pending,
        if v.toNat < n ∧ (v.toNat + n - head) % n ≤ (d.qfld q Ctx.cqTail + n - head) % n then d.setQfld q Ctx.cqHead v.toNat
        else d.hostQueueError q 0x22⟩) ∧
    (d.doorbell p fn page = none →
      exec (.sqTailDoorbell t p fn page v) s = .next ⟨s.pending,
        (d.countSat .queue Reg.QUEUE_DB_DROP_CNT.COUNT 1).setFld .queue Reg.QUEUE_STS.DB_DROP 1⟩)) ∧
  (∀ (s : State) (t q : Nat) (bytes : List Byte), s.live .queue → s.dev.clockOn .queue = true → bytes.length = 64 →
    let d := s.dev.touch t
    let head := d.qfld q Ctx.sqHead
    d.qfld q Ctx.kind = 1 → d.qfld q Ctx.state = 0 → head ≠ d.qfld q Ctx.sqTail →
    d.qfld q Ctx.outstanding < d.qfld q Ctx.limit →
    let c : HostCmd := ⟨q, bytes, false, none, 0, false, 0⟩
    let d1 := d.emit [.pcieRead (d.queuePort q) (d.queuePasid q) (d.qfld q Ctx.sqAddr + 64 * head) 64]
    exec (.commandFetch t q bytes) s = .next ⟨s.pending,
      { (d1.setQfld q Ctx.sqHead ((head + 1) % 2 ^ d.qfld q Ctx.sqLog2)).setQfld q Ctx.outstanding
          (d.qfld q Ctx.outstanding + 1) with
        hostCmds := d.hostCmds ++ [{ c with outcome := (d.fetchStatus c).map (fun e => (e, 0)) }] }⟩) ∧
  (∀ (s : State) (t q cid i : Nat) (c : HostCmd), s.live .queue →
    let d := s.dev.touch t
    d.hostCmd q cid (fun c => c.outcome.isSome) = some (i, c) →
    exec (.completionWrite t q cid) s = .next ⟨s.pending, d.completion i c⟩) ∧
  (∀ (s : State) (t q : Nat) (st : CplStatus) (bs : List Byte) (ep : Bool), s.live .queue → st ≠ .success →
    s.dev.qfld q Ctx.kind = 1 →
    exec (.pcieCompletionReceive t (.fetch q) st bs ep) s = .next ⟨s.pending, (s.dev.touch t).hostQueueError q 0x20⟩ ∧
    exec (.pcieCompletionReceive t (.cqWrite q) st bs ep) s = .next ⟨s.pending, (s.dev.touch t).hostQueueError q 0x21⟩)

/-- 15 Table 15.6, R246, R257, R370: once FENCE lets it, NOP ends with success, BED_RUN sets RUN of a bed that is not halted, TRELLIS starts the loader
and ends with its outcome, at once where the loader is busy with another operation (entry 40), WAIT_CHIME and WAIT_WINDOWS end when their number has come, a firmware command is passed on where FW_EN allows
it, and COPY moves its bytes up to the first that fails.
Completion (the conclusion is a next state, under conditions on the state and the operands alone): hostNop, hostCopy, hostBedRun,
hostTrellis, hostWaitChime, hostWaitWindows, hostFirmware. -/
def Obligations.HostCommandsComplete : Prop :=
  ∀ (s : State) (t q cid i : Nat) (c : HostCmd), s.live .queue →
    let d := s.dev.touch t
    d.fenceOk i c = true → c.outcome = none →
    let bed := bitsOf (c.arg 0) 5 0
    let found (p : Nat → Bool) : Prop := d.hostCmd q cid (fun c => p c.opc && c.outcome.isNone) = some (i, c)
    (found (fun o => o == 0) → exec (.hostNop t q cid) s = .next ⟨s.pending, d.endHostCmd i c 0 0⟩) ∧
    (∀ x, found (fun o => o == 2) → d.bed bed = some x → exec (.hostBedRun t q cid) s = .next ⟨s.pending,
      if x.state = .halted then d.endHostCmd i c 0xA 0
      else (d.setBed bed (some { x with run := (c.arg 0).testBit 8, runAt := if (c.arg 0).testBit 8 && !x.run then d.now else x.runAt
        })).endHostCmd i c 0 d.chime.count.toNat⟩) ∧
    (found (fun o => o == 3) →
      let d0 := ((d.setFld .trellis Reg.TRELLIS_SRC_LO.SRC_LO (c.arg 0 % 2 ^ 32)).setFld .trellis Reg.TRELLIS_SRC_HI.SRC_HI
        (c.arg 0 / 2 ^ 32)).setFld .trellis Reg.TRELLIS_LEN.LEN (c.arg 1 % 2 ^ 32)
      let d1 := (d0.trellisCtlWritten (BitVec.ofNat 32 (putBits (d.word .trellis 0x0).toNat 21 16 (bitsOf (c.arg 2) 21 16)))
        (BitVec.ofNat 32 (bitsOf (c.arg 2) 3 0))).setHostCmd i { c with started := true }
      let result (e : Dev) : Nat := (e.word .trellis 0x14).toNat + (e.word .trellis 0x18).toNat * 2 ^ 32
      (c.started = true → exec (.hostTrellis t q cid) s = .next ⟨s.pending,
        if d.fld .trellis Reg.TRELLIS_STS.LSTATE = 0 then
          d.endHostCmd i c (if d.fld .trellis Reg.TRELLIS_ERR.CODE ≠ 0 then 0xB else 0) (result d)
        else d⟩) ∧
      (c.started = false → exec (.hostTrellis t q cid) s = .next ⟨s.pending,
        if d.fld .trellis Reg.TRELLIS_STS.LSTATE ≠ 0 then d1.endHostCmd i c 0xB (result d1)
        else if d1.fld .trellis Reg.TRELLIS_STS.LSTATE = 0 then
          d1.endHostCmd i c (if d1.fld .trellis Reg.TRELLIS_ERR.CODE ≠ 0 then 0xB else 0) (result d1)
        else d1⟩)) ∧
    (found (fun o => o == 4) → exec (.hostWaitChime t q cid) s = .next ⟨s.pending,
      if d.chime.started = true ∧ c.arg 0 ≤ d.chime.count.toNat then d.endHostCmd i c 0 d.chime.count.toNat
      else d.setHostCmd i { c with started := true }⟩) ∧
    (∀ x, found (fun o => o == 5) → d.bed bed = some x → exec (.hostWaitWindows t q cid) s = .next ⟨s.pending,
      if x.state = .halted then d.endHostCmd i c 0xA 0
      else if (x.winCnt + 2 ^ 32 - c.arg 1 % 2 ^ 32) % 2 ^ 32 < 2 ^ 31 then d.endHostCmd i c 0 (x.winCnt % 2 ^ 32)
      else d.setHostCmd i { c with started := true }⟩) ∧
    (∀ st r, found (fun o => decide (0x80 ≤ o)) → exec (.hostFirmware t q cid st r) s = .next ⟨s.pending,
      if d.isSet .queue Reg.QUEUE_FW_CTL.FW_EN = false then d.endHostCmd i c 0xC 0
      else if c.started then d.endHostCmd i c (st % 2 ^ 15) (r % 2 ^ 64)
      else (d.setHostCmd i { c with started := true }).emit [.firmware q c.bytes]⟩) ∧
    (found (fun o => o == 1) → c.started = false → bitsOf (c.arg 3) 1 0 ≠ 0 →
      let n := (d.copyPlan c).1
      let m := copyMem (bitsOf (c.arg 3) 1 0) (c.arg 0)
      let ls := d.readLanes m.1 m.2 n
      exec (.hostCopy t q cid) s = .next ⟨s.pending, ((d.noteFrom 0xFF (.lodge (d.queuePort q)) (m.1.wordsOf m.2 n)).copyOut c 0 ls).endHostCmd i
        { c with delivered := n } (copyStatus (d.copyPlan c).2 (anyBadLane ls)) n⟩)

/-- 15 R365, R367, R373, R374: a context command of the window of its sender, which reaches its own queues only if a VF: READ snapshots the
queue's 64 bytes, WRITE gives an empty or failed queue a context that keeps the tables and of a VF the fields that are the PF's, ABORT_ALL ends
every outstanding command with ABORTED, RESET returns a queue to KIND 0; each refused with its cause. QUEUE_BED_VEC takes a vector that may be
named.
Completion (the conclusion is a next state, under conditions on the state and the operands alone): qctxRead, qctxWrite, qctxAbortAll,
qctxReset, queueBedVecWrite. -/
def Obligations.QueueWritesComplete : Prop :=
  (∀ (s : State) (t : Nat) (src : Source), s.accepts src .queue 0x4 →
    let d := s.written t src .queue
    let q := d.qctxSel src
    let c := d.vfMerge src q (d.qctxData src)
    (d.owns src q = true →
      exec (.qctxRead t src) s = .next ⟨s.pending, (List.range 16).foldl (fun e n => e.setQword src (0x40 + 4 * n)
        (BitVec.ofNat 32 ((d.ctx q).toNat / 2 ^ (32 * n) % 2 ^ 32))) d⟩ ∧
      exec (.qctxAbortAll t src) s = .next ⟨s.pending,
        if d.qfld q Ctx.kind = 1 then d.abortAll q else d.setQsts src Reg.QUEUE_STS.CMD_IGN 1⟩ ∧
      exec (.qctxWrite t src) s = .next ⟨s.pending,
        if ¬(d.queueEmpty q = true ∨ d.qfld q Ctx.kind ≠ 0 ∧ d.queueInError q = true) then d.rejectCtx src 1
        else if d.ctxOk c = false then d.rejectCtx src 2
        else if ctxGet c Ctx.kind ≠ 0 ∧ (ctxGet c Ctx.msix).testBit 15 = true ∧
          d.vectorBad (ctxGet c Ctx.func) (ctxGet c Ctx.msix % 2 ^ 11) = true then d.rejectCtx src 3
        else if d.pageUsed q c then d.rejectCtx src 5
        else (d.orphanQueue q).setCtx q (ctxFresh (d.ctx q) c)⟩ ∧
      (d.qfld q Ctx.kind = 1 → exec (.qctxReset t src) s = .next ⟨s.pending,
        if d.qfld q Ctx.outstanding = 0 then (d.orphanQueue q).setCtx q 0#512 else d.rejectCtx src 6⟩) ∧
      (d.qfld q Ctx.kind = 2 → exec (.qctxReset t src) s = .next ⟨s.pending,
        if d.queueEmpty q = true ∨ d.queueInError q = true then (d.orphanQueue q).setCtx q 0#512 else d.rejectCtx src 6⟩)) ∧
    (d.owns src q = false → ∀ x ∈ [Instr.qctxRead t src, .qctxWrite t src, .qctxAbortAll t src, .qctxReset t src],
      exec x s = .next ⟨s.pending, d.rejectCtx src 4⟩) ∧
    (src.vf = none → d.owns src q = true ∧ c = d.qctxData src)) ∧
  (∀ (s : State) (t : Nat) (src : Source) (bed : Nat) (w : Word), bed < 64 → s.accepts src .queue (0x100 + 4 * bed) →
    let d := s.written t src .queue
    exec (.queueBedVecWrite t src bed w) s = .next ⟨s.pending,
      if w.toNat.testBit 31 = true ∧ d.vectorBad (bitsOf w.toNat 19 11) (bitsOf w.toNat 10 0) = true then
        (d.setQsts (.gatehouse 0) Reg.QUEUE_STS.CTX_REJ 1).setQsts (.gatehouse 0) Reg.QUEUE_STS.REJ_CAUSE 3
      else d.setWord .queue (0x100 + 4 * bed) w⟩)

/-- 16 R382, R384, R388, R392, Table 16.5: a warden or standby sends its heartbeat 1 µs or more after its last, an interval without one from the
other lodge counted; a heartbeat reaches the other lodge within 200 ns, which learns its pair and compares its digest; the standby
meets each record; a full copy that completes makes its lodge SYNCED, and a fenced one STANDBY.
Completion (the conclusion is a next state, under conditions on the state and the operands alone): heartbeatSend, heartbeatReceive,
echoRecord, resyncDone. -/
def Obligations.HeartbeatsComplete : Prop :=
  (∀ (s : State) (t l : Nat), l < 2 → s.live (.warden l) → (s.dev.role l = 1 ∨ s.dev.role l = 2) →
    (s.dev.lodge l).stopped = false → (∀ h, (s.dev.ward l).hbT = some h → h + 64000 ≤ max s.dev.now t) →
    let d := s.dev.touch t
    let dig := d.word (.warden l) 0x20 ++ d.word (.warden l) 0x1C
    let e := d.fld (.warden l) Reg.WARDEN_EPOCH.EPOCH
    let d1 := if (d.ward l).gotHb then d else d.countSat (.warden l) Reg.WARDEN_HB_MISS.COUNT 1
    exec (.heartbeatSend t l) s = .next ⟨s.pending, (d1.modWard l (fun w => { w with
      gotHb := false, hbT := some d.now,
      hb := some ⟨e, if d.role l = 1 then l else 1 - l, d.pref l, dig, d.chime.count, d.role l == 1, d.now⟩ })).emit
        [.heartbeat l e (d.pref l) dig]⟩) ∧
  (∀ (s : State) (t l : Nat) (m : HbMsg), l < 2 → s.live (.warden l) → (s.dev.ward (1 - l)).hb = some m →
    max s.dev.now t ≤ m.sentT + 200 * 64 →
    let d := s.dev.touch t
    let d1 := (d.modWard l (fun w => { w with lastHb := some d.now, gotHb := true })).setFld (.warden l) Reg.WARDEN_STS.PREF_MIX
      (bit (m.pref != d.pref l))
    exec (.heartbeatReceive t l) s = .next ⟨s.pending, (d1.learnPair l (m.epoch, m.lodge) m.warden).compareDigest l m⟩) ∧
  (∀ (s : State) (t l : Nat) (ok : Bool), l < 2 → s.live (.warden l) → s.dev.role l = 2 →
    let d := s.dev.touch t
    exec (.echoRecord t l ok) s = .next ⟨s.pending, if ok then d else d.modWard l (fun w => { w with diverged := true })⟩) ∧
  (∀ (s : State) (t l : Nat), l < 2 → s.live (.warden l) → (s.dev.ward l).resyncing = true → s.dev.role (1 - l) = 1 →
    (s.dev.role l = 2 ∨ s.dev.role l = 3) →
    let d := s.dev.touch t
    let d1 := (d.setSync l 2).modWard l (fun w => { w with resyncing := false, diverged := false, compared := true })
    exec (.resyncDone t l) s = .next ⟨s.pending, (if d.role l = 3 then d1.setRole l 2 else d1).endFirmwareSteps⟩)

/-- 16 R383 to R386, R391: a standby without a heartbeat for 8 µs, or handed the role, claims, and so does an ELECTING lodge in step 5: its
claim has the epoch after the highest that it has seen. A die acknowledges the pair that it holds or one that outranks it, and takes that
pair; ACKs and REJs reach the lodge; with a REJ the claim fails, with five ACKs and every die answered or 1 µs past it
succeeds, and until then it is sent again 4 µs after it was.
Completion (the conclusion is a next state, under conditions on the state and the operands alone): heartbeatTimeout, election,
claimReceive, claimAnswer, claimResolve, claimRepeat. -/
def Obligations.ClaimsComplete : Prop :=
  (∀ (s : State) (t l : Nat), l < 2 → s.live (.warden l) → (s.dev.ward l).claim = none → (s.dev.ward l).seen < 0xFFFFFFFF →
    let d := s.dev.touch t
    let e := (d.ward l).seen + 1
    let claimed := ((d.setWord (.warden l) 0xC 0#32).modWard l (fun w => { w with
      claim := some (e, d.now), answers := [], rej := none, handOver := false })).emit [.claim l e]
    (d.role l = 2 → ((d.ward l).handOver = true ∨ d.isSet (.warden l) Reg.WARDEN_CTL.TAKEOVER_EN = true ∧
        ∃ h, (d.ward l).lastHb = some h ∧ h + 512000 ≤ d.now) →
      exec (.heartbeatTimeout t l) s = .next ⟨s.pending, claimed⟩) ∧
    (d.role l = 0 → (d.lodge l).step = 5 → (d.lodge l).stopped = false →
      exec (.election t l) s = .next ⟨s.pending, claimed⟩)) ∧
  (∀ (s : State) (t k l e at_ : Nat), l < 2 → k < 8 → s.live (.warden l) → (s.dev.ward l).claim = some (e, at_) →
    let d := s.dev.touch t
    let held := d.diePair k
    let ack := (e, l) == held || d.outranks (e, l) held
    let d1 := if ack then (d.setFld (.dieCtl k) Reg.DIE_WEPOCH.EPOCH e).setFld (.dieCtl k) Reg.DIE_WARDEN_STS.LODGE l else d
    exec (.claimReceive t k l) s = .next ⟨s.pending, (d1.modWard l (fun w => { w with
      answers := w.answers.filter (fun a => a.1 != k) ++ [(k, ack, d1.diePair k)] })).emit [.claimAnswer k l ack]⟩) ∧
  (∀ (s : State) (t k l e at_ : Nat) (p : Nat × Nat) (ack : Bool), l < 2 → k < 8 → s.live (.warden l) →
    (s.dev.ward l).claim = some (e, at_) → (s.dev.ward l).answers.find? (fun a => a.1 == k) = some (k, ack, p) →
    let d := s.dev.touch t
    let d1 := d.modWard l (fun w => { w with answers := w.answers.filter (fun a => a.1 != k) })
    exec (.claimAnswer t l k) s = .next ⟨s.pending,
      if ack then d1.setFld (.warden l) Reg.WARDEN_CLAIM.ACK (d.fld (.warden l) Reg.WARDEN_CLAIM.ACK ||| 2 ^ k)
      else (d1.setFld (.warden l) Reg.WARDEN_CLAIM.REJ (d.fld (.warden l) Reg.WARDEN_CLAIM.REJ ||| 2 ^ k)).modWard l (fun w =>
        { w with seen := max w.seen p.1, rej := match w.rej with
            | some q => if d.outranks p q then some p else some q
            | none => some p })⟩) ∧
  (∀ (s : State) (t l e at_ : Nat), l < 2 → s.live (.warden l) → (s.dev.ward l).claim = some (e, at_) →
    let d := s.dev.touch t
    let ack := d.fld (.warden l) Reg.WARDEN_CLAIM.ACK
    (∀ p, (d.ward l).rej = some p →
      let d1 := ((d.setRole l 2).follow l p.1).modWard l (fun w => { w with
        claim := none, answers := [], rej := none, lastHb := some d.now })
      exec (.claimResolve t l) s = .next ⟨s.pending, (if d.sync l = 2 then d1 else d1.beginResync l).endStep l 5 6⟩) ∧
    ((d.ward l).rej = none → 5 ≤ popCount8 ack → (ack = 0xFF ∨ at_ + 64000 ≤ d.now) →
      let lost := 0xFF - ack
      let d2 := ((((d.setRole l 1).follow l e).modWard l (fun w => { w with claim := none, answers := [], outranked := none })).setFld
        (.warden l) Reg.WARDEN_CLAIM.LOST lost).setFld (.warden l) Reg.WARDEN_STS.DIE_LOST
          (if lost = 0 then d.fld (.warden l) Reg.WARDEN_STS.DIE_LOST else 1)
      exec (.claimResolve t l) s = .next ⟨s.pending, if d.role l = 2 then d2.takeOver l else d2.endStep l 5 6⟩) ∧
    ((d.ward l).rej = none → at_ + 256000 ≤ d.now → exec (.claimRepeat t l) s = .next ⟨s.pending,
      ((d.setWord (.warden l) 0xC 0#32).modWard l (fun w => { w with claim := some (e, d.now), answers := [] })).emit [.claim l e]⟩))

/-- 04 R92, R102, R107, 16 R384, R387, R388, R391, R392: a control write to a die is refused by an error of its size, of a gated or of a busy
block, and else has its effect when its pair is the die's, and is refused and counted as STALE otherwise;
a warden that has learned of an outranking pair fences itself, LOST, its loader abandoned; YIELD hands the role to a SYNCED standby, and
RESYNC begins a full copy from the warden to the other lodge, each setting CMD_IGN where it may not.
Completion (the conclusion is a next state, under conditions on the state and the operands alone): dieControlWrite, wardenFence,
wardenYield, wardenResync. -/
def Obligations.WardensComplete : Prop :=
  (∀ (s : State) (t l : Nat) (p : Nat × Nat), l < 2 → s.live (.warden l) → s.dev.lostTo l = some p → s.dev.role l = 1 →
    let d := s.dev.touch t
    let d1 := ((d.setRole l 3).setFld (.warden l) Reg.WARDEN_STS.LOST 1).follow l p.1
    let d2 := ((d1.countWrap (.warden l) Reg.WARDEN_CHANGES.COUNT 1).modWard l (fun w => { w with
      outranked := none, claim := none, lastHb := some d.now })).abandonLoad LCode.abortWarden
    exec (.wardenFence t l) s = .next ⟨s.pending,
      if (d.lodge l).step = 7 ∨ (d.lodge l).step = 8 ∨ (d.lodge l).stopped = true then
        d2.modLodge l (fun x => { x with step := 0, stopped := true })
      else d2.beginResync l⟩) ∧
  (∀ (s : State) (t : Nat) (src : Source), src.lodge < 2 → s.accepts src (.warden src.lodge) 0x0 →
    let l := src.lodge
    let o := 1 - l
    let d0 := s.written t src (.warden l)
    let d := d0.setWord (.warden l) 0x0 (d0.word (.warden l) 0x0)
    let ign := d.setFld (.warden l) Reg.WARDEN_STS.CMD_IGN 1
    exec (.wardenYield t src) s = .next ⟨s.pending,
      if d.role l = 1 ∧ d.role o = 2 ∧ d.sync o = 2 then
        (((((d.setRole l 2).setSync l 2).countWrap (.warden l) Reg.WARDEN_CHANGES.COUNT 1).modWard l
          (fun w => { w with lastHb := some d.now, hb := none })).modWard o (fun w => { w with handOver := true })).emit
            [.handOver o]
      else ign⟩ ∧
    exec (.wardenResync t src) s = .next ⟨s.pending,
      let target := if d.role l = 1 then o else l
      if d.role (otherLodge target) = 1 ∧ (d.role target = 2 ∨ d.role target = 3) then d.beginResync target else ign⟩) ∧
  (∀ (s : State) (t l e k : Nat) (w : WriteAccess) (b : Blk), l < 2 → target w.src w.addr = some (b, false) → w.src.isVf = false →
    b.dieOf = some k → s.live b →
    let d := s.dev.touch t
    let d1 := d.wakeIdle b
    let d2 := d1.noteFirstWrite l
    exec (.dieControlWrite t l e w) s = .next ⟨s.pending,
      if d.writeErr w = some .size then d.refuseWrite w.src w.addr .size
      else if d.writeErr w = some .gated then d.refuseWrite w.src w.addr .gated
      else if d1.diePair k ≠ (e, l) then d1.refuseStale k l
      else if b.posted = true ∧ d2.isBusy b = true then d2.refuseWrite w.src w.addr .busy
      else if b.listed (w.addr % 0x4000) then d2.acceptWrite w.src b (w.addr % 0x4000) (aliasOf w.addr) w.data
      else d2⟩)

/-- 17 R395 to R407: the local source's test begins 0.5 ms · 2^OSC_WAIT after power-good, an interval judged with INT_OSC up to 8% fast; a window is
judged by its count, of a source under test and of the active source; PLLs that lock end a hold-over that returns; the ramped domains
step once toward their target, 2 µs or more apart; a loss of INT_OSC is an emergency stop; the W1C write of FROST clears it and releases FROST_N when neither
lodge shows it.
Completion (the conclusion is a next state, under conditions on the state and the operands alone): oscWaitEnd, sundialWindow, pllLockDone,
rampStep, intOscLoss, frostClear. -/
def Obligations.ReferenceEventsComplete : Prop :=
  (∀ (s : State) (t l p : Nat), l < 2 → s.live (.clock l) → (s.dev.clk l).oscFrom = some p →
    p * 27 + 32000000 * 2 ^ (s.dev.lodge l).straps.osc * 25 ≤ max s.dev.now t * 27 →
    exec (.oscWaitEnd t l) s = .next ⟨s.pending,
      (s.dev.touch t).modClk l (fun c => { c with oscFrom := none, test := some (1, [], 0), outcome := none })⟩) ∧
  (∀ (s : State) (t l n : Nat), l < 2 → s.live (.clock l) →
    let d := (s.dev.touch t).setFld (.clock l) Reg.SUNDIAL_LAST.COUNT (min n 4095)
    ((s.dev.clk l).test ≠ none → exec (.sundialWindow t l n) s = .next ⟨s.pending, (d.testWindow l n).endReferenceTest l⟩) ∧
    ((s.dev.clk l).test = none → s.dev.switch = none → s.dev.srcAct l ≠ 0 → s.dev.isSet (.clock l) Reg.SUNDIAL_STS.CAL = true →
      exec (.sundialWindow t l n) s = .next ⟨s.pending, d.judgeWindow l n⟩)) ∧
  (∀ (s : State) (t l : Nat), l < 2 → s.live (.clock l) →
    let d := s.dev.touch t
    (∀ h, d.hold = some h → l = d.wardenLodge → h.returns = true → exec (.pllLockDone t l) s = .next ⟨s.pending,
      { ((d.setLocks 0 1).setLocks 1 1).setClock Reg.SUNDIAL_STS.HOLD 0 with hold := none }⟩) ∧
    (d.hold = none → d.phase ≠ 2 → exec (.pllLockDone t l) s = .next ⟨s.pending, d.setLocks l 1⟩)) ∧
  (∀ (s : State) (t l : Nat), l < 2 → s.live (.clock l) →
    let d := s.dev.touch t
    d.rampDue l = true →
    let next (a : Nat) : Nat := if a < d.targetStep l then a + 1 else if d.targetStep l < a then a - 1 else a
    let d1 := (d.modClk l (fun c => { c with rampT := some d.now })).setFld (.clock l) Reg.CLK_STEP.KEEPER
      (next (d.fld (.clock l) Reg.CLK_STEP.KEEPER))
    exec (.rampStep t l) s = .next ⟨s.pending,
      if l = d.wardenLodge then d1.setClock Reg.CLK_STEP.CORE (next (d.fld (.clock l) Reg.CLK_STEP.CORE)) else d1⟩) ∧
  (∀ (s : State) (t : Nat) (l : Nat), l < 2 → exec (.intOscLoss t l) s = .next ⟨s.pending, (s.dev.touch t).emergencyStop 5⟩) ∧
  (∀ (s : State) (t : Nat) (src : Source), s.accepts src (.clock src.lodge) 0x8 →
    let l := src.lodge
    let d := s.written t src (.clock l)
    let d1 := d.setWord (.clock l) 0x8 (d.word (.clock l) 0x8 &&& ~~~0x80#32)
    exec (.frostClear t src) s = .next ⟨s.pending,
      if d1.isSet (.clock 0) Reg.SUNDIAL_STS.FROST || d1.isSet (.clock 1) Reg.SUNDIAL_STS.FROST then d1
      else { d1 with pwr := { d1.pwr with frost := false } }⟩)

/-- 17 R398, R399, R410 to R412: SELECT of another usable source begins a switch, while neither a switch nor a hold-over is in progress, and is ignored
otherwise; the phases of a switch follow one another as their conditions hold; a write of CLKEN is copied to both lodges, bits that may not
change set CLKEN_IGN, and it takes effect later.
Completion (the conclusion is a next state, under conditions on the state and the operands alone): clkSelect, switchPhaseEnd, clkenWrite,
clkenApply. -/
def Obligations.ClockCommandsComplete : Prop :=
  (∀ (s : State) (t : Nat) (src : Source) (sel : BitVec 2) (port : BitVec 3), src.lodge < 2 →
    s.accepts src (.clock src.lodge) 0x0 → sel ≠ 3#2 →
    let l := src.lodge
    let d := s.written t src (.clock l)
    let new := BitVec.ofNat 32 (putBits (putBits (d.word (.clock l) 0x0).toNat 5 4 sel.toNat) 10 8 port.toNat)
    let put (d : Dev) (k : Nat) : Dev :=
      ((d.setFld (.clock k) Reg.CLK_CTL.SRC (bitsOf new.toNat 5 4)).setFld (.clock k) Reg.CLK_CTL.PORT
        (bitsOf new.toNat 10 8)).setFld (.clock k) Reg.CLK_CTL.HOLD_WINDOWS (bitsOf new.toNat 23 16)
    exec (.clkSelect t src sel port) s = .next ⟨s.pending, ((put d (1 - l)).setWord (.clock l) 0x0 new).selectSource l⟩) ∧
  (∀ (s : State) (l src port : Nat), s.dev.fld (.clock l) Reg.CLK_CTL.SRC = src → s.dev.fld (.clock l) Reg.CLK_CTL.PORT = port →
    s.dev.selectSource l =
      if s.dev.switch = none ∧ s.dev.hold = none ∧ s.dev.sourceUsable src port = true ∧
        (src ≠ s.dev.srcAct l ∨ src = 2 ∧ port ≠ s.dev.fld (.clock l) Reg.CLK_STS.PORT_ACT) then
        { (s.dev.setClock Reg.CLK_STS.SWITCHING 1).setClock Reg.CLK_STS.PHASE 1 with switch := some ⟨src, port, s.dev.now, false⟩ }
      else s.dev.setFld (.clock l) Reg.CLK_STS.CMD_IGN 1) ∧
  (∀ (s : State) (t l : Nat) (w : SwitchSt), l < 2 → s.live (.clock l) → s.dev.switch = some w → s.dev.wardenLodge = l →
    let d := s.dev.touch t
    (d.phase = 1 → d.allAt 48 = true → exec (.switchPhaseEnd t l) s = .next ⟨s.pending,
      ((d.setClock Reg.CLK_STS.PHASE 2).setLocks 0 0).setLocks 1 0⟩) ∧
    (d.phase = 2 → w.reverts = true → exec (.switchPhaseEnd t l) s = .next ⟨s.pending,
      ((d.setLocks 0 1).setLocks 1 1).setClock Reg.CLK_STS.PHASE 4⟩) ∧
    (d.phase = 4 → d.allAt (d.targetStep l) = true → exec (.switchPhaseEnd t l) s = .next ⟨s.pending,
      { ((d.setClock Reg.CLK_STS.PHASE 0).setClock Reg.CLK_STS.SWITCHING 0).setClock Reg.CLK_SWITCH_LAT.LAT_NS
        (min ((d.now - w.startT) / 64) 0xFFFFFFFF) with switch := none }⟩)) ∧
  (∀ (s : State) (t : Nat) (src : Source) (o : Nat) (w : Word), 0x100 ≤ o → o < 0x300 → o % 4 = 0 →
    s.accepts src (.clock src.lodge) o →
    let l := src.lodge
    let d := s.written t src (.clock l)
    exec (.clkenWrite t src o w) s = .next ⟨s.pending,
      d.clkenWritten l o (writeMerge (.clock l) o .base w (d.word (.clock l) o))⟩) ∧
  (∀ (s : State) (t : Nat), (∃ d : Dev, exec (.clkenApply t) s = .next ⟨s.pending, d⟩ ∧
    d.clkOn = clkenOffsets.foldl (fun c o => Tbl.set (fun _ => 0#32) c o (s.dev.word (.clock s.dev.wardenLodge) o)) s.dev.clkOn ∧
    d.mems = s.dev.mems ∧ d.beds = (s.dev.touch t).beds ∧ d.items = (s.dev.touch t).items))

/-- 16 Table 16.2, 18 R419 to R421, R427: POP removes the oldest entry of the log and is ignored with none, CLEAR removes all; a scrubber reads the next
unit of its memory; a mismatch of control state is logged, and halts the one bed that its block serves; a keeper whose watchdog expires
halts.
Completion (the conclusion is a next state, under conditions on the state and the operands alone): scrubRead, controlStateMismatch,
faultPop, faultClear, keeperWatchdog. -/
def Obligations.ReliabilityCommandsComplete : Prop :=
  (∀ (s : State) (t : Nat) (src : Source), s.accepts src .fault 0x0 →
    let d0 := s.written t src .fault
    let d := d0.setWord .fault 0x0 (d0.word .fault 0x0)
    (s.dev.log = [] → exec (.faultPop t src) s = .next ⟨s.pending, d.setFld .fault Reg.FAULT_STS.CMD_IGN 1⟩) ∧
    (∀ e es, s.dev.log = e :: es → exec (.faultPop t src) s = .next ⟨s.pending, { d with log := es }⟩) ∧
    exec (.faultClear t src) s = .next ⟨s.pending, { d with log := [] }⟩) ∧
  (∀ (s : State) (t k : Nat), s.live .fault → k < 16 →
    exec (.scrubRead t (.hbm k)) s = .next ⟨s.pending, (s.dev.touch t).scrubHbm k⟩) ∧
  (∀ (s : State) (t k : Nat), s.live .fault → k < 8 →
    exec (.scrubRead t (.sram k)) s = .next ⟨s.pending, (s.dev.touch t).scrubSram k⟩) ∧
  (∀ (s : State) (t die p bed : Nat), (s.dev.touch t).bedOfPlot die p = some bed →
    let d := (s.dev.touch t).setFld (.plot die p) Reg.BENCH_STS.CTL_ERR 1
    exec (.controlStateMismatch t (.block (.plot die p))) s = .next ⟨s.pending,
      (d.logPush { d.entry (.plot die p) Ev.ctl 2 with bed := bed }).haltBed bed 3⟩) ∧
  (∀ (s : State) (t : Nat) (b : Blk), b.ofOneBed = false →
    exec (.controlStateMismatch t (.block b)) s = .next ⟨s.pending,
      (s.dev.touch t).logPush ((s.dev.touch t).entry b Ev.ctl 3)⟩) ∧
  (∀ (s : State) (t l core : Nat), l < 2 → core < 16 → s.live (.lodgeCtl l) → s.dev.fld (.lodgeCtl l) Reg.KEEPER_WDOG.TIMEOUT_US ≠ 0 →
    (s.dev.fld (.lodgeCtl l) Reg.LODGE_STS.KEEPER_UP).testBit core = true →
    let d := s.dev.touch t
    let up := d.fld (.lodgeCtl l) Reg.LODGE_STS.KEEPER_UP
    let d1 := (d.setFld (.lodgeCtl l) Reg.LODGE_STS.KEEPER_UP (up - 2 ^ core)).setFld (.lodgeCtl l) Reg.KEEPER_HALT.HALT
      (d.fld (.lodgeCtl l) Reg.KEEPER_HALT.HALT ||| 2 ^ core)
    exec (.keeperWatchdog t l core) s = .next ⟨s.pending, d1.logPush (d1.entry (.lodgeCtl l) Ev.keeper 2)⟩)

/-- 19 R428, R430 to R432, R437, 21 R465, R467: PWRGD starts both lodges; an HBM attempt that ends well makes the stack READY at its bin, one that fails
retrains at the next lower bin, and one that fails at 6.4 Gb/s makes it FAILED; a step that fails stops its lodge with the cause; step 3
ends with verified gatehouse firmware, step 4 stops on BAD_STRAP, FLASH, IDENT, CTR_AUTH and LOADER_SIG, step 6 ends with verified keeper
firmware that its counter allows, and step 8 builds the repair map.
Completion (the conclusion is a next state, under conditions on the state and the operands alone): pwrgdRise, hbmAttemptEnd, startStepEnd. -/
def Obligations.StartupComplete : Prop :=
  (∀ (s : State) (t : Nat) (a b : Straps), s.live .power → s.dev.pwr.vaux = true → s.dev.pwr.pwrgd = false →
    let d := s.dev.touch t
    let hot := d.pwr.stopped && d.pwr.temps.any (fun x => decide (d.warnTemp ≤ x))
    exec (.pwrgdRise t a b) s = .next ⟨s.pending, (({ d.setFld .power Reg.POWER_STS.STATE 0 with pwr := { d.pwr with
      pwrgd := true, stopped := false, hotStart := hot, vinRoc := true } }).startLodge 0 a).startLodge 1 b⟩) ∧
  (∀ (s : State) (t k step cause rows : Nat), k < 16 → s.live (.hbmCtl (k / 2) (k % 2)) →
    s.dev.fld (.hbmCtl (k / 2) (k % 2)) Reg.HBM_STS.STATE = 1 →
    cause = 0 ∨ (1 ≤ step ∧ step ≤ 11 ∧ (cause = 11 ∨ cause = step ∧ step ≤ 10)) →
    let b := Blk.hbmCtl (k / 2) (k % 2)
    let d := s.dev.touch t
    let bin := d.fld b Reg.HBM_STS.BIN_ACT
    let d1 := ((d.countSat b Reg.HBM_TRAIN.ATTEMPTS 1).countSat b Reg.HBM_TRAIN_US.US
      ((d.now - Tbl.get (fun _ => 0) d.trainT k) / 64000)).countSat b Reg.HBM_ROW_REPAIR.COUNT rows
    let d2 := ((d1.setFld b Reg.HBM_STS.TRAIN_STEP (step - 1)).setFld b Reg.HBM_TRAIN.FAIL_STEP step).setFld b
      Reg.HBM_TRAIN.FAIL_CAUSE cause
    let d3 := ((d2.setFld b Reg.HBM_STS.STATE 4).setFld b Reg.HBM_STS.BIN_ACT 3).showStack k 3
    let after (x : Dev) : Dev := if x.stacksTrained then x.endStep x.wardenLodge 7 8 else x
    (cause = 0 → exec (.hbmAttemptEnd t k step cause rows) s = .next ⟨s.pending,
      after (((d1.setFld b Reg.HBM_STS.TRAIN_STEP 11).setFld b Reg.HBM_STS.STATE 2).showStack k bin)⟩) ∧
    (cause ≠ 0 → bin < 2 → exec (.hbmAttemptEnd t k step cause rows) s = .next ⟨s.pending,
      after { d2.setFld b Reg.HBM_STS.BIN_ACT (bin + 1) with trainT := Tbl.set (fun _ => 0) d.trainT k d.now }⟩) ∧
    (cause ≠ 0 → 2 ≤ bin → exec (.hbmAttemptEnd t k step cause rows) s = .next ⟨s.pending,
      after (d3.logPush (d3.entry b Ev.ctl 2))⟩)) ∧
  (∀ (s : State) (t l : Nat), l < 2 → s.live (.security l) → (s.dev.lodge l).stopped = false → s.dev.powerState ≠ 5 →
    let d := s.dev.touch t
    let x := d.lodge l
    (∀ c, x.step = 3 ∨ x.step = 4 ∨ x.step = 6 ∨ x.step = 8 →
      exec (.startStepEnd t l (.failed c)) s = .next ⟨s.pending, d.stopLodge l c⟩) ∧
    (x.step = 3 → ∀ (bs cert : List Byte) (owners : List OwnerSlot),
      owners = (match certOwners l cert none 0 with | some (_, os) => os | none => []) →
      (verifyImage 2 (componentKey owners x.straps.boot 2) bs = none →
        exec (.startStepEnd t l (.image bs cert)) s = .next ⟨s.pending, d.stopLodge l 2⟩) ∧
      (∀ v, verifyImage 2 (componentKey owners x.straps.boot 2) bs = some v → d.pwr.hotStart = false →
        exec (.startStepEnd t l (.image bs cert)) s = .next ⟨s.pending,
          (((d.setFld (.lodgeCtl l) Reg.LODGE_STS.GH_READY 1).setMeas l 3 (Config.sm3 bs)).modLodge l
            (fun x => { x with ghVer := some v })).endStep l 3 4⟩)) ∧
    (x.step = 4 →
      (∀ m, x.straps.boot = 3 → exec (.startStepEnd t l (.boot m)) s = .next ⟨s.pending, d.stopLodge l 6⟩) ∧
      (x.straps.boot ≠ 3 → exec (.startStepEnd t l (.boot none)) s = .next ⟨s.pending, d.stopLodge l 5⟩) ∧
      (∀ m : BootMedia, x.straps.boot < 2 → m.ident = none →
        exec (.startStepEnd t l (.boot (some m))) s = .next ⟨s.pending, d.stopLodge l 7⟩) ∧
      (∀ m : BootMedia, x.straps.boot ≠ 3 → m.ident ≠ none → m.counters = none →
        exec (.startStepEnd t l (.boot (some m))) s = .next ⟨s.pending, d.stopLodge l 4⟩) ∧
      (∀ (m : BootMedia) (c : Nat × Nat × Nat × Nat), x.straps.boot ≠ 3 → m.ident ≠ none → m.counters = some c →
        let v := if m.rootKey = Config.vendorKey then verifyImage 1 vendorOnly m.loader else none
        (v = none → exec (.startStepEnd t l (.boot (some m))) s = .next ⟨s.pending, d.stopLodge l 1⟩) ∧
        (∀ n, v = some n → n < c.1 ∨ x.ghVer.getD 0 < c.2.1 →
          exec (.startStepEnd t l (.boot (some m))) s = .next ⟨s.pending, d.stopLodge l 3⟩) ∧
        (∀ n, v = some n → c.1 ≤ n → c.2.1 ≤ x.ghVer.getD 0 → exec (.startStepEnd t l (.boot (some m))) s = .next ⟨s.pending,
          (((((((d.setIdentity l m.ident).setCounters l c).enrol l
            (certOwners l m.cert (m.ident.map (fun i => i.2)) c.2.2.2)).setMeas l 1 m.rom).setMeas l 2
            (Config.sm3 m.loader)).setFld (.lodgeCtl l) Reg.LODGE_STS.KEEPER_UP
            (d.fld (.lodgeCtl l) Reg.KEEPER_RUN.RUN % 2)).modLodge l (fun x => { x with loaderVer := some n })).endStep l 4 5⟩))) ∧
    (x.step = 6 → d.isSet (.lodgeCtl l) Reg.LODGE_STS.FW_UP = false → ∀ bs cert : List Byte,
      let v := verifyImage 3 (componentKey (d.owners.filter (fun o => o.lodge == l)) x.straps.boot 1) bs
      (v = none → exec (.startStepEnd t l (.image bs cert)) s = .next ⟨s.pending, d.stopLodge l 2⟩) ∧
      (∀ n, v = some n → n < d.counter l 1 →
        exec (.startStepEnd t l (.image bs cert)) s = .next ⟨s.pending, d.stopLodge l 3⟩) ∧
      (∀ n, v = some n → d.counter l 1 ≤ n →
        let d1 := (((d.setFld (.lodgeCtl l) Reg.LODGE_STS.FW_UP 1).setFld (.lodgeCtl l) Reg.LODGE_STS.KEEPER_UP
          (d.fld (.lodgeCtl l) Reg.KEEPER_RUN.RUN)).setMeas l 4 (Config.sm3 bs)).modLodge l (fun x => { x with fwVer := some n })
        exec (.startStepEnd t l (.image bs cert)) s = .next ⟨s.pending,
          (if d1.isWarden l then (d1.forceClken 0x100 firmwareEnables).logKeptStop else d1).endFirmwareSteps⟩)) ∧
    (x.step = 8 → d.isWarden l = true → ∀ (arrays stages engines : List Nat) (hint : List Byte) (calib : List (Nat × Word)),
      exec (.startStepEnd t l (.bist arrays stages engines hint calib)) s = .next ⟨s.pending, d.bistStep l arrays stages engines hint calib⟩))

/-- 19 R434, R437 to R440: ADVANCE_CTR is accepted when the new value is at least the counter's and at most the version in force, and ignored with
CMD_IGN otherwise, and while one runs (entry 83); its end sets ADV_DONE with the counter raised, or ADV_ERR; HINT_WRITE writes the map of this start, signed; the responder
answers Busy before step 4 has ended, an error without an identity, and as an SPDM responder otherwise.
Completion (the conclusion is a next state, under conditions on the state and the operands alone): advanceCtr, advanceCtrDone, hintWrite,
spdmRequest. -/
def Obligations.SecurityCommandsComplete : Prop :=
  (∀ (s : State) (t : Nat) (src : Source) (ctr : BitVec 2), src.lodge < 2 → s.accepts src (.security src.lodge) 0x0 →
    let b := Blk.security src.lodge
    let d := (s.written t src b).setWord b 0x0
      (BitVec.ofNat 32 (putBits ((s.written t src b).word b 0x0).toNat 9 8 ctr.toNat))
    exec (.advanceCtr t src ctr) s = .next ⟨s.pending, d.advanceCounter src.lodge⟩) ∧
  (∀ (d : Dev) (l n v : Nat), d.fld (.security l) Reg.SEC_CTL.CTR = n → d.fld (.security l) Reg.SEC_CTR_ARG.VALUE = v →
    ((d.lodge l).advance ≠ none → d.advanceCounter l = d.setFld (.security l) Reg.SEC_STS.CMD_IGN 1) ∧
    (d.versionInForce l n = none → d.advanceCounter l = d.setFld (.security l) Reg.SEC_STS.CMD_IGN 1) ∧
    (∀ top, (d.lodge l).advance = none → d.versionInForce l n = some top → d.advanceCounter l =
      if d.fldI (.security l) Reg.SEC_CTR.VALUE n ≤ v ∧ v ≤ top then
        (d.modLodge l (fun x => { x with advance := some (n, v) })).emit [.flashCounter l n v]
      else d.setFld (.security l) Reg.SEC_STS.CMD_IGN 1)) ∧
  (∀ (s : State) (t l n v : Nat), l < 2 → s.live (.security l) → (s.dev.lodge l).advance = some (n, v) →
    let d := (s.dev.touch t).modLodge l (fun x => { x with advance := none })
    exec (.advanceCtrDone t l true) s = .next ⟨s.pending,
      (d.setFldI (.security l) Reg.SEC_CTR.VALUE n v).setFld (.security l) Reg.SEC_STS.ADV_DONE 1⟩ ∧
    exec (.advanceCtrDone t l false) s = .next ⟨s.pending, d.setFld (.security l) Reg.SEC_STS.ADV_ERR 1⟩) ∧
  (∀ (s : State) (t : Nat) (src : Source), src.lodge < 2 → s.accepts src (.security src.lodge) 0x0 →
    let l := src.lodge
    let d := (s.written t src (.security l)).setWord (.security l) 0x0 ((s.written t src (.security l)).word (.security l) 0x0)
    (∀ key, (d.lodge l).ident = some key → d.isSet (.lodgeCtl l) Reg.PARAM_STS.READY = true →
      exec (.hintWrite t src) s = .next ⟨s.pending, d.takeFree.2.emit [.flashHint l
        (leBytes 4 0x54525052 ++ leBytes 4 1 ++ d.terraceBytes) (Config.identSignature d.takeFree.1)]⟩) ∧
    ((d.lodge l).ident = none ∨ d.isSet (.lodgeCtl l) Reg.PARAM_STS.READY = false →
      exec (.hintWrite t src) s = .next ⟨s.pending, d.setFld (.security l) Reg.SEC_STS.CMD_IGN 1⟩)) ∧
  (∀ (s : State) (t l : Nat) (bs : List Byte), l < 2 → s.live (.security l) → s.dev.pwr.vaux = true →
    let d := s.dev.touch t
    (d.fld (.security l) Reg.SEC_STS.START_STEP < 4 →
      exec (.spdmRequest t l bs) s = .next ⟨s.pending, d.emit [.spdm l spdmBusy]⟩) ∧
    (4 ≤ d.fld (.security l) Reg.SEC_STS.START_STEP → d.isSet (.security l) Reg.SEC_STS.IDENT_OK = true →
      exec (.spdmRequest t l bs) s = .next ⟨s.pending, d.takeFree.2.emit [.spdm l (Config.spdmAnswer d.takeFree.1 bs)]⟩) ∧
    (4 ≤ d.fld (.security l) Reg.SEC_STS.START_STEP → d.isSet (.security l) Reg.SEC_STS.IDENT_OK = false →
      exec (.spdmRequest t l bs) s = .next ⟨s.pending, d.takeFree.2.emit [.spdm l (Config.spdmError d.takeFree.1 bs)]⟩))

/-- 20 R443 to R445: ACTIVE leaves IDLE; IDLE and DORMANT are accepted while the device is quiescent (every bed IDLE or HALTED, the loader
IDLE, nothing outstanding), and set CMD_IGN otherwise.
Completion (the conclusion is a next state, under conditions on the state and the operands alone): powerActive, powerIdle, powerDormant. -/
def Obligations.PowerCommandsComplete : Prop :=
  ∀ (s : State) (t : Nat) (src : Source), s.accepts src .power 0x0 →
    let d := (s.written t src .power).setWord .power 0x0 ((s.written t src .power).word .power 0x0)
    let ignored := d.setFld .power Reg.POWER_STS.CMD_IGN 1
    (d.powerState = 1 → exec (.powerActive t src) s = .next ⟨s.pending, d.setPower 0⟩) ∧
    (d.powerState = 0 → exec (.powerActive t src) s = .next ⟨s.pending, d⟩) ∧
    (d.powerState = 0 → exec (.powerIdle t src) s = .next ⟨s.pending, if d.quiescent then d.setPower 1 else ignored⟩) ∧
    (d.powerState = 0 ∨ d.powerState = 1 →
      exec (.powerDormant t src) s = .next ⟨s.pending, if d.quiescent then d.enterDormant else ignored⟩) ∧
    (2 ≤ d.powerState → exec (.powerActive t src) s = .next ⟨s.pending, ignored⟩ ∧
      exec (.powerIdle t src) s = .next ⟨s.pending, ignored⟩ ∧ exec (.powerDormant t src) s = .next ⟨s.pending, ignored⟩)

/-- 20 R446 to R449: entry ends with the stacks in self-refresh, the PLLs unlocked and the keepers off; a wake of DORMANT, or of entry to it, begins
exit and is reported; the gatehouse timer wakes once it has run; at the end of exit the chime runs from the kept count, the recorded ports train
and the held accesses complete, the scrub intervals having waited (18 R420), or start-up begins again from step 4.
Completion (the conclusion is a next state, under conditions on the state and the operands alone): dormantEntryDone, powerWake, wakeTimer,
dormantExitDone. -/
def Obligations.DormancyComplete : Prop :=
  (∀ (s : State) (t : Nat), s.live .power → s.dev.powerState = 3 →
    let d := ((((s.dev.touch t).moveStacks 2 3).setLocks 0 0).setLocks 1 0).keepersOff.setPower 2
    exec (.dormantEntryDone t) s = .next ⟨s.pending, { d with pwr := { d.pwr with entered := d.now } }⟩) ∧
  (∀ (s : State) (t how : Nat), s.live .power → how < 2 → s.dev.powerState = 2 ∨ s.dev.powerState = 3 →
    exec (.powerWake t how) s = .next ⟨s.pending, ((s.dev.touch t).setPower 4).setFld .power Reg.POWER_STS.WAKE_SRC how⟩) ∧
  (∀ (s : State) (t : Nat), s.live .power → s.dev.powerState = 2 → s.dev.isSet .power Reg.POWER_WAKE.EN = true →
    s.dev.pwr.entered + s.dev.fld .power Reg.POWER_WAKE.TIMER_MS * 64000000 ≤ max s.dev.now t →
    exec (.wakeTimer t) s = .next ⟨s.pending, ((s.dev.touch t).setPower 4).setFld .power Reg.POWER_STS.WAKE_SRC 2⟩) ∧
  (∀ (s : State) (t : Nat) (refOk : Bool), s.live .power → s.dev.powerState = 4 →
    exec (.dormantExitDone t refOk true) s = .next ⟨s.pending,
      ((((((((s.dev.touch t).exitScrub).exitClock refOk).moveStacks 3 2).keepersOn).exitWarden).setPower 0).exitChime.exitPorts).releaseHeld⟩ ∧
    exec (.dormantExitDone t refOk false) s = .next ⟨s.pending, (s.dev.touch t).restart⟩)

/-- 20 R452 to R454: chime n is held when (n × d) mod 16 < d for the hold duty d: at duty 3 these are, of every 16, the chimes 0, 6 and 11,
and at duty 0 none is; a reading of the sensors is shown, and one above 115 °C stops the device.
Completion (the conclusion is a next state, under conditions on the state and the operands alone): thermalRead. -/
def Obligations.PowerEventsComplete : Prop :=
  (∀ (d : Dev) (n : DWord), d.heldChime n = true ↔
    n.toNat * d.fld .power Reg.POWER_STS.DUTY % 16 < d.fld .power Reg.POWER_STS.DUTY) ∧
  (∀ (d : Dev), d.fld .power Reg.POWER_STS.DUTY = 3 → ∀ n : DWord,
    d.heldChime n = true ↔ (n.toNat % 16 = 0 ∨ n.toNat % 16 = 6 ∨ n.toNat % 16 = 11)) ∧
  (∀ (d : Dev) (n : DWord), d.fld .power Reg.POWER_STS.DUTY = 0 → d.heldChime n = false) ∧
  (∀ (s : State) (t : Nat) (temps : List Nat), s.live .power → 36 ≤ temps.length →
    let d := ((s.dev.touch t).showTemps temps).warn
    ((∀ x ∈ temps.take 36, x ≤ 460) → exec (.thermalRead t temps) s = .next ⟨s.pending, d⟩) ∧
    ((∃ x ∈ temps.take 36, 460 < x) → exec (.thermalRead t temps) s = .next ⟨s.pending, d.emergencyStop 1⟩))

/-- 20 R454, R455, 21 R465 to R467: an emergency stop loses everything on VIN48 and keeps its cause, with THERM_TRIP_N low; THERM_TRIP_N, a regulator
fault and VIN48 outside 38 V to 60 V cause one; PWRGD falling loses as much and records no cause; VAUX3V3 lost leaves nothing, and applied makes
the state OFF.
Completion (the conclusion is a next state, under conditions on the state and the operands alone): emergencyStop, thermTripInput,
vin48Fault, regulatorFault, vauxLoss, pwrgdFall, vauxApply. -/
def Obligations.SuppliesComplete : Prop :=
  (∀ (s : State) (t : Nat), s.dev.pwr.pwrgd = true → s.dev.powerState ≠ 5 →
    let stopped (c : Nat) : Dev :=
      let d := (s.dev.touch t).powerOff.setFld .power Reg.POWER_ESTOP.CAUSE c
      { d with pwr := { d.pwr with thermTrip := true, stopped := true, cause := some c } }
    (∀ c, 1 ≤ c → c ≤ 5 → exec (.emergencyStop t c) s = .next ⟨s.pending, stopped c⟩) ∧
    exec (.thermTripInput t) s = .next ⟨s.pending, stopped 2⟩ ∧
    exec (.regulatorFault t) s = .next ⟨s.pending, stopped 4⟩ ∧
    (∀ mv, mv < 38000 ∨ 60000 < mv → exec (.vin48Fault t mv) s = .next ⟨s.pending, stopped 3⟩) ∧
    (∀ mv, 38000 ≤ mv → mv ≤ 60000 → exec (.vin48Fault t mv) s = .next ⟨s.pending,
      { s.dev.touch t with pwr := { s.dev.pwr with vinRoc := decide (40000 ≤ mv ∧ mv ≤ 58000) } }⟩)) ∧
  (∀ (s : State) (t : Nat), s.dev.pwr.pwrgd = true →
    let d := (s.dev.touch t).powerOff
    exec (.pwrgdFall t) s = .next ⟨s.pending, { d with pwr := { d.pwr with pwrgd := false, thermTrip := false } }⟩) ∧
  (∀ (s : State) (t : Nat), exec (.vauxLoss t) s = .next ⟨s.pending,
    { Dev.start with now := max s.dev.now t, sent := s.dev.sent, freeCnt := s.dev.freeCnt }⟩) ∧
  (∀ (s : State) (t : Nat), s.dev.pwr.vaux = false →
    let d := s.dev.touch t
    exec (.vauxApply t) s = .next ⟨s.pending, ({ d with pwr := { d.pwr with vaux := true } }).setPower 5⟩) ∧
  (∀ d : Dev, d.powerOff.hbm = [] ∧ d.powerOff.gh = [] ∧ d.powerOff.bench = [] ∧ d.powerOff.beds = [] ∧ d.powerOff.log = [] ∧
    d.powerOff.now = d.now ∧ d.powerOff.pwr.cause = d.pwr.cause ∧
    ∀ l k, l < 2 → k < 0x4000 → d.powerOff.word (.security l) k = d.word (.security l) k)

/-- A step runs the command in front of the queue, with the rest of the queue waiting, and answers its outcome; on an empty queue
the block idles, which is the model's choice (entry 1). -/
def Obligations.StepRunsTheFrontCommand : Prop :=
  (∀ (s : State) (c : Instr) (cs : List Instr), s.pending = c :: cs → step s = exec c ⟨cs, s.dev⟩) ∧
  (∀ s : State, s.pending = [] → step s = .next s)

/-- Every command leaves the queue as it is and answers a next state, or stops because a block's reserved-live bits are altered
(04 R100); in a state where none is, it answers a next state. No command is refused. In OFF and in DORMANT nothing outside POWER and
SECURITY runs: the events of the chime, the shed sequencers, the engines and the links then change nothing but the time (20 Table 20.1). -/
def Obligations.CommandsStopOnlyOnAlteredBlocks : Prop :=
  (∀ (c : Instr) (s : State), (∃ d : Dev, exec c s = .next ⟨s.pending, d⟩) ∨
    (exec c s = .fault .reservedLive ∧ ∃ b : Blk, s.dev.altered b = true)) ∧
  (∀ (c : Instr) (s : State), s.safe → ∃ d : Dev, exec c s = .next ⟨s.pending, d⟩) ∧
  (∀ (s : State) (t : Nat), s.safe → s.dev.powerState = 2 ∨ s.dev.powerState = 5 →
    (∀ c : Instr, c = .chime t ∨ c = .closingPoint t ∨ c = .markerMiss t ∨ c = .chimeInEdge t ∨
      (∃ d k u, c = .heldItemIssue t d k u) ∨ (∃ d p, c = .passIssue t d p ∨ c = .passStart t d p ∨ c = .passRetire t d p) ∨
      (∃ d e, c = .rillDescStart t d e ∨ c = .sieveStart t d e ∨ c = .cancelDone t d e) ∨ (∃ d, c = .mowerNorm t d) ∨
      (∃ b, c = .trugIssue t b ∨ c = .trugStart t b) ∨ (∃ p, c = .flitTransmit t p ∨ c = .replayTimeout t p) →
      exec c s = .next ⟨s.pending, s.dev.touch t⟩))

/-- Every step from a state whose memories and syndromes are in canonical form leads to one. -/
def Obligations.StepsKeepMemoriesCanonical : Prop :=
  ∀ s s' : State, s.dev.memWf = true → step s = .next s' → s'.dev.memWf = true

/-- After reset the memories are in canonical form, no word carries a syndrome, no command waits and no bed, item, log entry or
queue command exists; registers hold the reset values of their tables, in CHIME, LODGE_CTL, FAULT, POWER and SECURITY. -/
def Obligations.ResetStateIsAsTheTablesSay : Prop :=
  State.reset.dev.memWf = true ∧ State.reset.pending = [] ∧ State.reset.dev.beds = [] ∧ State.reset.dev.items = [] ∧
  State.reset.dev.log = [] ∧ State.reset.dev.hostCmds = [] ∧ State.reset.dev.pwr.pwrgd = false ∧
  State.reset.dev.fld .chime Reg.CHIME_PERIOD.PERIOD_NS = 50000 ∧
  State.reset.dev.fld (.lodgeCtl 0) Reg.PARAM_STS.READY = 0 ∧
  State.reset.dev.fld (.lodgeCtl 1) Reg.PARTERRE_COUNT.COUNT = 8 ∧
  State.reset.dev.fld (.lodgeCtl 0) Reg.HBM_CAPACITY_GB.GB = 576 ∧
  State.reset.dev.fld (.lodgeCtl 0) Reg.PHYSICAL_PLOTS.COUNT = 544 ∧
  State.reset.dev.fld .fault Reg.FAULT_CTL.SCRUB_HBM_H = 12 ∧
  State.reset.dev.fld .power Reg.POWER_CTL.STEP_MAX = 16 ∧
  State.reset.dev.fld .power Reg.POWER_CAP.CAP_W = 3200 ∧
  State.reset.dev.fld .power Reg.POWER_CAP.HYST_W = 100 ∧
  State.reset.dev.fld .power Reg.POWER_WINDOW.WINDOW = 10 ∧
  State.reset.dev.fld .power Reg.POWER_THERM.THROTTLE_C = 100 ∧
  State.reset.dev.fld .power Reg.POWER_THERM.WARN_C = 95 ∧
  State.reset.dev.fld (.security 0) Reg.SEC_STS.START_STEP = 0

/-- 04 R108, R109, Table 4.4: a write that runs and meets several conditions is answered by the earliest row: UNMAPPED, SIZE, GATED,
FENCED, and BUSY, which is not logged; each of the others makes one entry, with the offset, the alias, the direction, the cause and the source.
Completion (the conclusion is a next state, under conditions on the state and the operands alone): registerWrite. -/
def Obligations.EarliestWriteErrorDecides : Prop :=
  (∀ (s : State) (t : Nat) (w : WriteAccess), s.dev.dark w.blk = false → (w.src.isHost && s.dev.asleep) = false →
    s.dev.answers w.src = true → s.dev.noSuchFn w.src = false →
    (w.src.isVf && decide (0x10000 ≤ w.addr ∧ w.addr < 0x20000)) = false →
    let d := s.dev.touch t
    let answer : Answer := match w.src with
      | .pcie _ _ => .dropped
      | .keeper _ _ => .accessFault
      | _ => .busError
    let logged (c : Nat) : Dev := (d.logPush (d.accessEntry w.src w.addr true c)).emit [.answer w.src answer]
    let badSize : Prop := w.size ≠ 4 ∨ w.addr % 4 ≠ 0 ∨ w.enables ≠ 0xF#4 ∨ w.amo = true
    (target w.src w.addr = none → exec (.registerWrite t w) s = .next ⟨s.pending, logged 1⟩) ∧
    (∀ (b : Blk) (peer : Bool), target w.src w.addr = some (b, peer) →
      let fenced : Prop := peer = true ∨ sharedState b (w.addr % 0x4000) = true ∧ s.dev.isWarden w.src.lodge = false
      (badSize → exec (.registerWrite t w) s = .next ⟨s.pending, logged 2⟩) ∧
      (¬badSize → s.dev.clockOn b = false → exec (.registerWrite t w) s = .next ⟨s.pending, logged 4⟩) ∧
      (¬badSize → s.dev.clockOn b = true → fenced → exec (.registerWrite t w) s = .next ⟨s.pending, logged 5⟩) ∧
      (¬badSize → s.dev.clockOn b = true → ¬fenced → b.posted = true → s.dev.isBusy b = true → ∀ f, b.wdrop = some f →
        exec (.registerWrite t w) s = .next ⟨s.pending, (d.setFld b f 1).emit [.answer w.src .dropped]⟩))) ∧
  (∀ (d : Dev) (src : Source) (a c : Nat) (wr : Bool),
    (d.accessEntry src a wr c).event = 1 ∧ (d.accessEntry src a wr c).addr = a ∧ (d.accessEntry src a wr c).cause = c ∧
    (d.accessEntry src a wr c).instNo = src.code ∧
    (d.accessEntry src a wr c).detail = a % 0x10000 / 0x4000 + (if wr then 4 else 0) + src.func * 8)

/-- 18 R424, R427: FAULT_LOG_DATA_0 to FAULT_LOG_DATA_7 show the oldest entry, which stays the oldest whatever is appended until POP removes it;
POP of an empty log only sets CMD_IGN; CLEAR removes every entry and leaves FAULT_LOST_CNT; a log of 1,024 entries stores none.
Completion (the conclusion is a next state, under conditions on the state and the operands alone): faultPop, faultClear. -/
def Obligations.LogKeepsItsOldestEntry : Prop :=
  (∀ (d : Dev) (e : LogEntry) (es : List LogEntry) (n : Nat), d.log = e :: es → n < 8 →
    d.readReg .fault (0x40 + 4 * n) = BitVec.ofNat 32 (e.toNat / 2 ^ (32 * n))) ∧
  (∀ (d : Dev) (e x : LogEntry) (es : List LogEntry), d.log = e :: es → (d.logPush x).log.head? = some e) ∧
  (∀ (d : Dev) (x : LogEntry), (d.logPush x).log.length = if 1024 ≤ d.log.length then d.log.length else d.log.length + 1) ∧
  (∀ (d : Dev) (x : LogEntry), 1024 ≤ d.log.length → (d.logPush x).log = d.log) ∧
  (∀ (s : State) (t : Nat) (src : Source), s.accepts src .fault 0x0 →
    (∀ e es, s.dev.log = e :: es → (∃ d : Dev, exec (.faultPop t src) s = .next ⟨s.pending, d⟩ ∧ d.log = es)) ∧
    (s.dev.log = [] → (∃ d : Dev, exec (.faultPop t src) s = .next ⟨s.pending, d⟩ ∧ d.log = [] ∧ ∃ x : Dev, d = x.setFld .fault Reg.FAULT_STS.CMD_IGN 1)) ∧
    (∃ d : Dev, exec (.faultClear t src) s = .next ⟨s.pending, d⟩ ∧ d.log = [] ∧
      d.fld .fault Reg.FAULT_LOST_CNT.COUNT = s.dev.fld .fault Reg.FAULT_LOST_CNT.COUNT))

/-- 18 R415: a checker finds a word clean when its syndrome is 0, corrects bit b when it is the column of b, and finds it uncorrectable
otherwise; a corrected word is read with that bit inverted, another as it is stored. Table 18.2: any two wrong bits are uncorrectable. -/
def Obligations.CheckersFollowTheSyndrome : Prop :=
  (∀ s : BitVec 8, hedgeCheck s = .clean ↔ s = 0#8) ∧
  (∀ (s : BitVec 8) (b : Nat), hedgeCheck s = .corrected b ↔ hedgeColumns[b]? = some s) ∧
  (∀ s : BitVec 8, hedgeCheck s = .bad ↔ s ≠ 0#8 ∧ s ∉ hedgeColumns) ∧
  (∀ (d : Dev) (m : Mem) (a b : Nat), hedgeCheck (d.syndOf (m.word a)) = .corrected b →
    d.readByte m a = if b / 8 = a % 8 ∧ b < 64 then d.byte m a ^^^ (1#8 <<< (b % 8)) else d.byte m a) ∧
  (∀ (d : Dev) (m : Mem) (a : Nat), hedgeCheck (d.syndOf (m.word a)) = .clean ∨ hedgeCheck (d.syndOf (m.word a)) = .bad →
    d.readByte m a = d.byte m a) ∧
  (∀ (i j : Nat) (x y : BitVec 8), i < j → hedgeColumns[i]? = some x → hedgeColumns[j]? = some y → hedgeCheck (x ^^^ y) = .bad)

/-- 09 R216, 18 R416, R421: in canonical memories, bytes that are written read back, and every other byte of that memory and of the other two
reads as before, corrected words and uncorrectable ones among them. -/
def Obligations.WrittenBytesReadBack : Prop :=
  ∀ (d : Dev) (m : Mem) (a : Nat) (bs : List Byte), d.memWf = true → a + bs.length ≤ 2 ^ 44 →
    let d' := d.writeBytes m a bs
    (∀ (i : Nat) (h : i < bs.length), d'.readByte m (a + i) = bs[i]) ∧
    (∀ k, (k < a ∨ a + bs.length ≤ k) → k < 2 ^ 44 → d'.readByte m k = d.readByte m k) ∧
    (∀ m' k, m' ≠ m → k < 2 ^ 44 → d'.readByte m' k = d.readByte m' k)

/-- The frame of the commands that store nothing: every byte of HBM, the glasshouses and the benches, with its syndrome, stays as it was. -/
def Obligations.CommandsThatStoreNothing : Prop :=
  ∀ (c : Instr) (s s' : State), exec c s = .next s' →
    match c with
    | .chimeCountLoRead _ _ | .powerMeasRead _ _ | .chimeEnableSet _ _ | .chimeEnableClear _ _ | .chimePeriodWrite _ _ _
    | .chimeInEdge _ | .heldItemIssue _ _ _ _ | .bedRunSet _ _ _ _ | .bedRunClear _ _ _ _ | .trellisLoad _ _
    | .trellisReplant _ _ _ | .trellisAbort _ _ | .stationaryLoad _ _ _ | .stationaryLoadDone _ _ _ | .preempt _ _ _ _
    | .retest _ _ _ _ | .barrowRelease _ _ _ | .inval _ _ _ _ | .trayClear _ _ _ _
    | .mowerDiscard _ _ _ | .trugPurge _ _ _ | .groupValidate _ _ _ | .linkEnable _ _ _ | .portRetrain _ _ _ | .portDown _ _ _
    | .flitTransmit _ _ | .dataFlitReceive _ _ _ | .linkFlitReceive _ _ _ | .replayTimeout _ _ | .gateWriteAck _ _
    | .gateLoad _ _ _ | .gateUnload _ _ _ | .wadvance _ _ _ | .tokenRetransmit _ _ | .configRequest _ _ _ _
    | .commandFetch _ _ _ | .vfEnable _ _ _ | .perst _ _
    | .heartbeatReceive _ _ | .echoRecord _ _ _ | .heartbeatTimeout _ _ | .election _ _ | .wardenFence _ _ | .wardenYield _ _
    | .wardenResync _ _ | .oscWaitEnd _ _ | .clkSelect _ _ _ _ | .switchPhaseEnd _ _ | .frostClear _ _ | .clkenApply _
    | .scrubRead _ _ | .faultPop _ _ | .pwrgdRise _ _ _ | .advanceCtr _ _ _ | .hintWrite _ _ | .spdmRequest _ _ _
    | .powerActive _ _ | .powerIdle _ _ | .powerDormant _ _ | .wakeTimer _ | .wardTick _ _ _ | .keeperWatchdog _ _ _
    | .vauxApply _ | .chimeOutFall _ => s'.dev.mems = s.dev.mems
    | _ => True

/-- 10 R249, Table 10.7, 14 R339, Table 14.4: the 16 bytes of a barrow and the 32 of a message header hold every field in its place. -/
def Obligations.BarrowsAndHeadersDecode : Prop :=
  (∀ b : Barrow, b.addr < 2 ^ 64 → b.length < 2 ^ 32 → b.gen < 256 → b.loc < 8 → b.path < 4 → b.cause < 256 →
    b.bytes.length = 16 ∧ Barrow.ofBytes b.bytes = b) ∧
  (∀ h : MsgHead, h.type < 256 → h.dst < 2 ^ 16 → h.src < 2 ^ 16 → h.gate < 2 ^ 16 → h.length < 2 ^ 32 → h.epoch < 2 ^ 32 →
    h.offset < 2 ^ 32 → h.wtag < 2 ^ 32 → h.reason < 256 →
    h.bytes.length = 32 ∧ MsgHead.ofBytes h.bytes = h)

/-- 20 R451: at each tick P_avg is the mean of the last WINDOW ticks; the device is over the cap when it exceeds CAP_W, or a sensor
reads above THROTTLE_C, and under it when it is below CAP_W − HYST_W and every sensor reads at least 5 °C below THROTTLE_C; step and duty
follow the rule; with CAP_EN = 0 and no sensor above THROTTLE_C they fall to 0 by it.
Completion (the conclusion is a next state, under conditions on the state and the operands alone): wardTick. -/
def Obligations.WardFollowsItsRule : Prop :=
  ∀ (s : State) (t w : Nat) (dies : List Nat), s.live .power → s.dev.pwr.pwrgd = true → s.dev.powerState ≠ 5 →
    let p (f : Fld) : Nat := s.dev.fld .power f
    let xs := ((w :: s.dev.pwr.ticks).take 255).take (max 1 (p Reg.POWER_WINDOW.WINDOW))
    let sum := xs.sum
    let n := xs.length
    let throttle := 4 * min 110 (p Reg.POWER_THERM.THROTTLE_C)
    let hot : Prop := ∃ x ∈ s.dev.pwr.temps, throttle < x
    let cool : Prop := ∀ x ∈ s.dev.pwr.temps, x + 20 ≤ throttle
    let capped : Prop := p Reg.POWER_CTL.CAP_EN = 1
    let isOver : Prop := hot ∨ capped ∧ p Reg.POWER_CAP.CAP_W * n < sum
    let isUnder : Prop := (capped → cool ∧ sum + p Reg.POWER_CAP.HYST_W * n < p Reg.POWER_CAP.CAP_W * n) ∧ (¬capped → ¬hot)
    let stepMax := min 48 (p Reg.POWER_CTL.STEP_MAX)
    let st := p Reg.POWER_STS.STEP
    let du := p Reg.POWER_STS.DUTY
    let moved := s.dev.pwr.dutyMoved
    let base := (s.dev.touch t).showPower w dies
    let moves (a b : Nat) : Dev :=
      { (base.setFld .power Reg.POWER_STS.STEP a).setFld .power Reg.POWER_STS.DUTY b with
        pwr := { base.pwr with dutyMoved := moved || b != du } }
    (isOver → st < stepMax → exec (.wardTick t w dies) s = .next ⟨s.pending, moves (st + 1) du⟩) ∧
    (isOver → stepMax ≤ st → du < 8 → moved = false → exec (.wardTick t w dies) s = .next ⟨s.pending, moves st (du + 1)⟩) ∧
    (isOver → stepMax ≤ st → 8 ≤ du ∨ moved = true → exec (.wardTick t w dies) s = .next ⟨s.pending, moves st du⟩) ∧
    (¬isOver → isUnder → 0 < du → moved = false → exec (.wardTick t w dies) s = .next ⟨s.pending, moves st (du - 1)⟩) ∧
    (¬isOver → isUnder → du = 0 → 0 < st → exec (.wardTick t w dies) s = .next ⟨s.pending, moves (st - 1) du⟩) ∧
    (¬isOver → isUnder → (0 < du ∧ moved = true) ∨ (du = 0 ∧ st = 0) → exec (.wardTick t w dies) s = .next ⟨s.pending, moves st du⟩) ∧
    (¬isOver → ¬isUnder → exec (.wardTick t w dies) s = .next ⟨s.pending, moves st du⟩)
end

