-- ==== Sys2Proof/Laws/Bits.lean ====
section
/-! SUPPORT. The laws of bit ranges: what a range holds after a replacement, bit by bit and as a number. -/
namespace Sys2Proof

variable {n hi lo v i w : Nat}

theorem bitsOf_testBit : (bitsOf n hi lo).testBit i = (decide (i < hi + 1 - lo) && n.testBit (lo + i)) := by
  simp [bitsOf, Nat.testBit_mod_two_pow, Nat.testBit_shiftRight]

/-- A number is its upper part, the range and its lower part. -/
theorem bitsOf_split (h : lo ≤ hi + 1) :
    n = n / 2 ^ (hi + 1) * 2 ^ (hi + 1) + bitsOf n hi lo * 2 ^ lo + n % 2 ^ lo := by
  have h2 : 2 ^ (hi + 1) = 2 ^ lo * 2 ^ (hi + 1 - lo) := by rw [← pow_add]; congr 1; omega
  have e1 : n / 2 ^ (hi + 1) = n / 2 ^ lo / 2 ^ (hi + 1 - lo) := by rw [h2, Nat.div_div_eq_div_mul]
  have e2 := Nat.div_add_mod (n / 2 ^ lo) (2 ^ (hi + 1 - lo))
  have e3 := Nat.div_add_mod n (2 ^ lo)
  rw [bitsOf, Nat.shiftRight_eq_div_pow, e1, h2]
  conv_lhs => rw [← e3, ← e2]
  ring

/-- A replacement leaves the parts above and below. -/
theorem putBits_eq (h : lo ≤ hi + 1) :
    putBits n hi lo v = n / 2 ^ (hi + 1) * 2 ^ (hi + 1) + v % 2 ^ (hi + 1 - lo) * 2 ^ lo + n % 2 ^ lo := by
  have e := bitsOf_split (n := n) h
  rw [putBits]
  omega

/-- Bit `i` of a replacement: the new value's in the range, the old one's outside it. -/
theorem putBits_testBit (h : lo ≤ hi + 1) :
    (putBits n hi lo v).testBit i = if lo ≤ i ∧ i ≤ hi then v.testBit (i - lo) else n.testBit i := by
  have hlow : v % 2 ^ (hi + 1 - lo) * 2 ^ lo + n % 2 ^ lo < 2 ^ (hi + 1) := by
    have h1 := Nat.mod_lt v (Nat.two_pow_pos (hi + 1 - lo))
    have h2 := Nat.mod_lt n (Nat.two_pow_pos lo)
    have h3 : 2 ^ (hi + 1) = 2 ^ (hi + 1 - lo) * 2 ^ lo := by rw [← pow_add]; congr 1; omega
    have h4 := Nat.mul_le_mul_right (2 ^ lo) (Nat.succ_le_of_lt h1)
    rw [h3]
    calc _ < v % 2 ^ (hi + 1 - lo) * 2 ^ lo + 2 ^ lo := by omega
      _ = (v % 2 ^ (hi + 1 - lo) + 1) * 2 ^ lo := by ring
      _ ≤ _ := h4
  have hp : putBits n hi lo v =
      2 ^ (hi + 1) * (n / 2 ^ (hi + 1)) + (2 ^ lo * (v % 2 ^ (hi + 1 - lo)) + n % 2 ^ lo) := by
    rw [putBits_eq h]; ring
  rw [hp, Nat.testBit_two_pow_mul_add _ (by rw [Nat.mul_comm]; exact hlow)]
  by_cases h1 : i < hi + 1
  · rw [if_pos h1, Nat.testBit_two_pow_mul_add _ (Nat.mod_lt _ (Nat.two_pow_pos lo))]
    by_cases h2 : i < lo
    · rw [if_pos h2, if_neg (by omega), Nat.testBit_mod_two_pow]; simp [h2]
    · rw [if_neg h2, if_pos (by omega), Nat.testBit_mod_two_pow]; simp; omega
  · rw [if_neg h1, if_neg (by omega), Nat.testBit_div_two_pow]; congr 1; omega

/-- A range read back from a replacement of it. -/
theorem bitsOf_putBits (h : lo ≤ hi + 1) : bitsOf (putBits n hi lo v) hi lo = v % 2 ^ (hi + 1 - lo) := by
  apply Nat.eq_of_testBit_eq
  intro i
  rw [bitsOf_testBit, putBits_testBit h, Nat.testBit_mod_two_pow]
  by_cases hi' : i < hi + 1 - lo
  · simp only [hi', decide_true, Bool.true_and]; rw [if_pos (by omega)]; congr 1; omega
  · simp [hi']

/-- A range that a replacement elsewhere leaves as it was. -/
theorem bitsOf_putBits_ne {hi' lo' : Nat} (h : lo ≤ hi + 1) (hd : hi' < lo ∨ hi < lo') :
    bitsOf (putBits n hi lo v) hi' lo' = bitsOf n hi' lo' := by
  apply Nat.eq_of_testBit_eq
  intro i
  rw [bitsOf_testBit, bitsOf_testBit, putBits_testBit h]
  by_cases hi' : i < hi' + 1 - lo'
  · simp only [hi', decide_true, Bool.true_and]; rw [if_neg (by omega)]
  · simp [hi']

theorem bitsOf_lt : bitsOf n hi lo < 2 ^ (hi + 1 - lo) := Nat.mod_lt _ (Nat.two_pow_pos _)

end Sys2Proof
end

