-- ==== Sys2Proof/Laws/Tbl.lean ====
section
/-! SUPPORT. The laws of tables: what a read finds after a write, and that every write keeps the canonical form. -/
namespace Sys2Proof
namespace Machine

variable {α : Type} {dflt : Nat → α} {t : Tbl α} {k k' lo : Nat} {v : α}

@[simp] theorem Tbl.get_nil : Tbl.get dflt [] k = dflt k := rfl

/-- A read finds what was inserted, and every other key as it was. -/
theorem Tbl.get_insert : Tbl.get dflt (Tbl.insert t k v) k' = if k' = k then v else Tbl.get dflt t k' := by
  induction t with
  | nil => rfl
  | cons e t ih =>
    simp only [Tbl.insert]
    by_cases h1 : k < e.1
    · rw [if_pos h1]; rfl
    · rw [if_neg h1]
      by_cases h2 : k = e.1
      · rw [if_pos h2]; subst h2; simp only [Tbl.get]; split <;> rfl
      · rw [if_neg h2]; simp only [Tbl.get, ih]; split_ifs <;> first | rfl | omega

/-- A key below all keys of a rising table is not listed. -/
theorem Tbl.get_of_rising (h : Tbl.rising (some lo) t = true) (hk : k ≤ lo) : Tbl.get dflt t k = dflt k := by
  induction t generalizing lo with
  | nil => rfl
  | cons e t ih =>
    obtain ⟨k', v⟩ := e
    simp only [Tbl.rising, Bool.and_eq_true, decide_eq_true_eq] at h
    simp only [Tbl.get, if_neg (show k ≠ k' by omega)]
    exact ih h.2 (by omega)

theorem Tbl.rising_mono {lo' : Nat} (h : Tbl.rising (some lo) t = true) (hk : lo' ≤ lo) :
    Tbl.rising (some lo') t = true := by
  cases t with
  | nil => rfl
  | cons e t =>
    simp only [Tbl.rising, Bool.and_eq_true, decide_eq_true_eq] at h ⊢
    exact ⟨by omega, h.2⟩

theorem Tbl.rising_tail {e : Nat × α} {o : Option Nat} (h : Tbl.rising o (e :: t) = true) :
    Tbl.rising (some e.1) t = true := by
  cases o with
  | none => exact h
  | some lo => simp only [Tbl.rising, Bool.and_eq_true] at h; exact h.2

/-- In a rising table an erased key reads as its default. -/
theorem Tbl.get_erase {o : Option Nat} (h : Tbl.rising o t = true) :
    Tbl.get dflt (Tbl.erase t k) k' = if k' = k then dflt k else Tbl.get dflt t k' := by
  induction t generalizing o with
  | nil => simp +contextual [Tbl.erase, Tbl.get]
  | cons e t ih =>
    have ht := Tbl.rising_tail h
    simp only [Tbl.erase]
    by_cases h1 : k = e.1
    · rw [if_pos h1]
      by_cases h2 : k' = k
      · rw [if_pos h2, h2]; rw [← h1] at ht; exact Tbl.get_of_rising ht le_rfl
      · rw [if_neg h2]; simp only [Tbl.get]; rw [if_neg (by omega)]
    · rw [if_neg h1]; simp only [Tbl.get, ih ht]; split_ifs <;> first | rfl | omega

theorem Tbl.rising_of_wf [DecidableEq α] (h : Tbl.wf dflt t = true) : Tbl.rising none t = true := by
  simp only [Tbl.wf, Bool.and_eq_true] at h; exact h.1

/-- A read of a canonical table after a write: the value written, and every other key as it was. -/
theorem Tbl.get_set [DecidableEq α] (h : Tbl.wf dflt t = true) :
    Tbl.get dflt (Tbl.set dflt t k v) k' = if k' = k then v else Tbl.get dflt t k' := by
  simp only [Tbl.set]
  split
  · rename_i hv; rw [Tbl.get_erase (Tbl.rising_of_wf h), hv]
  · exact Tbl.get_insert

/-- A write leaves the reads of other keys alone, in any table. -/
theorem Tbl.get_set_ne [DecidableEq α] (hk : k' ≠ k) : Tbl.get dflt (Tbl.set dflt t k v) k' = Tbl.get dflt t k' := by
  simp only [Tbl.set]
  split
  · clear * - hk
    induction t with
    | nil => rfl
    | cons e t ih =>
      simp only [Tbl.erase]
      split_ifs with h1
      · simp only [Tbl.get, if_neg (show ¬ k' = e.1 by omega)]
      · simp only [Tbl.get, ih]
  · rw [Tbl.get_insert, if_neg hk]

theorem Tbl.rising_insert {o : Option Nat} (h : Tbl.rising o t = true) (hk : ∀ lo ∈ o, lo < k) :
    Tbl.rising o (Tbl.insert t k v) = true := by
  induction t generalizing o with
  | nil => cases o <;> simp_all [Tbl.insert, Tbl.rising]
  | cons e t ih =>
    have ht := Tbl.rising_tail h
    simp only [Tbl.insert]
    split_ifs with h1 h2
    · cases o <;> simp_all [Tbl.rising]
    · subst h2; cases o <;> simp_all [Tbl.rising]
    · have := ih ht (by simp; omega)
      cases o <;> simp_all [Tbl.rising]

theorem Tbl.rising_erase {o : Option Nat} (h : Tbl.rising o t = true) : Tbl.rising o (Tbl.erase t k) = true := by
  induction t generalizing o with
  | nil => exact h
  | cons e t ih =>
    have ht := Tbl.rising_tail h
    simp only [Tbl.erase]
    split_ifs with h1
    · cases o with
      | none => cases t with
        | nil => rfl
        | cons e' t => exact Tbl.rising_tail ht
      | some lo =>
        simp only [Tbl.rising, Bool.and_eq_true, decide_eq_true_eq] at h
        exact Tbl.rising_mono ht (by omega)
    · have := ih ht
      cases o <;> simp_all [Tbl.rising]

theorem Tbl.all_insert {p : Nat × α → Bool} (h : t.all p = true) (hp : p (k, v) = true) :
    (Tbl.insert t k v).all p = true := by
  induction t with
  | nil => simpa [Tbl.insert] using hp
  | cons e t ih =>
    simp only [List.all_cons, Bool.and_eq_true] at h
    simp only [Tbl.insert]
    split_ifs <;> simp_all

theorem Tbl.all_erase {p : Nat × α → Bool} (h : t.all p = true) : (Tbl.erase t k).all p = true := by
  induction t with
  | nil => exact h
  | cons e t ih =>
    simp only [List.all_cons, Bool.and_eq_true] at h
    simp only [Tbl.erase]
    split_ifs <;> simp_all

/-- A write keeps the canonical form. -/
theorem Tbl.wf_set [DecidableEq α] (h : Tbl.wf dflt t = true) : Tbl.wf dflt (Tbl.set dflt t k v) = true := by
  simp only [Tbl.wf, Bool.and_eq_true] at h ⊢
  simp only [Tbl.set]
  split
  · exact ⟨Tbl.rising_erase h.1, Tbl.all_erase h.2⟩
  · exact ⟨Tbl.rising_insert h.1 (by simp), Tbl.all_insert h.2 (by simpa)⟩

/-- Many writes keep the canonical form. -/
theorem Tbl.wf_setMany [DecidableEq α] {vs : List α} (h : Tbl.wf dflt t = true) :
    Tbl.wf dflt (Tbl.setMany dflt t k vs) = true := by
  induction vs generalizing t k with
  | nil => exact h
  | cons v vs ih => exact ih (Tbl.wf_set h)

/-- A read after many writes from key `k` on: the value written there, and every other key as it was. -/
theorem Tbl.get_setMany [DecidableEq α] {vs : List α} (h : Tbl.wf dflt t = true) :
    Tbl.get dflt (Tbl.setMany dflt t k vs) k' =
      if h : k ≤ k' ∧ k' < k + vs.length then vs[k' - k]'(by omega) else Tbl.get dflt t k' := by
  induction vs generalizing t k with
  | nil => rw [dif_neg (by simp)]; rfl
  | cons v vs ih =>
    rw [Tbl.setMany, ih (Tbl.wf_set h), Tbl.get_set h]
    by_cases h1 : k' = k
    · subst h1; simp
    · by_cases h2 : k ≤ k' ∧ k' < k + (vs.length + 1)
      · rw [dif_pos (by omega), dif_pos (by simpa using h2)]
        obtain ⟨j, hj⟩ : ∃ j, k' - k = j + 1 := ⟨k' - k - 1, by omega⟩
        simp only [hj, List.getElem_cons_succ]
        congr 1; omega
      · rw [dif_neg (by omega), if_neg h1, dif_neg (by simpa using h2)]

/-- Dropping entries keeps the canonical form. -/
theorem Tbl.wf_filter [DecidableEq α] {p : Nat × α → Bool} (h : Tbl.wf dflt t = true) :
    Tbl.wf dflt (t.filter p) = true := by
  have hr : ∀ {o : Option Nat} {t : Tbl α}, Tbl.rising o t = true → Tbl.rising o (t.filter p) = true := by
    intro o t h
    induction t generalizing o with
    | nil => exact h
    | cons e t ih =>
      have ht := ih (Tbl.rising_tail h)
      rw [List.filter_cons]
      split
      · cases o <;> simp_all [Tbl.rising]
      · cases o with
        | none => exact ih (o := none) (by cases t with
            | nil => rfl
            | cons e' t => exact Tbl.rising_tail (Tbl.rising_tail h))
        | some lo =>
          simp only [Tbl.rising, Bool.and_eq_true, decide_eq_true_eq] at h
          exact Tbl.rising_mono ht (by omega)
  simp only [Tbl.wf, Bool.and_eq_true] at h ⊢
  exact ⟨hr h.1, by simp_all⟩

end Machine
end Sys2Proof
end

