-- ==== Sys2Proof/Laws/Memory.lean ====
section
/-! SUPPORT. What each operation does to what is stored under the hedge code (the device's parts, registers, queues, beds, ports and furrows): `f_mems` says that `f`
leaves all of it as it was, `f_memsWf` that `f` keeps its canonical form. -/
namespace Sys2Proof
namespace Machine

set_option linter.unusedSimpArgs false
set_option linter.unusedVariables false
set_option linter.unusedTactic false
set_option linter.unreachableTactic false

/-! ### The four stores of a device -/

@[simp] theorem Dev.mems_mk {x0} {x1} {x2} {x3} {x4} {x5} {x6} {x7} {x8} {x9} {x10} {x11} {x12} {x13} {x14} {x15} {x16} {x17} {x18} {x19} {x20} {x21} {x22} {x23} {x24} {x25} {x26} {x27} {x28} {x29} {x30} {x31} {x32} {x33} {x34} {x35} {x36} {x37} {x38} {x39} {x40} {x41} {x42} {x43} {x44} {x45} {x46} {x47} {x48} {x49} {x50} {x51} {x52} {x53} {x54} {x55} {x56} {x57} {x58} {x59} {x60} {x61} :
    (Dev.mk x0 x1 x2 x3 x4 x5 x6 x7 x8 x9 x10 x11 x12 x13 x14 x15 x16 x17 x18 x19 x20 x21 x22 x23 x24 x25 x26 x27 x28 x29 x30 x31 x32 x33 x34 x35 x36 x37 x38 x39 x40 x41 x42 x43 x44 x45 x46 x47 x48 x49 x50 x51 x52 x53 x54 x55 x56 x57 x58 x59 x60 x61).mems = (x6, x7, x8, x11) := id rfl
@[simp] theorem Dev.mems_eta (d : Dev) : (d.hbm, d.gh, d.bench, d.synd) = d.mems := id rfl

theorem Dev.mems_ite {c : Prop} [Decidable c] {a b : Dev} : (if c then a else b).mems = if c then a.mems else b.mems := apply_ite _ _ _ _

theorem foldl_mems {α : Type} {f : Dev → α → Dev} (h : ∀ d a, (f d a).mems = d.mems) (l : List α) (d : Dev) :
    (l.foldl f d).mems = d.mems := by
  induction l generalizing d with
  | nil => rfl
  | cons a l ih => simp only [List.foldl_cons, ih, h]

theorem foldl_memsWf {α : Type} {f : Dev → α → Dev} (h : ∀ d a, Mems.wf d.mems = true → Mems.wf (f d a).mems = true) (l : List α) (d : Dev)
    (hd : Mems.wf d.mems = true) : Mems.wf (l.foldl f d).mems = true := by
  induction l generalizing d with
  | nil => exact hd
  | cons a l ih => exact ih _ (h _ _ hd)

/-! ### Dev -/



/-! ### Ops -/

@[simp] theorem Dev.setWord_mems (d : Dev) (b : Blk) (o : Nat) (w : Word) : (Dev.setWord d b o w).mems = d.mems := by
  unfold Dev.setWord
  try dsimp only
  repeat' split
  all_goals simp
@[simp] theorem Dev.setFldI_mems (d : Dev) (b : Blk) (f : Fld) (i v : Nat) : (Dev.setFldI d b f i v).mems = d.mems := by
  unfold Dev.setFldI
  try dsimp only
  repeat' split
  all_goals simp
@[simp] theorem Dev.setFld_mems (d : Dev) (b : Blk) (f : Fld) (v : Nat) : (Dev.setFld d b f v).mems = d.mems := by
  unfold Dev.setFld
  try dsimp only
  repeat' split
  all_goals simp
@[simp] theorem Dev.countSat_mems (d : Dev) (b : Blk) (f : Fld) (n : Nat) : (Dev.countSat d b f n).mems = d.mems := by
  unfold Dev.countSat
  try dsimp only
  repeat' split
  all_goals simp
@[simp] theorem Dev.countWrap_mems (d : Dev) (b : Blk) (f : Fld) (n : Nat) : (Dev.countWrap d b f n).mems = d.mems := by
  unfold Dev.countWrap
  try dsimp only
  repeat' split
  all_goals simp
@[simp] theorem Dev.emit_mems (d : Dev) (os : List Out) : (Dev.emit d os).mems = d.mems := by
  unfold Dev.emit
  try dsimp only
  repeat' split
  all_goals simp
@[simp] theorem Dev.takeFree_mems (d : Dev) : (Dev.takeFree d).2.mems = d.mems := by
  unfold Dev.takeFree
  try dsimp only
  repeat' split
  all_goals simp
@[simp] theorem Dev.calibrate_mems (d : Dev) (a : Nat) (w : Word) : (Dev.calibrate d a w).mems = d.mems := by
  unfold Dev.calibrate
  try dsimp only
  repeat' split
  all_goals simp
@[simp] theorem Dev.modWard_mems (d : Dev) (l : Nat) (f : WardSt → WardSt) : (Dev.modWard d l f).mems = d.mems := by
  unfold Dev.modWard
  try dsimp only
  repeat' split
  all_goals simp
@[simp] theorem Dev.modClk_mems (d : Dev) (l : Nat) (f : ClkSt → ClkSt) : (Dev.modClk d l f).mems = d.mems := by
  unfold Dev.modClk
  try dsimp only
  repeat' split
  all_goals simp
@[simp] theorem Dev.modLodge_mems (d : Dev) (l : Nat) (f : LodgeSt → LodgeSt) : (Dev.modLodge d l f).mems = d.mems := by
  unfold Dev.modLodge
  try dsimp only
  repeat' split
  all_goals simp
@[simp] theorem Dev.endStep_mems (d : Dev) (l n next : Nat) : (Dev.endStep d l n next).mems = d.mems := by
  unfold Dev.endStep
  try dsimp only
  repeat' split
  all_goals simp
@[simp] theorem Dev.setPower_mems (d : Dev) (n : Nat) : (Dev.setPower d n).mems = d.mems := by
  unfold Dev.setPower
  try dsimp only
  repeat' split
  all_goals simp
@[simp] theorem Dev.wake_mems (d : Dev) (how : Nat) : (Dev.wake d how).mems = d.mems := by
  unfold Dev.wake
  try dsimp only
  repeat' split
  all_goals simp
@[simp] theorem Dev.holdReq_mems (d : Dev) (r : HeldReq) : (Dev.holdReq d r).mems = d.mems := by
  unfold Dev.holdReq
  try dsimp only
  repeat' split
  all_goals simp
@[simp] theorem Dev.raiseVector_mems (d : Dev) (f v : Nat) : (Dev.raiseVector d f v).mems = d.mems := by
  unfold Dev.raiseVector
  try dsimp only
  repeat' split
  all_goals simp
@[simp] theorem Dev.raiseBoth_mems (d : Dev) (v : Nat) : (Dev.raiseBoth d v).mems = d.mems := by
  unfold Dev.raiseBoth
  try dsimp only
  repeat' split
  all_goals simp
@[simp] theorem Dev.raiseBed_mems (d : Dev) (b : Nat) : (Dev.raiseBed d b).mems = d.mems := by
  unfold Dev.raiseBed
  try dsimp only
  repeat' split
  all_goals simp
@[simp] theorem Dev.logIrq_mems (d : Dev) : (Dev.logIrq d).mems = d.mems := by
  unfold Dev.logIrq
  try dsimp only
  repeat' split
  all_goals simp
@[simp] theorem Dev.logPush_mems (d : Dev) (e : LogEntry) : (Dev.logPush d e).mems = d.mems := by
  unfold Dev.logPush
  try dsimp only
  repeat' split
  all_goals simp
@[simp] theorem Dev.renewTray_mems (d : Dev) (k occasion : Nat) : (Dev.renewTray d k occasion).mems = d.mems := by
  unfold Dev.renewTray
  try dsimp only
  repeat' split
  all_goals simp

@[simp] theorem Dev.setSynd_memsWf (d : Dev) (k : Nat) (s : BitVec 8) (hd : Mems.wf d.mems = true) :
    Mems.wf (Dev.setSynd d k s).mems = true := by
  simp only [Mems.wf, Dev.mems, Dev.setSynd, Bool.and_eq_true] at *
  exact ⟨hd.1, Tbl.wf_set hd.2⟩
@[simp] theorem Dev.countCorrected_mems (d : Dev) (k : Nat) : (Dev.countCorrected d k).mems = d.mems := by
  unfold Dev.countCorrected
  try dsimp only
  repeat' split
  all_goals simp
@[simp] theorem Dev.countBad_mems (d : Dev) (k : Nat) : (Dev.countBad d k).mems = d.mems := by
  unfold Dev.countBad
  try dsimp only
  repeat' split
  all_goals simp
@[simp] theorem Dev.logCorrected_mems (d : Dev) (b : Blk) (bed addr : Nat) (s : BitVec 8) : (Dev.logCorrected d b bed addr s).mems = d.mems := by
  unfold Dev.logCorrected
  try dsimp only
  repeat' split
  all_goals simp
@[simp] theorem Dev.noteWordAs_mems (d : Dev) (ev bed k : Nat) : (Dev.noteWordAs d ev bed k).mems = d.mems := by
  unfold Dev.noteWordAs
  try dsimp only
  repeat' split
  all_goals simp
@[simp] theorem Dev.noteStoreAs_mems (d : Dev) (ev : Nat) (b : Blk) (bed addr : Nat) (s : BitVec 8) : (Dev.noteStoreAs d ev b bed addr s).mems = d.mems := by
  unfold Dev.noteStoreAs
  try dsimp only
  repeat' split
  all_goals simp
@[simp] theorem Dev.noteStore_mems (d : Dev) (b : Blk) (bed addr : Nat) (s : BitVec 8) : (Dev.noteStore d b bed addr s).mems = d.mems := by
  unfold Dev.noteStore
  try dsimp only
  repeat' split
  all_goals simp
@[simp] theorem Dev.noteWord_mems (d : Dev) (bed k : Nat) : (Dev.noteWord d bed k).mems = d.mems := by
  unfold Dev.noteWord
  try dsimp only
  repeat' split
  all_goals simp
@[simp] theorem Dev.noteWords_mems (d : Dev) (bed : Nat) (ks : List Nat) : (Dev.noteWords d bed ks).mems = d.mems := by
  unfold Dev.noteWords
  try dsimp only
  repeat' split
  all_goals simp [foldl_mems, Dev.mems_ite]
@[simp] theorem Dev.putBytes_memsWf (d : Dev) (m : Mem) (a : Nat) (bs : List Byte) (hd : Mems.wf d.mems = true) :
    Mems.wf (Dev.putBytes d m a bs).mems = true := by
  simp only [Mems.wf, Memory.wf, Dev.mems, Bool.and_eq_true] at *
  cases m <;> simp [Dev.putBytes, Dev.setCells, Dev.cells, hd, Tbl.wf_setMany]
@[simp] theorem Dev.correctWord_memsWf (d : Dev) (m : Mem) (a b : Nat) (hd : Mems.wf d.mems = true) :
    Mems.wf (Dev.correctWord d m a b).mems = true := by
  unfold Dev.correctWord
  split
  · simp only [Mems.wf, Memory.wf, Dev.mems, Bool.and_eq_true] at *
    cases m <;> simp [Dev.setCells, Dev.cells, hd, Tbl.wf_set]
  · exact hd
@[simp] theorem Dev.mergeWord_memsWf (d : Dev) (m : Mem) (a lo hi : Nat) (s : BitVec 8) (hd : Mems.wf d.mems = true) : Mems.wf (Dev.mergeWord d m a lo hi s).mems = true := by
  unfold Dev.mergeWord
  try dsimp only
  repeat' split
  all_goals simp (maxDischargeDepth := 9) [hd]
@[simp] theorem Dev.mergeWords_memsWf (d : Dev) (m : Mem) (a n : Nat) (s : BitVec 8) (k : Nat) (hd : Mems.wf d.mems = true) :
    Mems.wf (Dev.mergeWords d m a n s k).mems = true := by
  induction k with
  | zero => exact hd
  | succ k ih => unfold Dev.mergeWords; simp [ih]
@[simp] theorem Dev.writeWith_memsWf (d : Dev) (m : Mem) (a : Nat) (bs : List Byte) (s : BitVec 8) (hd : Mems.wf d.mems = true) : Mems.wf (Dev.writeWith d m a bs s).mems = true := by
  unfold Dev.writeWith
  try dsimp only
  repeat' split
  all_goals simp (maxDischargeDepth := 9) [hd]
@[simp] theorem Dev.writeBytes_memsWf (d : Dev) (m : Mem) (a : Nat) (bs : List Byte) (hd : Mems.wf d.mems = true) : Mems.wf (Dev.writeBytes d m a bs).mems = true := by
  unfold Dev.writeBytes
  try dsimp only
  repeat' split
  all_goals simp (maxDischargeDepth := 9) [hd]

/-! ### Access -/

@[simp] theorem Dev.refuseWrite_mems (d : Dev) (src : Source) (a : Nat) (e : AccErr) : (Dev.refuseWrite d src a e).mems = d.mems := by
  unfold Dev.refuseWrite
  try dsimp only
  repeat' split
  all_goals simp
@[simp] theorem Dev.refuseRead_mems (d : Dev) (src : Source) (a : Nat) (e : AccErr) : (Dev.refuseRead d src a e).mems = d.mems := by
  unfold Dev.refuseRead
  try dsimp only
  repeat' split
  all_goals simp
@[simp] theorem Dev.noteFirstWrite_mems (d : Dev) (l : Nat) : (Dev.noteFirstWrite d l).mems = d.mems := by
  unfold Dev.noteFirstWrite
  try dsimp only
  repeat' split
  all_goals simp
@[simp] theorem Dev.refuseStale_mems (d : Dev) (die l : Nat) : (Dev.refuseStale d die l).mems = d.mems := by
  unfold Dev.refuseStale
  try dsimp only
  repeat' split
  all_goals simp
@[simp] theorem Dev.controlWrite_memsWf (d : Dev) (pair : Nat × Nat) (b : Blk) (f : Dev → Dev)
    (hf : ∀ d, Mems.wf d.mems = true → Mems.wf (f d).mems = true) (hd : Mems.wf d.mems = true) :
    Mems.wf (Dev.controlWrite d pair b f).mems = true := by
  unfold Dev.controlWrite
  split
  · exact hf _ hd
  · split
    · exact hf _ (by simp (maxDischargeDepth := 9) [hd])
    · simp (maxDischargeDepth := 9) [hd]
@[simp] theorem Dev.wakeIdle_mems (d : Dev) (b : Blk) : (Dev.wakeIdle d b).mems = d.mems := by
  unfold Dev.wakeIdle
  try dsimp only
  repeat' split
  all_goals simp
@[simp] theorem Dev.rowWrite_memsWf (d : Dev) (src : Source) (b : Blk) (o : Nat) (f : Dev → Dev)
    (hf : ∀ d, Mems.wf d.mems = true → Mems.wf (f d).mems = true) (hd : Mems.wf d.mems = true) :
    Mems.wf (Dev.rowWrite d src b o f).mems = true := by
  unfold Dev.rowWrite
  split
  · exact hd
  · split
    · simp (maxDischargeDepth := 9) [hd]
    · dsimp only
      split
      · exact Dev.controlWrite_memsWf _ _ _ _ hf (by simp (maxDischargeDepth := 9) [hd])
      · simp (maxDischargeDepth := 9) [hd]

/-! ### Items -/

@[simp] theorem Dev.setBed_mems (d : Dev) (b : Nat) (x : Option Bed) : (Dev.setBed d b x).mems = d.mems := by
  unfold Dev.setBed
  try dsimp only
  repeat' split
  all_goals simp
@[simp] theorem Dev.modBed_mems (d : Dev) (b : Nat) (f : Bed → Bed) : (Dev.modBed d b f).mems = d.mems := by
  unfold Dev.modBed
  try dsimp only
  repeat' split
  all_goals simp
@[simp] theorem Dev.issueItem_mems (d : Dev) (q : Issue) (cycle : Nat) : (Dev.issueItem d q cycle).mems = d.mems := by
  unfold Dev.issueItem
  try dsimp only
  repeat' split
  all_goals simp
@[simp] theorem Dev.issueDue_mems (d : Dev) : (Dev.issueDue d).mems = d.mems := by
  unfold Dev.issueDue
  try dsimp only
  repeat' split
  all_goals simp
@[simp] theorem Dev.touch_mems (d : Dev) (t : Nat) : (Dev.touch d t).mems = d.mems := by
  unfold Dev.touch
  try dsimp only
  repeat' split
  all_goals simp

/-! ### Banks -/

@[simp] theorem Dev.setPlot_mems (d : Dev) (die p : Nat) (x : PlotSt) : (Dev.setPlot d die p x).mems = d.mems := by
  unfold Dev.setPlot
  try dsimp only
  repeat' split
  all_goals simp
@[simp] theorem Dev.setFur_mems (d : Dev) (die p f : Nat) (x : Furrow) : (Dev.setFur d die p f x).mems = d.mems := by
  unfold Dev.setFur
  try dsimp only
  repeat' split
  all_goals simp
@[simp] theorem Dev.modFur_mems (d : Dev) (die p f : Nat) (g : Furrow → Furrow) : (Dev.modFur d die p f g).mems = d.mems := by
  unfold Dev.modFur
  try dsimp only
  repeat' split
  all_goals simp
@[simp] theorem Dev.settle_mems (d : Dev) (die p : Nat) : (Dev.settle d die p).mems = d.mems := by
  unfold Dev.settle
  try dsimp only
  repeat' split
  all_goals simp
@[simp] theorem Dev.settleAll_mems (d : Dev) : (Dev.settleAll d).mems = d.mems := by
  unfold Dev.settleAll
  try dsimp only
  repeat' split
  all_goals simp [foldl_mems, Dev.mems_ite]

/-! ### Lattice -/

@[simp] theorem Dev.latticeBad_mems (n : Nat) (d : Dev) (die : Nat) : (Dev.latticeBad n d die).mems = d.mems := by
  unfold Dev.latticeBad
  try dsimp only
  repeat' split
  all_goals simp
@[simp] theorem Dev.carry_mems (d : Dev) (cfg : Option BedCfg) (to_ : Place) (ks : List Nat) : (Dev.carry d cfg to_ ks).mems = d.mems := by
  unfold Dev.carry
  try dsimp only
  repeat' split
  all_goals simp [foldl_mems, Dev.mems_ite]
@[simp] theorem Dev.noteFrom_mems (d : Dev) (bed : Nat) (to_ : Place) (ks : List Nat) : (Dev.noteFrom d bed to_ ks).mems = d.mems := by
  unfold Dev.noteFrom
  try dsimp only
  repeat' split
  all_goals simp
@[simp] theorem Dev.sendBad_mems (d : Dev) (bed : Nat) (from_ : Place) (b n : Nat) : (Dev.sendBad d bed from_ b n).mems = d.mems := by
  unfold Dev.sendBad
  try dsimp only
  repeat' split
  all_goals simp [foldl_mems, Dev.mems_ite]
@[simp] theorem Dev.sendLanes_mems (d : Dev) (bed : Nat) (from_ : Place) (b a : Nat) (ls : List Lane) : (Dev.sendLanes d bed from_ b a ls).mems = d.mems := by
  unfold Dev.sendLanes
  try dsimp only
  repeat' split
  all_goals simp

/-! ### QueueOps -/

@[simp] theorem Dev.setCtx_mems (d : Dev) (q : Nat) (c : BitVec 512) : (Dev.setCtx d q c).mems = d.mems := by
  unfold Dev.setCtx
  try dsimp only
  repeat' split
  all_goals simp
@[simp] theorem Dev.setQfld_mems (d : Dev) (q : Nat) (f : CtxFld) (v : Nat) : (Dev.setQfld d q f v).mems = d.mems := by
  unfold Dev.setQfld
  try dsimp only
  repeat' split
  all_goals simp
@[simp] theorem Dev.queueError_mems (d : Dev) (q cause : Nat) : (Dev.queueError d q cause).mems = d.mems := by
  unfold Dev.queueError
  try dsimp only
  repeat' split
  all_goals simp
@[simp] theorem Dev.storeSlot_memsWf (d : Dev) (q n : Nat) (b : Barrow) (hd : Mems.wf d.mems = true) : Mems.wf (Dev.storeSlot d q n b).mems = true := by
  unfold Dev.storeSlot
  try dsimp only
  repeat' split
  all_goals simp (maxDischargeDepth := 9) [hd]
@[simp] theorem Dev.claimSlot_mems (d : Dev) (a : Agent) (q : Nat) : (Dev.claimSlot d a q).mems = d.mems := by
  unfold Dev.claimSlot
  try dsimp only
  repeat' split
  all_goals simp
@[simp] theorem Dev.dropClaim_mems (d : Dev) (c : ClaimedSlot) : (Dev.dropClaim d c).mems = d.mems := by
  unfold Dev.dropClaim
  try dsimp only
  repeat' split
  all_goals simp
@[simp] theorem Dev.countStale_mems (d : Dev) (q : Nat) : (Dev.countStale d q).mems = d.mems := by
  unfold Dev.countStale
  try dsimp only
  repeat' split
  all_goals simp
@[simp] theorem Dev.postMessage_mems (d : Dev) (q : Nat) (wasEmpty : Bool) : (Dev.postMessage d q wasEmpty).mems = d.mems := by
  unfold Dev.postMessage
  try dsimp only
  repeat' split
  all_goals simp
@[simp] theorem Dev.advancePost_mems (d : Dev) (q n : Nat) : (Dev.advancePost d q n).mems = d.mems := by
  induction n generalizing d with
  | zero => rfl
  | succ n ih => unfold Dev.advancePost; (repeat' split) <;> simp [ih]
@[simp] theorem Dev.postAt_memsWf (d : Dev) (c0 : ClaimedSlot) (b : Barrow) (hd : Mems.wf d.mems = true) : Mems.wf (Dev.postAt d c0 b).1.mems = true := by
  unfold Dev.postAt
  try dsimp only
  repeat' split
  all_goals simp (maxDischargeDepth := 9) [hd]
@[simp] theorem Dev.postSlot_memsWf (d : Dev) (a : Agent) (q : Nat) (b : Barrow) (hd : Mems.wf d.mems = true) : Mems.wf (Dev.postSlot d a q b).1.mems = true := by
  unfold Dev.postSlot
  try dsimp only
  repeat' split
  all_goals simp (maxDischargeDepth := 9) [hd]
theorem Dev.takeSlot_mems (d : Dev) (a : Agent) (q : Nat) (x : Barrow × Dev) (h : d.takeSlot a q = some x) : x.2.mems = d.mems := by
  unfold Dev.takeSlot at h
  repeat' split at h
  all_goals simp at h
  all_goals first | (obtain ⟨-, rfl⟩ := h; simp) | (subst h; simp)
@[simp] theorem Dev.releaseSlot_mems (d : Dev) (t : TakenBarrow) : (Dev.releaseSlot d t).1.mems = d.mems := by
  unfold Dev.releaseSlot
  try dsimp only
  repeat' split
  all_goals simp
@[simp] theorem Dev.bumpGen_memsWf (d : Dev) (q n : Nat) (hd : Mems.wf d.mems = true) : Mems.wf (Dev.bumpGen d q n).mems = true := by
  unfold Dev.bumpGen
  try dsimp only
  repeat' split
  all_goals simp (maxDischargeDepth := 9) [hd]
@[simp] theorem Dev.bumpGens_memsWf (d : Dev) (q a n : Nat) (hd : Mems.wf d.mems = true) :
    Mems.wf (Dev.bumpGens d q a n).mems = true := by
  induction n generalizing d a with
  | zero => exact hd
  | succ n ih => unfold Dev.bumpGens; exact ih _ _ (by simp (maxDischargeDepth := 9) [hd])
@[simp] theorem Dev.recycleQueue_memsWf (d : Dev) (q : Nat) (hd : Mems.wf d.mems = true) : Mems.wf (Dev.recycleQueue d q).mems = true := by
  unfold Dev.recycleQueue
  try dsimp only
  repeat' split
  all_goals simp (maxDischargeDepth := 9) [hd]
@[simp] theorem Dev.orphanQueue_mems (d : Dev) (q : Nat) : (Dev.orphanQueue d q).mems = d.mems := by
  unfold Dev.orphanQueue
  try dsimp only
  repeat' split
  all_goals simp
@[simp] theorem Dev.releaseAll_mems (d : Dev) (a : Agent) : (Dev.releaseAll d a).mems = d.mems := by
  unfold Dev.releaseAll
  try dsimp only
  repeat' split
  all_goals simp [foldl_mems, Dev.mems_ite]

/-! ### BedOps -/

@[simp] theorem Dev.setRill_mems (d : Dev) (die e : Nat) (x : RillSt) : (Dev.setRill d die e x).mems = d.mems := by
  unfold Dev.setRill
  try dsimp only
  repeat' split
  all_goals simp
@[simp] theorem Dev.setSieve_mems (d : Dev) (die s : Nat) (x : SieveSt) : (Dev.setSieve d die s x).mems = d.mems := by
  unfold Dev.setSieve
  try dsimp only
  repeat' split
  all_goals simp
@[simp] theorem Dev.setMower_mems (d : Dev) (die : Nat) (x : MowerSt) : (Dev.setMower d die x).mems = d.mems := by
  unfold Dev.setMower
  try dsimp only
  repeat' split
  all_goals simp
@[simp] theorem Dev.retireItem_mems (d : Dev) (seq : Nat) : (Dev.retireItem d seq).mems = d.mems := by
  unfold Dev.retireItem
  try dsimp only
  repeat' split
  all_goals simp
@[simp] theorem Dev.acceptItem_mems (d : Dev) (seq : Nat) : (Dev.acceptItem d seq).mems = d.mems := by
  unfold Dev.acceptItem
  try dsimp only
  repeat' split
  all_goals simp
@[simp] theorem Dev.dropRequestsOf_mems (d : Dev) (p : Agent → Bool) : (Dev.dropRequestsOf d p).mems = d.mems := by
  unfold Dev.dropRequestsOf
  try dsimp only
  repeat' split
  all_goals simp
@[simp] theorem Dev.dropRequests_mems (d : Dev) (a : Agent) : (Dev.dropRequests d a).mems = d.mems := by
  unfold Dev.dropRequests
  try dsimp only
  repeat' split
  all_goals simp
@[simp] theorem Dev.cancelRill_memsWf (d : Dev) (die e : Nat) (hd : Mems.wf d.mems = true) : Mems.wf (Dev.cancelRill d die e).mems = true := by
  unfold Dev.cancelRill
  extract_lets r runs d1 d2 d3 d4
  have h1 : Mems.wf d1.mems = true := by
    simp only [d1]
    refine foldl_memsWf (fun d q hd => ?_) _ _ ?_
    · simp (maxDischargeDepth := 9) [hd]
    · split <;> simp [hd]
  simp [d4, d3, d2, h1]
@[simp] theorem Dev.cancelRills_memsWf (d : Dev) (c : BedCfg) (hd : Mems.wf d.mems = true) : Mems.wf (Dev.cancelRills d c).mems = true := by
  unfold Dev.cancelRills
  try dsimp only
  repeat' split
  all_goals (try simp (maxDischargeDepth := 9) [hd])
  all_goals (refine foldl_memsWf (fun d a hd => ?_) _ _ ?_ <;> (try dsimp only) <;> (repeat' split) <;> simp (maxDischargeDepth := 9) [hd])
@[simp] theorem Dev.copyMirrors_mems (d : Dev) (c : BedCfg) : (Dev.copyMirrors d c).mems = d.mems := by
  unfold Dev.copyMirrors
  try dsimp only
  repeat' split
  all_goals simp [foldl_mems, Dev.mems_ite]
@[simp] theorem Dev.idleSieves_mems (gone : List Nat) (d : Dev) : (Dev.idleSieves gone d).mems = d.mems := by
  unfold Dev.idleSieves
  try dsimp only
  repeat' split
  all_goals (try simp)
  all_goals (rw [foldl_mems (fun d a => by (try dsimp only); (repeat' split) <;> simp)]; try simp)
@[simp] theorem Dev.idleMowers_mems (gone : List Nat) (d : Dev) : (Dev.idleMowers gone d).mems = d.mems := by
  unfold Dev.idleMowers
  try dsimp only
  repeat' split
  all_goals (try simp)
  all_goals (rw [foldl_mems (fun d a => by (try dsimp only); (repeat' split) <;> simp)]; try simp)
@[simp] theorem Dev.endTrugs_mems (b : Nat) (d : Dev) : (Dev.endTrugs b d).mems = d.mems := by
  unfold Dev.endTrugs
  try dsimp only
  repeat' split
  all_goals simp
@[simp] theorem Dev.dropUnbegun_mems (d : Dev) (b : Nat) : (Dev.dropUnbegun d b).mems = d.mems := by
  unfold Dev.dropUnbegun
  try dsimp only
  repeat' split
  all_goals simp
@[simp] theorem Dev.reportHalt_mems (d : Dev) (b cause : Nat) : (Dev.reportHalt d b cause).mems = d.mems := by
  unfold Dev.reportHalt
  try dsimp only
  repeat' split
  all_goals simp
@[simp] theorem Dev.haltBed_memsWf (d : Dev) (b cause : Nat) (hd : Mems.wf d.mems = true) : Mems.wf (Dev.haltBed d b cause).mems = true := by
  unfold Dev.haltBed
  try dsimp only
  repeat' split
  all_goals simp (maxDischargeDepth := 9) [hd]
@[simp] theorem Dev.poisonBed_memsWf (d : Dev) (b : Nat) (hd : Mems.wf d.mems = true) : Mems.wf (Dev.poisonBed d b).mems = true := by
  unfold Dev.poisonBed
  try dsimp only
  repeat' split
  all_goals simp (maxDischargeDepth := 9) [hd]
@[simp] theorem Dev.hazardBed_mems (d : Dev) (b : Nat) : (Dev.hazardBed d b).mems = d.mems := by
  unfold Dev.hazardBed
  try dsimp only
  repeat' split
  all_goals simp

/-! ### PortOps -/

@[simp] theorem Dev.setPort_mems (d : Dev) (p : Nat) (x : PortSt) : (Dev.setPort d p x).mems = d.mems := by
  unfold Dev.setPort
  try dsimp only
  repeat' split
  all_goals simp
@[simp] theorem Dev.modPort_mems (d : Dev) (p : Nat) (f : PortSt → PortSt) : (Dev.modPort d p f).mems = d.mems := by
  unfold Dev.modPort
  try dsimp only
  repeat' split
  all_goals simp
@[simp] theorem Dev.queueShort_mems (d : Dev) (p : Nat) (f : ShortFlit) : (Dev.queueShort d p f).mems = d.mems := by
  unfold Dev.queueShort
  try dsimp only
  repeat' split
  all_goals simp
@[simp] theorem Dev.queueMsg_mems (d : Dev) (p : Nat) (h : MsgHead) (trugHead body : List Byte) : (Dev.queueMsg d p h trugHead body).mems = d.mems := by
  unfold Dev.queueMsg
  try dsimp only
  repeat' split
  all_goals simp
@[simp] theorem Dev.sendMsg_mems (d : Dev) (h : MsgHead) (trugHead body : List Byte) : (Dev.sendMsg d h trugHead body).mems = d.mems := by
  unfold Dev.sendMsg
  try dsimp only
  repeat' split
  all_goals simp
@[simp] theorem Dev.answerWrite_mems (d : Dev) (h : MsgHead) (reason : Nat) : (Dev.answerWrite d h reason).mems = d.mems := by
  unfold Dev.answerWrite
  try dsimp only
  repeat' split
  all_goals simp
@[simp] theorem Dev.violation_mems (d : Dev) (p code seq : Nat) : (Dev.violation d p code seq).mems = d.mems := by
  unfold Dev.violation
  try dsimp only
  repeat' split
  all_goals simp
@[simp] theorem Dev.logLink_mems (d : Dev) (p sev : Nat) : (Dev.logLink d p sev).mems = d.mems := by
  unfold Dev.logLink
  try dsimp only
  repeat' split
  all_goals simp
@[simp] theorem Dev.retrainPort_mems (d : Dev) (p : Nat) : (Dev.retrainPort d p).mems = d.mems := by
  unfold Dev.retrainPort
  try dsimp only
  repeat' split
  all_goals simp
@[simp] theorem Dev.portGoesDown_mems (d : Dev) (p : Nat) : (Dev.portGoesDown d p).mems = d.mems := by
  unfold Dev.portGoesDown
  try dsimp only
  repeat' split
  all_goals simp
@[simp] theorem Dev.startReplay_mems (d : Dev) (p seq : Nat) : (Dev.startReplay d p seq).mems = d.mems := by
  unfold Dev.startReplay
  try dsimp only
  repeat' split
  all_goals simp
@[simp] theorem Dev.sendNak_mems (d : Dev) (p : Nat) : (Dev.sendNak d p).mems = d.mems := by
  unfold Dev.sendNak
  try dsimp only
  repeat' split
  all_goals simp
@[simp] theorem Dev.recvShort_mems (d : Dev) (p kind : Nat) (bytes : List Byte) : (Dev.recvShort d p kind bytes).1.mems = d.mems := by
  unfold Dev.recvShort
  try dsimp only
  repeat' split
  all_goals simp

/-! ### Obotil -/

@[simp] theorem Dev.clearPortCounters_mems (d : Dev) (p : Nat) : (Dev.clearPortCounters d p).mems = d.mems := by
  unfold Dev.clearPortCounters
  try dsimp only
  repeat' split
  all_goals simp
@[simp] theorem Dev.portRetrainCmd_mems (d : Dev) (p : Nat) : (Dev.portRetrainCmd d p).mems = d.mems := by
  unfold Dev.portRetrainCmd
  try dsimp only
  repeat' split
  all_goals simp
@[simp] theorem Dev.portDownCmd_mems (d : Dev) (p : Nat) : (Dev.portDownCmd d p).mems = d.mems := by
  unfold Dev.portDownCmd
  try dsimp only
  repeat' split
  all_goals simp
@[simp] theorem Dev.portEnable_mems (d : Dev) (p : Nat) (on : Bool) : (Dev.portEnable d p on).mems = d.mems := by
  unfold Dev.portEnable
  try dsimp only
  repeat' split
  all_goals simp
@[simp] theorem Dev.obCtlWritten_mems (d : Dev) (p : Nat) (new cmd : Word) : (Dev.obCtlWritten d p new cmd).mems = d.mems := by
  unfold Dev.obCtlWritten
  try dsimp only
  repeat' split
  all_goals simp
@[simp] theorem Dev.obCtlRow_memsWf (d : Dev) (src : Source) (p : Nat) (f : Dev → Dev)
    (hf : ∀ d, Mems.wf d.mems = true → Mems.wf (f d).mems = true) (hd : Mems.wf d.mems = true) :
    Mems.wf (Dev.obCtlRow d src p f).mems = true := Dev.rowWrite_memsWf _ _ _ _ _ hf hd
@[simp] theorem Dev.portComesUp_mems (d : Dev) (p dev node delay width : Nat) : (Dev.portComesUp d p dev node delay width).mems = d.mems := by
  unfold Dev.portComesUp
  try dsimp only
  repeat' split
  all_goals simp
@[simp] theorem Dev.transmit_mems (d : Dev) (p : Nat) (bs : List Byte) : (Dev.transmit d p bs).mems = d.mems := by
  unfold Dev.transmit
  try dsimp only
  repeat' split
  all_goals simp
@[simp] theorem Dev.discardMsg_mems (d : Dev) (p code seq reason : Nat) (m : RxMsg) : (Dev.discardMsg d p code seq reason m).mems = d.mems := by
  unfold Dev.discardMsg
  try dsimp only
  repeat' split
  all_goals simp
@[simp] theorem Dev.endArriving_mems (d : Dev) (p c seq : Nat) : (Dev.endArriving d p c seq).mems = d.mems := by
  unfold Dev.endArriving
  try dsimp only
  repeat' split
  all_goals simp
@[simp] theorem Dev.startMsg_mems (d : Dev) (p c seq : Nat) (data : List Byte) : (Dev.startMsg d p c seq data).mems = d.mems := by
  unfold Dev.startMsg
  try dsimp only
  repeat' split
  all_goals simp
@[simp] theorem Dev.contMsg_mems (d : Dev) (p c seq : Nat) (data : List Byte) : (Dev.contMsg d p c seq data).mems = d.mems := by
  unfold Dev.contMsg
  try dsimp only
  repeat' split
  all_goals simp
@[simp] theorem Dev.dataFlit_mems (d : Dev) (p c : Nat) (start : Bool) (seq : Nat) (data : List Byte) : (Dev.dataFlit d p c start seq data).mems = d.mems := by
  unfold Dev.dataFlit
  try dsimp only
  repeat' split
  all_goals simp
@[simp] theorem Dev.linkFlit_mems (d : Dev) (p : Nat) (data : List Byte) : (Dev.linkFlit d p data).mems = d.mems := by
  unfold Dev.linkFlit
  try dsimp only
  repeat' split
  all_goals simp
@[simp] theorem Dev.recvFull_mems (d : Dev) (p : Nat) (bytes : List Byte) : (Dev.recvFull d p bytes).mems = d.mems := by
  unfold Dev.recvFull
  try dsimp only
  repeat' split
  all_goals simp

/-! ### Operands -/

@[simp] theorem Dev.writeChunk_memsWf (d : Dev) (m : Mem) (a : Nat) (ls : List Lane) (hd : Mems.wf d.mems = true) : Mems.wf (Dev.writeChunk d m a ls).mems = true := by
  unfold Dev.writeChunk
  try dsimp only
  repeat' split
  all_goals simp (maxDischargeDepth := 9) [hd]
@[simp] theorem Dev.writeLanesFuel_memsWf (m : Mem) (n : Nat) (d : Dev) (a : Nat) (ls : List Lane) (hd : Mems.wf d.mems = true) :
    Mems.wf (Dev.writeLanesFuel m n d a ls).mems = true := by
  induction n generalizing d a ls with
  | zero => exact hd
  | succ n ih =>
    unfold Dev.writeLanesFuel
    split
    · exact hd
    · exact ih _ _ _ (by simp (maxDischargeDepth := 9) [hd])
@[simp] theorem Dev.writeLanes_memsWf (d : Dev) (m : Mem) (a : Nat) (ls : List Lane) (hd : Mems.wf d.mems = true) : Mems.wf (Dev.writeLanes d m a ls).mems = true := by
  unfold Dev.writeLanes
  try dsimp only
  repeat' split
  all_goals simp (maxDischargeDepth := 9) [hd]

/-! ### Furrow -/

@[simp] theorem Dev.furWrite_memsWf (d : Dev) (die p f c : Nat) (ls : List Lane) (hd : Mems.wf d.mems = true) : Mems.wf (Dev.furWrite d die p f c ls).mems = true := by
  unfold Dev.furWrite
  try dsimp only
  repeat' split
  all_goals simp (maxDischargeDepth := 9) [hd]
@[simp] theorem Dev.furStore_memsWf (d : Dev) (die p f c : Nat) (ls : List Lane) (hd : Mems.wf d.mems = true) : Mems.wf (Dev.furStore d die p f c ls).mems = true := by
  unfold Dev.furStore
  try dsimp only
  repeat' split
  all_goals simp (maxDischargeDepth := 9) [hd]
@[simp] theorem Dev.useLines_mems (d : Dev) (die p f c n cls : Nat) (write : Bool) : (Dev.useLines d die p f c n cls write).mems = d.mems := by
  unfold Dev.useLines
  try dsimp only
  repeat' split
  all_goals simp

/-! ### PlotOps -/

@[simp] theorem Dev.modPlot_mems (d : Dev) (die p : Nat) (g : PlotSt → PlotSt) : (Dev.modPlot d die p g).mems = d.mems := by
  unfold Dev.modPlot
  try dsimp only
  repeat' split
  all_goals simp
@[simp] theorem Dev.modPass_mems (d : Dev) (die p seq : Nat) (g : Pass → Pass) : (Dev.modPass d die p seq g).mems = d.mems := by
  unfold Dev.modPass
  try dsimp only
  repeat' split
  all_goals simp
@[simp] theorem Dev.refusePass_memsWf (d : Dev) (die p bed seq code : Nat) (hd : Mems.wf d.mems = true) : Mems.wf (Dev.refusePass d die p bed seq code).mems = true := by
  unfold Dev.refusePass
  try dsimp only
  repeat' split
  all_goals simp (maxDischargeDepth := 9) [hd]
@[simp] theorem Dev.request_mems (d : Dev) (a : BenchAccess) : (Dev.request d a).1.mems = d.mems := by
  unfold Dev.request
  (try dsimp only)
  repeat' split
  all_goals simp
theorem Dev.forwardVec_memsWf (d d' : Dev) (die p ring fur base : Nat) (f : Fmt) (n k v : Nat) (hd : Mems.wf d.mems = true)
    (h : d.forwardVec die p ring fur base f n k v = some d') : Mems.wf d'.mems = true := by
  unfold Dev.forwardVec at h
  split at h
  · simp at h; subst h; exact hd
  · dsimp only at h
    split at h
    · simp at h
    · simp only [Option.some.injEq] at h
      subst h
      simp only [Dev.countWrap_mems, Dev.modFur_mems, Dev.modPlot_mems]
      simp (maxDischargeDepth := 30) [hd]
@[simp] theorem Dev.arrayRead_mems (d : Dev) (die p bed fur : Nat) (c n : Nat) : (Dev.arrayRead d die p bed fur c n).mems = d.mems := by
  unfold Dev.arrayRead
  try dsimp only
  repeat' split
  all_goals simp
@[simp] theorem Dev.noteEntry_mems (d : Dev) (die p bed e : Nat) : (Dev.noteEntry d die p bed e).mems = d.mems := by
  unfold Dev.noteEntry
  try dsimp only
  repeat' split
  all_goals simp
@[simp] theorem Dev.noteVector_mems (d : Dev) (die p : Nat) (x : Pass) (c : PassCmd) (ex : Bool) (v : Nat) : (Dev.noteVector d die p x c ex v).mems = d.mems := by
  unfold Dev.noteVector
  try dsimp only
  repeat' split
  all_goals simp [foldl_mems, Dev.mems_ite]
theorem Dev.feedVector_memsWf (d d' : Dev) (die p : Nat) (x : Pass) (ex : Bool) (hd : Mems.wf d.mems = true)
    (h : d.feedVector die p x ex = some d') : Mems.wf d'.mems = true := by
  unfold Dev.feedVector at h
  dsimp only at h
  split at h
  · simp at h
  · split at h
    · simp at h
    · rename_i d1 h1
      have hd1 : Mems.wf d1.mems = true := by
        split at h1
        · exact Dev.forwardVec_memsWf _ _ _ _ _ _ _ _ _ _ _ hd h1
        · simp at h1; subst h1; exact hd
      simp only [Option.some.injEq] at h
      subst h
      simp only [Dev.modPass_mems]
      (repeat' split) <;> simp (maxDischargeDepth := 9) [hd1]
@[simp] theorem Dev.endHold_mems (d : Dev) (die p : Nat) : (Dev.endHold d die p).mems = d.mems := by
  unfold Dev.endHold
  try dsimp only
  repeat' split
  all_goals simp
@[simp] theorem Dev.holdArray_mems (d : Dev) (die p : Nat) (x : Pass) (ex : Bool) (v : Nat) : (Dev.holdArray d die p x ex v).mems = d.mems := by
  unfold Dev.holdArray
  try dsimp only
  repeat' split
  all_goals simp
@[simp] theorem Dev.enterVector_memsWf (d : Dev) (die p : Nat) (x : Pass) (ex : Bool) (hd : Mems.wf d.mems = true) :
    Mems.wf (Dev.enterVector d die p x ex).mems = true := by
  unfold Dev.enterVector
  dsimp only
  split
  · simp (maxDischargeDepth := 9) [hd]
  · rename_i d1 h1
    have hd1 : Mems.wf d1.mems = true := by
      split at h1
      · exact Dev.feedVector_memsWf _ _ _ _ _ _ hd h1
      · simp at h1; subst h1; exact hd
    split <;> simp (maxDischargeDepth := 9) [hd1]
@[simp] theorem Dev.postPass_memsWf (d : Dev) (x : Pass) (b : Barrow) (hd : Mems.wf d.mems = true) : Mems.wf (Dev.postPass d x b).mems = true := by
  unfold Dev.postPass
  try dsimp only
  repeat' split
  all_goals simp (maxDischargeDepth := 9) [hd]
@[simp] theorem Dev.releasePass_mems (d : Dev) (die p fur : Nat) (base : Option Nat) (n : Nat) : (Dev.releasePass d die p fur base n).mems = d.mems := by
  unfold Dev.releasePass
  try dsimp only
  repeat' split
  all_goals simp
@[simp] theorem Dev.releaseTile_mems (d : Dev) (die p : Nat) (x : Pass) (ex : Bool) : (Dev.releaseTile d die p x ex).mems = d.mems := by
  unfold Dev.releaseTile
  try dsimp only
  repeat' split
  all_goals simp
@[simp] theorem Dev.storeOutput_memsWf (d : Dev) (die p : Nat) (x : Pass) (bs : List Byte) (hd : Mems.wf d.mems = true) : Mems.wf (Dev.storeOutput d die p x bs).mems = true := by
  unfold Dev.storeOutput
  try dsimp only
  repeat' split
  all_goals simp (maxDischargeDepth := 9) [hd]
@[simp] theorem Dev.commitFile_mems (d : Dev) (die p : Nat) (c : PassCmd) (ex : Bool) (es : List (Nat × DWord)) : (Dev.commitFile d die p c ex es).mems = d.mems := by
  unfold Dev.commitFile
  try dsimp only
  repeat' split
  all_goals simp
@[simp] theorem Dev.retirePass_memsWf (d : Dev) (die p : Nat) (x : Pass) (b : BedCfg) (hd : Mems.wf d.mems = true) :
    Mems.wf (Dev.retirePass d die p x b).mems = true := by
  unfold Dev.retirePass
  extract_lets c ex r d1 d2 d3 d4 d5
  have h1 : Mems.wf d1.mems = true := by simp [d1, hd]
  have h2 : Mems.wf d2.mems = true := by simp only [d2]; split <;> simp (maxDischargeDepth := 9) [h1]
  have h3 : Mems.wf d3.mems = true := by simp [d3, h2]
  have h4 : Mems.wf d4.mems = true := by simp [d4, h3]
  have h5 : Mems.wf d5.mems = true := by simp only [d5]; split <;> simp (maxDischargeDepth := 9) [h4]
  simp (maxDischargeDepth := 9) [h5]
@[simp] theorem Dev.abandonPasses_memsWf (d : Dev) (die p seq cause : Nat) (ex : Bool) (hd : Mems.wf d.mems = true) : Mems.wf (Dev.abandonPasses d die p seq cause ex).mems = true := by
  unfold Dev.abandonPasses
  try dsimp only
  repeat' split
  all_goals (try simp (maxDischargeDepth := 9) [hd])
  all_goals (refine foldl_memsWf (fun d a hd => ?_) _ _ ?_ <;> (try dsimp only) <;> (repeat' split) <;> simp (maxDischargeDepth := 9) [hd])
@[simp] theorem Dev.dropReplays_mems (d : Dev) (die p : Nat) : (Dev.dropReplays d die p).mems = d.mems := by
  unfold Dev.dropReplays
  try dsimp only
  repeat' split
  all_goals simp
@[simp] theorem Dev.plotHalt_memsWf (d : Dev) (die p code : Nat) (hd : Mems.wf d.mems = true) : Mems.wf (Dev.plotHalt d die p code).mems = true := by
  unfold Dev.plotHalt
  try dsimp only
  repeat' split
  all_goals simp (maxDischargeDepth := 9) [hd]
@[simp] theorem Dev.startRetest_mems (d : Dev) (die p : Nat) (replay exhausted : Bool) : (Dev.startRetest d die p replay exhausted).mems = d.mems := by
  unfold Dev.startRetest
  try dsimp only
  repeat' split
  all_goals simp

end Machine
end Sys2Proof
end

