-- ==== Sys2Proof/Laws/MemoryEngines.lean ====
section
/-! SUPPORT. What each operation does to what is stored under the hedge code (rills, gates, Sieves, plots, Mowers and the Trug engine): `f_mems` says that `f`
leaves all of it as it was, `f_memsWf` that `f` keeps its canonical form. -/
namespace Sys2Proof
namespace Machine

set_option linter.unusedSimpArgs false
set_option linter.unusedVariables false
set_option linter.unusedTactic false
set_option linter.unreachableTactic false

/-! ### RillMove -/

@[simp] theorem Dev.rillWriteFuel_memsWf (die e : Nat) (virt : Bool) (n : Nat) (d : Dev) (a : Nat) (ls : List Lane)
    (hd : Mems.wf d.mems = true) : Mems.wf (Dev.rillWriteFuel die e virt n d a ls).mems = true := by
  induction n generalizing d a ls with
  | zero => exact hd
  | succ n ih =>
    unfold Dev.rillWriteFuel
    split
    · exact hd
    · refine ih _ _ _ ?_
      cases d.rillPhys die e virt true a <;> simp (maxDischargeDepth := 9) [hd]
@[simp] theorem Dev.rillStore_memsWf (d : Dev) (die e : Nat) (r : RillDesc) (a : Nat) (ls : List Lane) (hd : Mems.wf d.mems = true) : Mems.wf (Dev.rillStore d die e r a ls).1.mems = true := by
  unfold Dev.rillStore
  try dsimp only
  repeat' split
  all_goals simp (maxDischargeDepth := 9) [hd]
@[simp] theorem Dev.storeRow_memsWf (d : Dev) (die e : Nat) (r : RillDesc) (p : Plan) (w : RowPlan) (x : RowData) (i0 : Nat) (hd : Mems.wf d.mems = true) : Mems.wf (Dev.storeRow d die e r p w x i0).1.mems = true := by
  unfold Dev.storeRow
  try dsimp only
  repeat' split
  all_goals simp (maxDischargeDepth := 9) [hd]
@[simp] theorem Dev.walkRows_memsWf (c : BedCfg) (die e : Nat) (r : RillDesc) (p : Plan) (from_ : Nat × Nat)
    (until_ : Option (Nat × Nat)) (d : Dev) (fl : FlagSet) (ss : List Sent) (rows : List (RowPlan × RowData))
    (hd : Mems.wf d.mems = true) : Mems.wf (Dev.walkRows c die e r p from_ until_ d fl ss rows).dev.mems = true := by
  induction rows generalizing d fl ss with
  | nil => exact hd
  | cons w rest ih =>
    obtain ⟨w, x⟩ := w
    unfold Dev.walkRows
    extract_lets i0 stop n y st
    have hst : Mems.wf st.1.mems = true := by simp only [st]; split <;> simp (maxDischargeDepth := 9) [hd]
    split
    · exact ih _ _ _ hd
    · cases stop with
      | none => exact ih _ _ _ hst
      | some z => exact hst

/-! ### RillOps -/

@[simp] theorem Dev.noteReads_mems (d : Dev) (die e : Nat) (x : RillRun) (from_ to_ : Nat × Nat) : (Dev.noteReads d die e x from_ to_).mems = d.mems := by
  unfold Dev.noteReads
  try dsimp only
  repeat' split
  all_goals simp
@[simp] theorem Dev.cachePages_mems (d : Dev) (die e : Nat) (x : RillRun) : (Dev.cachePages d die e x).mems = d.mems := by
  unfold Dev.cachePages
  try dsimp only
  repeat' split
  all_goals simp
@[simp] theorem Dev.modRun_mems (d : Dev) (die e : Nat) (g : RillRun → RillRun) : (Dev.modRun d die e g).mems = d.mems := by
  unfold Dev.modRun
  try dsimp only
  repeat' split
  all_goals simp
@[simp] theorem Dev.setCursor_mems (d : Dev) (die e : Nat) (x : RillRun) (row i0 : Nat) : (Dev.setCursor d die e x row i0).mems = d.mems := by
  unfold Dev.setCursor
  try dsimp only
  repeat' split
  all_goals simp [foldl_mems, Dev.mems_ite]
@[simp] theorem Dev.rillUnrecov_memsWf (d : Dev) (die e cause : Nat) (hd : Mems.wf d.mems = true) : Mems.wf (Dev.rillUnrecov d die e cause).mems = true := by
  unfold Dev.rillUnrecov
  try dsimp only
  repeat' split
  all_goals simp (maxDischargeDepth := 9) [hd]
@[simp] theorem Dev.countRefused_mems (d : Dev) (die : Option Nat) : (Dev.countRefused d die).mems = d.mems := by
  unfold Dev.countRefused
  try dsimp only
  repeat' split
  all_goals simp
@[simp] theorem Dev.rillStops_memsWf (d : Dev) (die e : Nat) (x : RillRun) (z : Nat × Nat × RErr) (hd : Mems.wf d.mems = true) : Mems.wf (Dev.rillStops d die e x z).mems = true := by
  unfold Dev.rillStops
  try dsimp only
  repeat' split
  all_goals simp (maxDischargeDepth := 9) [hd]
@[simp] theorem Dev.sendHost_mems (d : Dev) (r : RillDesc) (ss : List Sent) : (Dev.sendHost d r ss).mems = d.mems := by
  unfold Dev.sendHost
  try dsimp only
  repeat' split
  all_goals simp
@[simp] theorem Dev.gateLast_mems (d : Dev) (reason gate dev : Nat) : (Dev.gateLast d reason gate dev).mems = d.mems := by
  unfold Dev.gateLast
  try dsimp only
  repeat' split
  all_goals simp
@[simp] theorem Dev.sendGate_memsWf (die e bed : Nat) (ss : List Sent) (d : Dev) (hd : Mems.wf d.mems = true) :
    Mems.wf (Dev.sendGate die e bed ss d).mems = true := by
  induction ss generalizing d with
  | nil => exact hd
  | cons s ss ih =>
    unfold Dev.sendGate
    extract_lets dev gate
    split
    · simp (maxDischargeDepth := 9) [hd]
    · cases d.route dev with
      | none => simp (maxDischargeDepth := 9) [hd]
      | some p => exact ih _ (by simp (maxDischargeDepth := 9) [hd])
@[simp] theorem Dev.rillWriteBench_memsWf (d : Dev) (die e : Nat) (x : RillRun) (f : Nat × Nat × Nat) (at_ : Nat) (ls : List Lane) (marks : List Bool) (hd : Mems.wf d.mems = true) : Mems.wf (Dev.rillWriteBench d die e x f at_ ls marks).mems = true := by
  unfold Dev.rillWriteBench
  try dsimp only
  repeat' split
  all_goals (try simp (maxDischargeDepth := 9) [hd])
  all_goals (refine foldl_memsWf (fun d a hd => ?_) _ _ ?_ <;> (try dsimp only) <;> (repeat' split) <;> simp (maxDischargeDepth := 9) [hd])
@[simp] theorem Dev.deliverBench_memsWf (d : Dev) (die e : Nat) (x : RillRun) (rows : List (RowPlan × RowData)) (f : Nat × Nat × Nat) (at_ : Nat) (stop : Option (Nat × Nat)) (hd : Mems.wf d.mems = true) : Mems.wf (Dev.deliverBench d die e x rows f at_ stop).1.mems = true := by
  unfold Dev.deliverBench
  try dsimp only
  repeat' split
  all_goals simp (maxDischargeDepth := 9) [hd]
@[simp] theorem Dev.rillDeliver_memsWf (d : Dev) (die e : Nat) (x : RillRun) (until_ : Option (Nat × Nat)) (hd : Mems.wf d.mems = true) : Mems.wf (Dev.rillDeliver d die e x until_).1.mems = true := by
  unfold Dev.rillDeliver
  try dsimp only
  repeat' split
  all_goals simp (maxDischargeDepth := 9) [hd]
@[simp] theorem Dev.rillProgress_memsWf (d : Dev) (die e : Nat) (hd : Mems.wf d.mems = true) :
    Mems.wf (Dev.rillProgress d die e).mems = true := by
  unfold Dev.rillProgress
  cases (d.rill die e).run with
  | none => exact hd
  | some x =>
    have h1 : Mems.wf (d.rillDeliver die e x none).1.mems = true := by simp [hd]
    dsimp only
    repeat' split
    all_goals first | exact hd | exact h1 | simp (maxDischargeDepth := 9) [hd, h1]
@[simp] theorem Dev.rillEnds_memsWf (d : Dev) (die e : Nat) (hd : Mems.wf d.mems = true) :
    Mems.wf (Dev.rillEnds d die e).mems = true := by
  unfold Dev.rillEnds
  cases (d.rill die e).run with
  | none => exact hd
  | some x =>
    dsimp -zeta only
    extract_lets r b ex last late len bar posted d1 d2 d3a d3 n d4 d5 d6
    have h1 : Mems.wf d1.mems = true := by
      simp only [d1, posted]; cases x.claimed <;> simp (maxDischargeDepth := 9) [hd]
    have h2 : Mems.wf d2.mems = true := by simp only [d2]; split <;> simp (maxDischargeDepth := 9) [h1]
    have h3 : Mems.wf d3.mems = true := by simp only [d3, d3a]; (repeat' split) <;> simp (maxDischargeDepth := 9) [h2]
    have h4 : Mems.wf d4.mems = true := by simp only [d4]; split <;> simp (maxDischargeDepth := 9) [h3]
    have h5 : Mems.wf d5.mems = true := by simp only [d5]; split <;> simp (maxDischargeDepth := 9) [h4]
    have h6 : Mems.wf d6.mems = true := by simp only [d6]; cases x.input <;> simp (maxDischargeDepth := 9) [h5]
    split <;> simp (maxDischargeDepth := 9) [h6]
@[simp] theorem Dev.rillFinish_memsWf (d : Dev) (die e : Nat) (hd : Mems.wf d.mems = true) :
    Mems.wf (Dev.rillFinish d die e).mems = true := by
  unfold Dev.rillFinish
  repeat' split
  all_goals first | exact hd | simp (maxDischargeDepth := 9) [hd]
@[simp] theorem Dev.rillMove_memsWf (d : Dev) (die e : Nat) (x : RillRun) (hd : Mems.wf d.mems = true) :
    Mems.wf (Dev.rillMove d die e x).mems = true := by
  have h1 : Mems.wf (d.rillDeliver die e x none).1.mems = true := by simp [hd]
  unfold Dev.rillMove
  dsimp only
  generalize d.rillDeliver die e x none = w at h1 ⊢
  repeat' split
  · exact hd
  · exact Dev.rillEnds_memsWf _ _ _ (Dev.rillStops_memsWf _ _ _ _ _ h1)
  · exact Dev.rillFinish_memsWf _ _ _ h1
@[simp] theorem Dev.rillPost_memsWf (d : Dev) (die e : Nat) (hd : Mems.wf d.mems = true) : Mems.wf (Dev.rillPost d die e).mems = true := by
  unfold Dev.rillPost
  try dsimp only
  repeat' split
  all_goals first | exact hd | simp (maxDischargeDepth := 9) [hd]
@[simp] theorem Dev.onTrail_memsWf (d : Dev) (die e n : Nat) (g : Dev → Dev)
    (hg : ∀ d, Mems.wf d.mems = true → Mems.wf (g d).mems = true) (hd : Mems.wf d.mems = true) :
    Mems.wf (Dev.onTrail d die e n g).mems = true := by
  unfold Dev.onTrail
  extract_lets st others d1 s1 trail
  have h1 : Mems.wf d1.mems = true := hg _ (by simp [hd])
  split
  · exact h1
  · simp [h1]
@[simp] theorem Dev.rillPosts_memsWf (d : Dev) (die e q : Nat) (hd : Mems.wf d.mems = true) : Mems.wf (Dev.rillPosts d die e q).mems = true := by
  unfold Dev.rillPosts
  dsimp only
  split
  · exact Dev.onTrail_memsWf _ _ _ _ _ (fun d hd => Dev.rillPost_memsWf _ _ _ hd) hd
  · split <;> simp [hd]

/-! ### Gate -/

@[simp] theorem Dev.setGate_mems (d : Dev) (g : Nat) (x : GateSt) : (Dev.setGate d g x).mems = d.mems := by
  unfold Dev.setGate
  try dsimp only
  repeat' split
  all_goals simp
@[simp] theorem Dev.showGate_mems (d : Dev) (g : Nat) : (Dev.showGate d g).mems = d.mems := by
  unfold Dev.showGate
  try dsimp only
  repeat' split
  all_goals simp
@[simp] theorem Dev.gateIgnored_mems (d : Dev) (g : Nat) : (Dev.gateIgnored d g).mems = d.mems := by
  unfold Dev.gateIgnored
  try dsimp only
  repeat' split
  all_goals simp
@[simp] theorem Dev.loadGate_mems (d : Dev) (g : Nat) : (Dev.loadGate d g).mems = d.mems := by
  unfold Dev.loadGate
  try dsimp only
  repeat' split
  all_goals simp
@[simp] theorem Dev.gateEffect_mems (d : Dev) (g cmd : Nat) (x : GateSt) (item : Option Nat) : (Dev.gateEffect d g cmd x item).mems = d.mems := by
  unfold Dev.gateEffect
  try dsimp only
  repeat' split
  all_goals simp
@[simp] theorem Dev.gateItem_memsWf (d : Dev) (bed g cmd : Nat) (hd : Mems.wf d.mems = true) : Mems.wf (Dev.gateItem d bed g cmd).mems = true := by
  unfold Dev.gateItem
  try dsimp only
  repeat' split
  all_goals simp (maxDischargeDepth := 9) [hd]
@[simp] theorem Dev.gateReg_mems (d : Dev) (g cmd : Nat) : (Dev.gateReg d g cmd).mems = d.mems := by
  unfold Dev.gateReg
  try dsimp only
  repeat' split
  all_goals simp
@[simp] theorem Dev.gateCmdWritten_mems (d : Dev) (new cmd : Word) : (Dev.gateCmdWritten d new cmd).mems = d.mems := by
  unfold Dev.gateCmdWritten
  try dsimp only
  repeat' split
  all_goals simp
@[simp] theorem Dev.gateRow_memsWf (d : Dev) (src : Source) (g cmd : Nat) (hd : Mems.wf d.mems = true) : Mems.wf (Dev.gateRow d src g cmd).mems = true := by
  unfold Dev.gateRow
  try dsimp only
  repeat' split
  all_goals simp (maxDischargeDepth := 9) [hd]
@[simp] theorem Dev.refuseGateWrite_mems (d : Dev) (p : Nat) (m : RxMsg) (reason : Nat) : (Dev.refuseGateWrite d p m reason).mems = d.mems := by
  unfold Dev.refuseGateWrite
  try dsimp only
  repeat' split
  all_goals simp
@[simp] theorem Dev.applyGateWrite_memsWf (d : Dev) (p : Nat) (m : RxMsg) (hd : Mems.wf d.mems = true) : Mems.wf (Dev.applyGateWrite d p m).mems = true := by
  unfold Dev.applyGateWrite
  try dsimp only
  repeat' split
  all_goals simp (maxDischargeDepth := 9) [hd]
@[simp] theorem Dev.onAnswer_memsWf (d : Dev) (r : Nat × Nat) (tag : Nat) (g : Dev → Dev)
    (hg : ∀ d, Mems.wf d.mems = true → Mems.wf (g d).mems = true) (hd : Mems.wf d.mems = true) :
    Mems.wf (Dev.onAnswer d r tag g).mems = true := by
  have hf : ∀ d : Dev, Mems.wf d.mems = true → Mems.wf (g (d.modRun r.1 r.2 (RillRun.answered tag))).mems = true :=
    fun d hd => hg _ (by simp [hd])
  unfold Dev.onAnswer
  dsimp only
  split
  · exact Dev.onTrail_memsWf _ _ _ _ _ hf hd
  · exact hf _ hd
@[simp] theorem Dev.setWepoch_mems (d : Dev) (l bed v : Nat) : (Dev.setWepoch d l bed v).mems = d.mems := by
  unfold Dev.setWepoch
  try dsimp only
  repeat' split
  all_goals simp
@[simp] theorem Dev.wepochWritten_mems (d : Dev) (bed : Nat) (new : Word) : (Dev.wepochWritten d bed new).mems = d.mems := by
  unfold Dev.wepochWritten
  try dsimp only
  repeat' split
  all_goals simp

/-! ### Barrier -/

@[simp] theorem Dev.setBar_mems (d : Dev) (g : Nat) (x : BarSt) : (Dev.setBar d g x).mems = d.mems := by
  unfold Dev.setBar
  try dsimp only
  repeat' split
  all_goals simp
@[simp] theorem Dev.sendToken_mems (d : Dev) (g w0 : Nat) : (Dev.sendToken d g w0).mems = d.mems := by
  unfold Dev.sendToken
  try dsimp only
  repeat' split
  all_goals simp
@[simp] theorem Dev.barRetire_mems (d : Dev) (g : Nat) : (Dev.barRetire d g).mems = d.mems := by
  unfold Dev.barRetire
  try dsimp only
  repeat' split
  all_goals simp
theorem Dev.actToken_mems (d d' : Dev) (g w0 : Nat) (h : d.actToken g w0 = some d') : d'.mems = d.mems := by
  unfold Dev.actToken at h
  repeat' split at h
  all_goals simp at h
  all_goals (subst h; simp)
@[simp] theorem Dev.actHeld_mems (g n : Nat) (d : Dev) : (Dev.actHeld g n d).mems = d.mems := by
  induction n generalizing d with
  | zero => rfl
  | succ n ih =>
    unfold Dev.actHeld
    split
    · rfl
    · split
      · rfl
      · rename_i h; rw [ih, Dev.setBar_mems, Dev.actToken_mems _ _ _ _ h]
@[simp] theorem Dev.token_mems (d : Dev) (g w0 : Nat) : (Dev.token d g w0).mems = d.mems := by
  unfold Dev.token
  extract_lets n hold
  have hh : ∀ d, (hold d).mems = d.mems := by intro d; simp only [hold]; split <;> simp
  split
  · simp
  · split
    · cases h : d.actToken g w0 with
      | none => exact hh d
      | some d1 => simp only [Dev.actHeld_mems]; exact Dev.actToken_mems _ _ _ _ h
    · exact hh d
@[simp] theorem Dev.barCfgWritten_mems (d : Dev) (g : Nat) (new : Word) : (Dev.barCfgWritten d g new).mems = d.mems := by
  unfold Dev.barCfgWritten
  try dsimp only
  repeat' split
  all_goals simp
@[simp] theorem Dev.devIdWritten_mems (d : Dev) (new : Word) : (Dev.devIdWritten d new).mems = d.mems := by
  unfold Dev.devIdWritten
  try dsimp only
  repeat' split
  all_goals simp

/-! ### SieveOps -/

@[simp] theorem Dev.setTray_memsWf (d : Dev) (k : Nat) (w : DWord) (hd : Mems.wf d.mems = true) : Mems.wf (Dev.setTray d k w).mems = true := by
  unfold Dev.setTray
  try dsimp only
  repeat' split
  all_goals simp (maxDischargeDepth := 9) [hd]
@[simp] theorem Dev.noteSieveRow_mems (d : Dev) (die sv : Nat) (c : SieveCmd) (x : SieveRun) (r : Nat) : (Dev.noteSieveRow d die sv c x r).mems = d.mems := by
  unfold Dev.noteSieveRow
  try dsimp only
  repeat' split
  all_goals simp
@[simp] theorem Dev.noteParams_mems (d : Dev) (die sv bed : Nat) (c : SieveCmd) : (Dev.noteParams d die sv bed c).mems = d.mems := by
  unfold Dev.noteParams
  try dsimp only
  repeat' split
  all_goals simp [foldl_mems, Dev.mems_ite]
@[simp] theorem Dev.storeSieveRow_memsWf (d : Dev) (c : SieveCmd) (x : SieveRun) (r : Nat) (w : Nat) (hd : Mems.wf d.mems = true) : Mems.wf (Dev.storeSieveRow d c x r w).mems = true := by
  unfold Dev.storeSieveRow
  try dsimp only
  repeat' split
  all_goals simp (maxDischargeDepth := 9) [hd]
@[simp] theorem Dev.fillRowBuf_mems (d : Dev) (die sv : Nat) (c : SieveCmd) (xs : List Val) : (Dev.fillRowBuf d die sv c xs).mems = d.mems := by
  unfold Dev.fillRowBuf
  try dsimp only
  repeat' split
  all_goals simp
@[simp] theorem Dev.loadParams_mems (d : Dev) (b : BedCfg) (die sv bed : Nat) (c : SieveCmd) : (Dev.loadParams d b die sv bed c).1.mems = d.mems := by
  unfold Dev.loadParams
  try dsimp only
  repeat' split
  all_goals simp
@[simp] theorem Dev.storeImages_memsWf (d : Dev) (c : SieveCmd) (as : List Long) (hd : Mems.wf d.mems = true) :
    Mems.wf (Dev.storeImages d c as).1.mems = true := by
  have key : ∀ (g : Dev × Bool → Nat × Long → Dev × Bool)
      (_ : ∀ s p, Mems.wf s.1.mems = true → Mems.wf (g s p).1.mems = true) (ps : List (Nat × Long)) (s : Dev × Bool),
      Mems.wf s.1.mems = true → Mems.wf (ps.foldl g s).1.mems = true := by
    intro g hg ps
    induction ps with
    | nil => exact fun _ h => h
    | cons p ps ih => exact fun s h => ih _ (hg s p h)
  unfold Dev.storeImages
  refine key _ (fun s p h => ?_) _ _ hd
  dsimp only
  split
  · simp [h]
  · split
    · simp [h]
    · exact h
@[simp] theorem Dev.sieveLines_mems (d : Dev) (c : SieveCmd) (x : SieveRun) (rows : Nat) : (Dev.sieveLines d c x rows).mems = d.mems := by
  unfold Dev.sieveLines
  try dsimp only
  repeat' split
  all_goals simp

/-! ### Plot -/

@[simp] theorem Dev.beginLoad_mems (d : Dev) (die p : Nat) (x : Pass) (ex : Bool) (base : Nat) : (Dev.beginLoad d die p x ex base).mems = d.mems := by
  unfold Dev.beginLoad
  try dsimp only
  repeat' split
  all_goals simp
@[simp] theorem Dev.passSlot_mems (d : Dev) (die p : Nat) (x : Pass) : (Dev.passSlot d die p x).1.mems = d.mems := by
  unfold Dev.passSlot
  try dsimp only
  repeat' split
  all_goals simp
@[simp] theorem Dev.passOutput_mems (d : Dev) (die p : Nat) (x : Pass) : (Dev.passOutput d die p x).1.mems = d.mems := by
  unfold Dev.passOutput
  dsimp only
  split
  · rfl
  · split
    · rfl
    · split <;> simp
@[simp] theorem Dev.passImages_mems (d : Dev) (die p : Nat) (x : Pass) (ex : Bool) : (Dev.passImages d die p x ex).mems = d.mems := by
  unfold Dev.passImages
  try dsimp only
  repeat' split
  all_goals simp
@[simp] theorem Dev.takeTile_mems (d : Dev) (die p : Nat) (x : Pass) (ex : Bool) : (Dev.takeTile d die p x ex).mems = d.mems := by
  unfold Dev.takeTile
  try dsimp only
  repeat' split
  all_goals simp
@[simp] theorem Dev.laneAbandon_memsWf (d : Dev) (die p : Nat) (x : Pass) (ex : Bool) (cause : Nat) (hd : Mems.wf d.mems = true) : Mems.wf (Dev.laneAbandon d die p x ex cause).mems = true := by
  unfold Dev.laneAbandon
  try dsimp only
  repeat' split
  all_goals simp (maxDischargeDepth := 9) [hd]
@[simp] theorem Dev.wordAbandon_memsWf (d : Dev) (die p : Nat) (x : Pass) (ex : Bool) (cause : Nat) (hd : Mems.wf d.mems = true) : Mems.wf (Dev.wordAbandon d die p x ex cause).mems = true := by
  unfold Dev.wordAbandon
  try dsimp only
  repeat' split
  all_goals simp (maxDischargeDepth := 9) [hd]
@[simp] theorem Dev.recordPlot_mems (d : Dev) (die p code : Nat) : (Dev.recordPlot d die p code).mems = d.mems := by
  unfold Dev.recordPlot
  try dsimp only
  repeat' split
  all_goals simp
@[simp] theorem Dev.plotPreempt_mems (d : Dev) (die p : Nat) : (Dev.plotPreempt d die p).mems = d.mems := by
  unfold Dev.plotPreempt
  try dsimp only
  repeat' split
  all_goals simp
@[simp] theorem Dev.plotResume_mems (d : Dev) (die p : Nat) : (Dev.plotResume d die p).mems = d.mems := by
  unfold Dev.plotResume
  try dsimp only
  repeat' split
  all_goals simp
@[simp] theorem Dev.plotRetest_mems (d : Dev) (die p : Nat) : (Dev.plotRetest d die p).mems = d.mems := by
  unfold Dev.plotRetest
  try dsimp only
  repeat' split
  all_goals simp
@[simp] theorem Dev.plotCtlWritten_mems (d : Dev) (die p : Nat) (new cmd : Word) : (Dev.plotCtlWritten d die p new cmd).mems = d.mems := by
  unfold Dev.plotCtlWritten
  try dsimp only
  repeat' split
  all_goals simp
@[simp] theorem Dev.cmdRow_memsWf (d : Dev) (src : Source) (b : Blk) (o : Nat) (f : Dev → Dev)
    (hf : ∀ d, Mems.wf d.mems = true → Mems.wf (f d).mems = true) (hd : Mems.wf d.mems = true) :
    Mems.wf (Dev.cmdRow d src b o f).mems = true := Dev.rowWrite_memsWf _ _ _ _ _ hf hd

/-! ### Sieve -/

@[simp] theorem Dev.modSieve_mems (d : Dev) (die sv : Nat) (g : SieveRun → SieveRun) : (Dev.modSieve d die sv g).mems = d.mems := by
  unfold Dev.modSieve
  try dsimp only
  repeat' split
  all_goals simp
@[simp] theorem Dev.sieveNext_mems (d : Dev) (die sv : Nat) : (Dev.sieveNext d die sv).mems = d.mems := by
  unfold Dev.sieveNext
  try dsimp only
  repeat' split
  all_goals simp
@[simp] theorem Dev.sieveBegins_mems (d : Dev) (b : BedCfg) (die sv : Nat) (x : SieveRun) : (Dev.sieveBegins d b die sv x).mems = d.mems := by
  unfold Dev.sieveBegins
  try dsimp only
  repeat' split
  all_goals simp
@[simp] theorem Dev.releaseInput_mems (d : Dev) (a n : Nat) (at_ : Option Nat) : (Dev.releaseInput d a n at_).mems = d.mems := by
  unfold Dev.releaseInput
  try dsimp only
  repeat' split
  all_goals simp
@[simp] theorem Dev.sieveFill_memsWf (d : Dev) (c : SieveCmd) (x : SieveRun) (rows : Nat) (poisoned : Bool) (hd : Mems.wf d.mems = true) : Mems.wf (Dev.sieveFill d c x rows poisoned).mems = true := by
  unfold Dev.sieveFill
  try dsimp only
  repeat' split
  all_goals simp (maxDischargeDepth := 9) [hd]
@[simp] theorem Dev.sieveRan_mems (d : Dev) (die sv : Nat) (x : SieveRun) : (Dev.sieveRan d die sv x).mems = d.mems := by
  unfold Dev.sieveRan
  try dsimp only
  repeat' split
  all_goals simp
@[simp] theorem Dev.sieveEnds_memsWf (d : Dev) (die sv : Nat) (x : SieveRun) (rows : Nat) (flags : FlagSet) (cause : Option Nat)
    (hd : Mems.wf d.mems = true) : Mems.wf (Dev.sieveEnds d die sv x rows flags cause).mems = true := by
  unfold Dev.sieveEnds
  try dsimp -zeta only
  extract_lets c b poisonC late bar d1 d2 d3 posted d4 fault d5 d6a d6
  have h1 : Mems.wf d1.mems = true := by simp (maxDischargeDepth := 9) [d1, hd]
  have h2 : Mems.wf d2.mems = true := by simp [d2, h1]
  have h3 : Mems.wf d3.mems = true := by simp only [d3]; cases x.input <;> simp (maxDischargeDepth := 9) [h2]
  have h4 : Mems.wf d4.mems = true := by simp only [d4, posted]; cases x.claimed <;> simp (maxDischargeDepth := 9) [h3]
  clear_value d4 fault
  have h5 : Mems.wf d5.mems = true := by simp only [d5]; split <;> simp (maxDischargeDepth := 9) [h4]
  clear_value d5
  have h6 : Mems.wf d6.mems = true := by
    have ha : Mems.wf d6a.mems = true := by simp only [d6a]; split <;> simp (maxDischargeDepth := 9) [h5]
    simp only [d6]
    clear_value d6a poisonC
    cases poisonC with
    | none => exact h5
    | some e => dsimp only; split <;> simp (maxDischargeDepth := 9) [ha]
  simp (maxDischargeDepth := 9) [h6]
@[simp] theorem Dev.trayClearCmd_mems (d : Dev) (die sv : Nat) : (Dev.trayClearCmd d die sv).mems = d.mems := by
  unfold Dev.trayClearCmd
  try dsimp only
  repeat' split
  all_goals simp
@[simp] theorem Dev.sieveCtlWritten_mems (d : Dev) (die sv : Nat) (new cmd : Word) : (Dev.sieveCtlWritten d die sv new cmd).mems = d.mems := by
  unfold Dev.sieveCtlWritten
  try dsimp only
  repeat' split
  all_goals simp
@[simp] theorem Dev.clearTray_memsWf (d : Dev) (die sv : Nat) (hd : Mems.wf d.mems = true) :
    Mems.wf (Dev.clearTray d die sv).mems = true := by
  simp only [Mems.wf, Dev.mems, Dev.clearTray, Bool.and_eq_true] at *
  exact ⟨hd.1, Tbl.wf_filter hd.2⟩
@[simp] theorem Dev.trayWritten_memsWf (d : Dev) (die sv o : Nat) (new : Word) (hd : Mems.wf d.mems = true) : Mems.wf (Dev.trayWritten d die sv o new).mems = true := by
  unfold Dev.trayWritten
  try dsimp only
  repeat' split
  all_goals simp (maxDischargeDepth := 9) [hd]

/-! ### Mower -/

@[simp] theorem Dev.modMow_mems (d : Dev) (die : Nat) (g : MowerRun → MowerRun) : (Dev.modMow d die g).mems = d.mems := by
  unfold Dev.modMow
  try dsimp only
  repeat' split
  all_goals simp
@[simp] theorem Dev.setMow64_mems (d : Dev) (die : Nat) (lo hi : Fld) (v : Val) : (Dev.setMow64 d die lo hi v).mems = d.mems := by
  unfold Dev.setMow64
  try dsimp only
  repeat' split
  all_goals simp
@[simp] theorem Dev.mowFault_memsWf (d : Dev) (die cause : Nat) (hd : Mems.wf d.mems = true) : Mems.wf (Dev.mowFault d die cause).mems = true := by
  unfold Dev.mowFault
  try dsimp only
  repeat' split
  all_goals simp (maxDischargeDepth := 9) [hd]
@[simp] theorem Dev.mowFaultAt_memsWf (d : Dev) (die : Nat) (e : Nat × Option Nat) (hd : Mems.wf d.mems = true) : Mems.wf (Dev.mowFaultAt d die e).mems = true := by
  unfold Dev.mowFaultAt
  try dsimp only
  repeat' split
  all_goals simp (maxDischargeDepth := 9) [hd]
@[simp] theorem Dev.spanNote_mems (d : Dev) (to_ : Place) (bed : Nat) (s : MemSpan) (i n : Nat) : (Dev.spanNote d to_ bed s i n).mems = d.mems := by
  unfold Dev.spanNote
  try dsimp only
  repeat' split
  all_goals simp
@[simp] theorem Dev.spanWrite_memsWf (d : Dev) (s : MemSpan) (i : Nat) (bs : List Byte) (hd : Mems.wf d.mems = true) : Mems.wf (Dev.spanWrite d s i bs).mems = true := by
  unfold Dev.spanWrite
  try dsimp only
  repeat' split
  all_goals simp (maxDischargeDepth := 9) [hd]
@[simp] theorem Dev.enterSkew_mems (d : Dev) (die : Nat) (x : MowerRun) (tag reason step : Nat) : (Dev.enterSkew d die x tag reason step).mems = d.mems := by
  unfold Dev.enterSkew
  try dsimp only
  repeat' split
  all_goals simp
@[simp] theorem Dev.refuseUpdate_memsWf (d : Dev) (die : Nat) (x : MowerRun) (code : Nat) (hd : Mems.wf d.mems = true) : Mems.wf (Dev.refuseUpdate d die x code).mems = true := by
  unfold Dev.refuseUpdate
  try dsimp only
  repeat' split
  all_goals simp (maxDischargeDepth := 9) [hd]
@[simp] theorem Dev.startUpdate_memsWf (d : Dev) (die : Nat) (x : MowerRun) (bc : BedCfg) (c : MowCmd) (hd : Mems.wf d.mems = true) : Mems.wf (Dev.startUpdate d die x bc c).mems = true := by
  unfold Dev.startUpdate
  try dsimp only
  repeat' split
  all_goals simp (maxDischargeDepth := 9) [hd]
@[simp] theorem Dev.writeMasters_memsWf (d : Dev) (bc : BedCfg) (die : Nat) (c : MowCmd) (k : Nat) (vs : List Val) (hd : Mems.wf d.mems = true) : Mems.wf (Dev.writeMasters d bc die c k vs).1.mems = true := by
  unfold Dev.writeMasters
  try dsimp only
  repeat' split
  all_goals simp (maxDischargeDepth := 9) [hd]
@[simp] theorem Dev.writeCopy_memsWf (d : Dev) (bc : BedCfg) (die : Nat) (c : MowCmd) (k : Nat) (hd : Mems.wf d.mems = true) : Mems.wf (Dev.writeCopy d bc die c k).1.mems = true := by
  unfold Dev.writeCopy
  try dsimp only
  repeat' split
  all_goals simp (maxDischargeDepth := 9) [hd]
@[simp] theorem Dev.noteBlock_mems (d : Dev) (die bed : Nat) (c : MowCmd) (k : Nat) : (Dev.noteBlock d die bed c k).mems = d.mems := by
  unfold Dev.noteBlock
  try dsimp only
  repeat' split
  all_goals simp
@[simp] theorem Dev.mowBlock_memsWf (d : Dev) (bc : BedCfg) (die : Nat) (c : MowCmd) (k : Nat) (hd : Mems.wf d.mems = true) : Mems.wf (Dev.mowBlock d bc die c k).mems = true := by
  unfold Dev.mowBlock
  try dsimp only
  repeat' split
  all_goals simp (maxDischargeDepth := 9) [hd]
@[simp] theorem Dev.mowBlocks_memsWf (bc : BedCfg) (die : Nat) (c : MowCmd) (n : Nat) (d : Dev) (hd : Mems.wf d.mems = true) :
    Mems.wf (Dev.mowBlocks bc die c n d).mems = true := by
  induction n generalizing d with
  | zero => exact hd
  | succ n ih =>
    unfold Dev.mowBlocks
    cases (d.mower die).run with
    | none => exact hd
    | some x =>
      dsimp only
      split
      · exact hd
      · split
        · simp (maxDischargeDepth := 9) [hd]
        · exact ih _ (by simp (maxDischargeDepth := 9) [hd])
@[simp] theorem Dev.mowGo_memsWf (d : Dev) (die op : Nat) (f : Dev → MowerRun → BedCfg → MowCmd → Dev)
    (hf : ∀ d x b c, Mems.wf d.mems = true → Mems.wf (f d x b c).mems = true) (hd : Mems.wf d.mems = true) :
    Mems.wf (Dev.mowGo d die op f).mems = true := by
  unfold Dev.mowGo
  cases (d.mower die).run with
  | none => exact hd
  | some x =>
    dsimp only
    cases d.bed x.bed with
    | none => exact hd
    | some b =>
      dsimp only
      split
      · exact hd
      · split
        · exact hf _ _ _ _ hd
        · split
          · simp (maxDischargeDepth := 9) [hd]
          · exact hf _ _ _ _ (by simp (maxDischargeDepth := 9) [hd])
@[simp] theorem Dev.beginUpdate_memsWf (d : Dev) (die : Nat) (x : MowerRun) (bc : BedCfg) (c : MowCmd) (hd : Mems.wf d.mems = true) : Mems.wf (Dev.beginUpdate d die x bc c).mems = true := by
  unfold Dev.beginUpdate
  try dsimp only
  repeat' split
  all_goals simp (maxDischargeDepth := 9) [hd]
@[simp] theorem Dev.mowerNext_mems (d : Dev) (die : Nat) : (Dev.mowerNext d die).mems = d.mems := by
  unfold Dev.mowerNext
  try dsimp only
  repeat' split
  all_goals simp
@[simp] theorem Dev.normBlocks_memsWf (bc : BedCfg) (die bed : Nat) (c : MowCmd) (n k : Nat) (d : Dev) (a : Long)
    (hd : Mems.wf d.mems = true) : Mems.wf (Dev.normBlocks bc die bed c n k d a).1.mems = true := by
  induction n generalizing k d a with
  | zero => exact hd
  | succ n ih =>
    unfold Dev.normBlocks
    dsimp only
    split
    · simp [hd]
    · exact ih _ _ _ (by simp [hd])
@[simp] theorem Dev.adoptCmd_memsWf (d : Dev) (die : Nat) (hd : Mems.wf d.mems = true) : Mems.wf (Dev.adoptCmd d die).mems = true := by
  unfold Dev.adoptCmd
  try dsimp only
  repeat' split
  all_goals simp (maxDischargeDepth := 9) [hd]
@[simp] theorem Dev.discardCmd_mems (d : Dev) (die : Nat) : (Dev.discardCmd d die).mems = d.mems := by
  unfold Dev.discardCmd
  try dsimp only
  repeat' split
  all_goals simp
@[simp] theorem Dev.mowCtlWritten_memsWf (d : Dev) (die : Nat) (new cmd : Word) (hd : Mems.wf d.mems = true) : Mems.wf (Dev.mowCtlWritten d die new cmd).mems = true := by
  unfold Dev.mowCtlWritten
  try dsimp only
  repeat' split
  all_goals simp (maxDischargeDepth := 9) [hd]
@[simp] theorem Dev.countOutcome_mems (d : Dev) (die : Nat) (x : MowerRun) : (Dev.countOutcome d die x).mems = d.mems := by
  unfold Dev.countOutcome
  try dsimp only
  repeat' split
  all_goals simp
@[simp] theorem Dev.mowRetires_memsWf (d : Dev) (die : Nat) (x : MowerRun) (hd : Mems.wf d.mems = true) : Mems.wf (Dev.mowRetires d die x).mems = true := by
  unfold Dev.mowRetires
  try dsimp only
  repeat' split
  all_goals simp (maxDischargeDepth := 9) [hd]
@[simp] theorem Dev.mowMirrorWritten_mems (d : Dev) (die o : Nat) (new : Word) : (Dev.mowMirrorWritten d die o new).mems = d.mems := by
  unfold Dev.mowMirrorWritten
  try dsimp only
  repeat' split
  all_goals simp [foldl_mems, Dev.mems_ite]
@[simp] theorem Dev.takeMirrors_mems (d : Dev) : (Dev.takeMirrors d).mems = d.mems := by
  unfold Dev.takeMirrors
  try dsimp only
  repeat' split
  all_goals simp [foldl_mems, Dev.mems_ite]
@[simp] theorem Dev.mowStepWritten_mems (d : Dev) (die : Nat) (new : Word) : (Dev.mowStepWritten d die new).mems = d.mems := by
  unfold Dev.mowStepWritten
  try dsimp only
  repeat' split
  all_goals simp

/-! ### TrugOps -/

@[simp] theorem Dev.setTrug_mems (d : Dev) (i : Nat) (x : TrugInst) : (Dev.setTrug d i x).mems = d.mems := by
  unfold Dev.setTrug
  try dsimp only
  repeat' split
  all_goals simp
@[simp] theorem Dev.noteMix_mems (d : Dev) (m : Nat × Nat) : (Dev.noteMix d m).mems = d.mems := by
  unfold Dev.noteMix
  try dsimp only
  repeat' split
  all_goals simp

/-! ### Trug -/

@[simp] theorem Dev.sendTrug_mems (d : Dev) (dev : Nat) (p : TrugPkt) : (Dev.sendTrug d dev p).mems = d.mems := by
  unfold Dev.sendTrug
  try dsimp only
  repeat' split
  all_goals simp
@[simp] theorem Dev.deliverTrug_mems (d : Dev) (x : TrugInst) (ms : List Member) (self m : Nat) (ps : List TrugPkt) : (Dev.deliverTrug d x ms self m ps).1.mems = d.mems := by
  unfold Dev.deliverTrug
  try dsimp only
  repeat' split
  all_goals simp [foldl_mems, Dev.mems_ite]
@[simp] theorem Dev.sendContribs_mems (c : TrugCmd) (ms : List Member) (self : Nat) (src : List Byte) (ub : Nat) (os : List Nat)
    (d : Dev) (x : TrugInst) : (Dev.sendContribs c ms self src ub os d x).1.mems = d.mems := by
  induction os generalizing d x with
  | nil => rfl
  | cons o os ih => unfold Dev.sendContribs; dsimp only; rw [ih]; simp
@[simp] theorem Dev.sendNodeSums_mems (c : TrugCmd) (ms : List Member) (self : Nat) (os : List Nat)
    (d : Dev) (x : TrugInst) : (Dev.sendNodeSums c ms self os d x).1.mems = d.mems := by
  induction os generalizing d x with
  | nil => rfl
  | cons o os ih =>
    unfold Dev.sendNodeSums
    dsimp only
    split
    · exact ih _ _
    · rw [ih]; (repeat' split) <;> simp
@[simp] theorem Dev.drawOccasion_mems (d : Dev) (c : TrugCmd) (b : BedCfg) : (Dev.drawOccasion d c b).2.mems = d.mems := by
  unfold Dev.drawOccasion
  try dsimp only
  repeat' split
  all_goals simp
@[simp] theorem Dev.sendResults_mems (d : Dev) (b : BedCfg) (c : TrugCmd) (ms : List Member) (self : Nat) (x : TrugInst) : (Dev.sendResults d b c ms self x).1.mems = d.mems := by
  unfold Dev.sendResults
  try dsimp only
  repeat' split
  all_goals simp [foldl_mems, Dev.mems_ite]
@[simp] theorem Dev.unstage_mems (d : Dev) (bed l : Nat) (p : TrugPkt) : (Dev.unstage d bed l p).1.mems = d.mems := by
  unfold Dev.unstage
  try dsimp only
  repeat' split
  all_goals simp
@[simp] theorem Dev.unstageAll_memsWf (may : TrugPkt → Bool) (bed l : Nat) (ps : List TrugPkt) (d : Dev)
    (hd : Mems.wf d.mems = true) : Mems.wf (Dev.unstageAll may bed l ps d).1.mems = true := by
  induction ps generalizing d with
  | nil => exact hd
  | cons p ps ih =>
    unfold Dev.unstageAll
    dsimp only
    exact ih _ (by split <;> simp [hd])
@[simp] theorem Dev.unhold_memsWf (d : Dev) (x : TrugInst) (bed : Nat) (ms : List Member) (self : Nat)
    (hd : Mems.wf d.mems = true) : Mems.wf (Dev.unhold d x bed ms self).1.mems = true := by
  unfold Dev.unhold
  simp [hd]
@[simp] theorem Dev.trugProgress_memsWf (d : Dev) (i : Nat) (hd : Mems.wf d.mems = true) :
    Mems.wf (Dev.trugProgress d i).mems = true := by
  unfold Dev.trugProgress
  cases d.trugs[i]? with
  | none => exact hd
  | some x =>
    dsimp only
    cases x.run with
    | none => exact hd
    | some r =>
      dsimp only
      cases d.bed r.bed with
      | none => exact hd
      | some b =>
        dsimp only
        split
        · exact hd
        · split <;> simp (maxDischargeDepth := 9) [hd]
@[simp] theorem Dev.trugFault_memsWf (d : Dev) (r : TrugRun) (cause : Nat) (hd : Mems.wf d.mems = true) : Mems.wf (Dev.trugFault d r cause).mems = true := by
  unfold Dev.trugFault
  try dsimp only
  repeat' split
  all_goals simp (maxDischargeDepth := 9) [hd]
@[simp] theorem Dev.trugRetire_memsWf (d : Dev) (i : Nat) (x : TrugInst) (r : TrugRun) (bar : Barrow) (keep : Bool) (hd : Mems.wf d.mems = true) : Mems.wf (Dev.trugRetire d i x r bar keep).mems = true := by
  unfold Dev.trugRetire
  try dsimp only
  repeat' split
  all_goals simp (maxDischargeDepth := 9) [hd]
@[simp] theorem Dev.trugPoison_memsWf (d : Dev) (x : TrugInst) (r : TrugRun) (cause len : Nat) (keep : Bool) (hd : Mems.wf d.mems = true) : Mems.wf (Dev.trugPoison d x r cause len keep).mems = true := by
  unfold Dev.trugPoison
  try dsimp only
  repeat' split
  all_goals simp (maxDischargeDepth := 9) [hd]
@[simp] theorem Dev.closeTrug_memsWf (d : Dev) (i : Nat) (x : TrugInst) (r : TrugRun) (b : BedCfg) (hd : Mems.wf d.mems = true) :
    Mems.wf (Dev.closeTrug d i x r b).mems = true := by
  unfold Dev.closeTrug
  try dsimp -zeta only
  extract_lets c ms self plan keep results cause tag own mix d0 d1 o y dst d2
  cases r.poison with
  | some e => simp (maxDischargeDepth := 9) [hd]
  | none =>
    dsimp only
    clear_value mix
    have h0 : Mems.wf d0.mems = true := by simp only [d0]; split <;> simp (maxDischargeDepth := 9) [hd]
    have ho : Mems.wf o.2.mems = true := by simp only [o]; split <;> simp (maxDischargeDepth := 9) [h0]
    have h2 : Mems.wf d2.mems = true := by
      simp only [d2]
      exact Dev.spanWrite_memsWf _ _ _ _ (foldl_memsWf (fun d a hd => by simp (maxDischargeDepth := 9) [hd]) _ _ ho)
    split
    · exact hd
    · split
      · apply Dev.trugPoison_memsWf
        split <;> simp (maxDischargeDepth := 9) [d1, h0]
      · split
        · simp (maxDischargeDepth := 9) [h0]
        · split
          · simp (maxDischargeDepth := 9) [ho]
          · split <;> simp (maxDischargeDepth := 9) [h2]
@[simp] theorem Dev.purgeGroup_mems (d : Dev) (g : Nat) : (Dev.purgeGroup d g).mems = d.mems := by
  unfold Dev.purgeGroup
  try dsimp only
  repeat' split
  all_goals simp
@[simp] theorem Dev.trugCtlWritten_mems (d : Dev) (new cmd : Word) : (Dev.trugCtlWritten d new cmd).mems = d.mems := by
  unfold Dev.trugCtlWritten
  try dsimp only
  repeat' split
  all_goals simp
@[simp] theorem Dev.grpCtlWritten_mems (d : Dev) (g : Nat) (new : Word) : (Dev.grpCtlWritten d g new).mems = d.mems := by
  unfold Dev.grpCtlWritten
  try dsimp only
  repeat' split
  all_goals simp
@[simp] theorem Dev.grpWritten_mems (d : Dev) (g o : Nat) (new : Word) : (Dev.grpWritten d g o new).mems = d.mems := by
  unfold Dev.grpWritten
  try dsimp only
  repeat' split
  all_goals simp
@[simp] theorem Dev.stageSizeWritten_mems (d : Dev) (new : Word) : (Dev.stageSizeWritten d new).mems = d.mems := by
  unfold Dev.stageSizeWritten
  try dsimp only
  repeat' split
  all_goals simp

/-! ### Rill -/

@[simp] theorem Dev.refuseRill_memsWf (d : Dev) (die e bed seq code : Nat) (hd : Mems.wf d.mems = true) : Mems.wf (Dev.refuseRill d die e bed seq code).mems = true := by
  unfold Dev.refuseRill
  try dsimp only
  repeat' split
  all_goals simp (maxDischargeDepth := 9) [hd]
@[simp] theorem Dev.rillRuns_mems (d : Dev) (die e : Nat) (x : RillRun) : (Dev.rillRuns d die e x).mems = d.mems := by
  unfold Dev.rillRuns
  try dsimp only
  repeat' split
  all_goals simp
@[simp] theorem Dev.rillEmpty_memsWf (d : Dev) (die e : Nat) (r : RillDesc) (hd : Mems.wf d.mems = true) : Mems.wf (Dev.rillEmpty d die e r).mems = true := by
  unfold Dev.rillEmpty
  try dsimp only
  repeat' split
  all_goals simp (maxDischargeDepth := 9) [hd]
@[simp] theorem Dev.enterFaultWait_mems (d : Dev) (die e : Nat) (x : RillRun) (row i0 addr : Nat) (write host : Bool) : (Dev.enterFaultWait d die e x row i0 addr write host).mems = d.mems := by
  unfold Dev.enterFaultWait
  try dsimp only
  repeat' split
  all_goals simp
@[simp] theorem Dev.rillPartial_memsWf (d : Dev) (die e : Nat) (x : RillRun) (until_ : Option (Nat × Nat)) (hd : Mems.wf d.mems = true) :
    Mems.wf (Dev.rillPartial d die e x until_).1.mems = true := by
  unfold Dev.rillPartial
  split <;> simp [hd]
@[simp] theorem Dev.rillResumes_memsWf (d : Dev) (die e : Nat) (hd : Mems.wf d.mems = true) : Mems.wf (Dev.rillResumes d die e).mems = true := by
  unfold Dev.rillResumes
  try dsimp only
  repeat' split
  all_goals simp (maxDischargeDepth := 9) [hd]
@[simp] theorem Dev.rillPageResponse_memsWf (d : Dev) (die e : Nat) (success : Bool) (hd : Mems.wf d.mems = true) : Mems.wf (Dev.rillPageResponse d die e success).mems = true := by
  unfold Dev.rillPageResponse
  try dsimp only
  repeat' split
  all_goals simp (maxDischargeDepth := 9) [hd]
@[simp] theorem Dev.rillResumeCmd_memsWf (d : Dev) (die e : Nat) (hd : Mems.wf d.mems = true) : Mems.wf (Dev.rillResumeCmd d die e).mems = true := by
  unfold Dev.rillResumeCmd
  try dsimp only
  repeat' split
  all_goals simp (maxDischargeDepth := 9) [hd]
@[simp] theorem Dev.rillFailCmd_memsWf (d : Dev) (die e : Nat) (hd : Mems.wf d.mems = true) : Mems.wf (Dev.rillFailCmd d die e).mems = true := by
  unfold Dev.rillFailCmd
  try dsimp only
  repeat' split
  all_goals simp (maxDischargeDepth := 9) [hd]
@[simp] theorem Dev.rillCancelCmd_memsWf (d : Dev) (die e : Nat) (hd : Mems.wf d.mems = true) : Mems.wf (Dev.rillCancelCmd d die e).mems = true := by
  unfold Dev.rillCancelCmd
  try dsimp only
  repeat' split
  all_goals simp (maxDischargeDepth := 9) [hd]
@[simp] theorem Dev.rillInval_mems (d : Dev) (die e : Nat) : (Dev.rillInval d die e).mems = d.mems := by
  unfold Dev.rillInval
  try dsimp only
  repeat' split
  all_goals simp
@[simp] theorem Dev.rillCtlWritten_memsWf (d : Dev) (die e : Nat) (new cmd : Word) (hd : Mems.wf d.mems = true) : Mems.wf (Dev.rillCtlWritten d die e new cmd).mems = true := by
  unfold Dev.rillCtlWritten
  try dsimp only
  repeat' split
  all_goals simp (maxDischargeDepth := 9) [hd]

/-! ### Barrow -/

@[simp] theorem Dev.noteClaim_mems (d : Dev) (a : Agent) (q : Nat) (c : ClaimedSlot) : (Dev.noteClaim d a q c).mems = d.mems := by
  unfold Dev.noteClaim
  try dsimp only
  repeat' split
  all_goals simp
@[simp] theorem Dev.goOn_memsWf (d : Dev) (a : Agent) (hd : Mems.wf d.mems = true) : Mems.wf (Dev.goOn d a).mems = true := by
  unfold Dev.goOn
  split
  · split <;> simp [hd]
  · exact hd
@[simp] theorem Dev.noteTaken_memsWf (d : Dev) (a : Agent) (q : Nat) (k : TakenBarrow) (cause : Option Nat) (hd : Mems.wf d.mems = true) : Mems.wf (Dev.noteTaken d a q k cause).mems = true := by
  unfold Dev.noteTaken
  try dsimp only
  repeat' split
  all_goals simp (maxDischargeDepth := 9) [hd]

end Machine
end Sys2Proof
end

