-- ==== Sys2Proof/Laws/MemoryHost.lean ====
section
/-! SUPPORT. What each operation does to what is stored under the hedge code (the loader, requests to memories, the shed sequencers and the host interface): `f_mems` says that `f`
leaves all of it as it was, `f_memsWf` that `f` keeps its canonical form. -/
namespace Sys2Proof
namespace Machine

set_option linter.unusedSimpArgs false
set_option linter.unusedVariables false
set_option linter.unusedTactic false
set_option linter.unreachableTactic false

/-! ### Loader -/

@[simp] theorem Dev.loaderErr_mems (d : Dev) (e : LErr) : (Dev.loaderErr d e).mems = d.mems := by
  unfold Dev.loaderErr
  try dsimp only
  repeat' split
  all_goals simp
@[simp] theorem Dev.loaderDone_mems (d : Dev) : (Dev.loaderDone d).mems = d.mems := by
  unfold Dev.loaderDone
  try dsimp only
  repeat' split
  all_goals simp
@[simp] theorem Dev.setLstate_mems (d : Dev) (n : Nat) : (Dev.setLstate d n).mems = d.mems := by
  unfold Dev.setLstate
  try dsimp only
  repeat' split
  all_goals simp
@[simp] theorem Dev.loaderIdle_mems (d : Dev) : (Dev.loaderIdle d).mems = d.mems := by
  unfold Dev.loaderIdle
  try dsimp only
  repeat' split
  all_goals simp
@[simp] theorem Dev.setFurs_mems (d : Dev) (c : BedCfg) : (Dev.setFurs d c).mems = d.mems := by
  unfold Dev.setFurs
  try dsimp only
  repeat' split
  all_goals (try simp)
  all_goals (rw [foldl_mems (fun d a => by (try dsimp only); (repeat' split) <;> simp)]; try simp)
@[simp] theorem Dev.undefineFurs_mems (d : Dev) (c : BedCfg) : (Dev.undefineFurs d c).mems = d.mems := by
  unfold Dev.undefineFurs
  dsimp only
  rw [foldl_mems, Dev.takeFree_mems]
  intro d L
  split
  · rw [foldl_mems]
    intro d f
    split <;> simp
  · rfl
@[simp] theorem Dev.undefineTrays_mems (d : Dev) (old new : Nat) : (Dev.undefineTrays d old new).mems = d.mems := by
  unfold Dev.undefineTrays
  try dsimp only
  repeat' split
  all_goals simp [foldl_mems, Dev.mems_ite]
@[simp] theorem Dev.clearPlots_mems (d : Dev) (Ls : List Nat) : (Dev.clearPlots d Ls).mems = d.mems := by
  unfold Dev.clearPlots
  try dsimp only
  repeat' split
  all_goals (try simp)
  all_goals (rw [foldl_mems (fun d a => by (try dsimp only); (repeat' split) <;> simp)]; try simp)
@[simp] theorem Dev.setClken_mems (d : Dev) (o w : Nat) : (Dev.setClken d o w).mems = d.mems := by
  unfold Dev.setClken
  try dsimp only
  repeat' split
  all_goals simp
@[simp] theorem Dev.writeClken_mems (d : Dev) : (Dev.writeClken d).mems = d.mems := by
  unfold Dev.writeClken
  try dsimp only
  repeat' split
  all_goals simp [foldl_mems, Dev.mems_ite]
@[simp] theorem Dev.setMeas5_mems (d : Dev) (v : Nat) : (Dev.setMeas5 d v).mems = d.mems := by
  unfold Dev.setMeas5
  try dsimp only
  repeat' split
  all_goals simp [foldl_mems, Dev.mems_ite]
@[simp] theorem Dev.noteBeds_mems (d : Dev) : (Dev.noteBeds d).mems = d.mems := by
  unfold Dev.noteBeds
  try dsimp only
  repeat' split
  all_goals simp
@[simp] theorem Dev.applyFull_memsWf (d0 : Dev) (h : Header) (bs : List (Nat × BedCfg)) (dig : Nat) (hd : Mems.wf d0.mems = true) :
    Mems.wf (Dev.applyFull d0 h bs dig).mems = true := by
  unfold Dev.applyFull
  try dsimp -zeta only
  extract_lets d d1 d2 d3 d4
  have h0 : Mems.wf d.mems = true := by simp [d, hd]
  clear_value d
  have h1 : Mems.wf d1.mems = true := by simp [d1, h0]
  clear_value d1
  have h2 : Mems.wf d2.mems = true := foldl_memsWf (fun d a hd => by simp (maxDischargeDepth := 9) [hd]) _ _ h1
  clear_value d2
  simp (maxDischargeDepth := 9) [d4, d3, h2]
@[simp] theorem Dev.loaderWrites_memsWf (d : Dev) (dies : List Nat) (f : Dev → Dev)
    (hf : ∀ d, Mems.wf d.mems = true → Mems.wf (f d).mems = true) (hd : Mems.wf d.mems = true) :
    Mems.wf (Dev.loaderWrites d dies f).mems = true := by
  unfold Dev.loaderWrites
  dsimp only
  split
  · exact hf _ (by simp [hd])
  · exact foldl_memsWf (fun d a hd => by simp (maxDischargeDepth := 9) [hd]) _ _ hd
@[simp] theorem Dev.endItems_memsWf (d : Dev) (b : Nat) (hd : Mems.wf d.mems = true) : Mems.wf (Dev.endItems d b).mems = true := by
  unfold Dev.endItems
  try dsimp only
  repeat' split
  all_goals simp (maxDischargeDepth := 9) [hd]
@[simp] theorem Dev.beginConfig_memsWf (d : Dev) (b : Nat) (hd : Mems.wf d.mems = true) : Mems.wf (Dev.beginConfig d b).mems = true := by
  unfold Dev.beginConfig
  try dsimp only
  repeat' split
  all_goals simp (maxDischargeDepth := 9) [hd]
@[simp] theorem Dev.configBed_memsWf (d0 : Dev) (b : Nat) (hd : Mems.wf d0.mems = true) : Mems.wf (Dev.configBed d0 b).mems = true := by
  unfold Dev.configBed
  try dsimp -zeta only
  extract_lets d old sieves kept d1a d1 d2 d3 resumes d4
  have h : Mems.wf d.mems = true := by simp [d, hd]
  clear_value d
  have h1 : Mems.wf d1.mems = true := by simp (maxDischargeDepth := 9) [d1, d1a, h]
  clear_value d1
  have h2 : Mems.wf d2.mems = true := by simp only [d2]; split <;> simp (maxDischargeDepth := 9) [h1]
  clear_value d2
  have h4 : Mems.wf d4.mems = true := by simp (maxDischargeDepth := 9) [d4, d3, h2]
  simp (maxDischargeDepth := 9) [h4]
@[simp] theorem Dev.startLoad_mems (d : Dev) : (Dev.startLoad d).mems = d.mems := by
  unfold Dev.startLoad
  try dsimp only
  repeat' split
  all_goals simp
@[simp] theorem Dev.startReplant_mems (d : Dev) (b : Nat) : (Dev.startReplant d b).mems = d.mems := by
  unfold Dev.startReplant
  try dsimp only
  repeat' split
  all_goals simp
@[simp] theorem Dev.abandonLoad_mems (d : Dev) (code : Nat) : (Dev.abandonLoad d code).mems = d.mems := by
  unfold Dev.abandonLoad
  try dsimp only
  repeat' split
  all_goals simp
@[simp] theorem Dev.trellisCtlWritten_mems (d : Dev) (new cmd : Word) : (Dev.trellisCtlWritten d new cmd).mems = d.mems := by
  unfold Dev.trellisCtlWritten
  try dsimp only
  repeat' split
  all_goals simp

/-! ### Memory -/

@[simp] theorem Dev.dropHeader_mems (d : Dev) (die : Nat) : (Dev.dropHeader d die).mems = d.mems := by
  unfold Dev.dropHeader
  try dsimp only
  repeat' split
  all_goals simp
@[simp] theorem Dev.loseHeader_mems (d : Dev) (die : Nat) (a : Option Agent) : (Dev.loseHeader d die a).mems = d.mems := by
  unfold Dev.loseHeader
  try dsimp only
  repeat' split
  all_goals simp
@[simp] theorem Dev.latticeUpset_mems (d : Dev) (die : Nat) (u : Upset) : (Dev.latticeUpset d die u).mems = d.mems := by
  unfold Dev.latticeUpset
  try dsimp only
  repeat' split
  all_goals simp
@[simp] theorem Dev.noteCrossings_mems (d : Dev) (r : MemReq) : (Dev.noteCrossings d r).mems = d.mems := by
  unfold Dev.noteCrossings
  try dsimp only
  repeat' split
  all_goals simp [foldl_mems, Dev.mems_ite]
@[simp] theorem Dev.rillHitsStop_memsWf (d : Dev) (die e : Nat) (hd : Mems.wf d.mems = true) :
    Mems.wf (Dev.rillHitsStop d die e).mems = true := by
  unfold Dev.rillHitsStop
  cases (d.rill die e).run with
  | none => exact hd
  | some x =>
    have h1 : Mems.wf (d.rillPartial die e x none).1.mems = true := by simp [hd]
    dsimp only
    generalize d.rillPartial die e x none = w at h1 ⊢
    split
    · exact hd
    · split
      · simp (maxDischargeDepth := 9) [h1]
      · exact hd
@[simp] theorem Dev.keeperServed_memsWf (d : Dev) (m : Mem) (at_ : Nat) (r : MemReq) (hd : Mems.wf d.mems = true) : Mems.wf (Dev.keeperServed d m at_ r).mems = true := by
  unfold Dev.keeperServed
  try dsimp only
  repeat' split
  all_goals simp (maxDischargeDepth := 9) [hd]
@[simp] theorem Dev.engineServed_memsWf (d : Dev) (a : Agent) (addr : Nat) (fault : Option Nat) (hd : Mems.wf d.mems = true) : Mems.wf (Dev.engineServed d a addr fault).mems = true := by
  unfold Dev.engineServed
  try dsimp only
  repeat' split
  all_goals simp (maxDischargeDepth := 9) [hd]
@[simp] theorem Dev.serve_memsWf (d : Dev) (m : Mem) (die at_ : Nat) (fault : Option Nat) (absent : Bool) (r : MemReq) (hd : Mems.wf d.mems = true) : Mems.wf (Dev.serve d m die at_ fault absent r).mems = true := by
  unfold Dev.serve
  try dsimp only
  repeat' split
  all_goals simp (maxDischargeDepth := 9) [hd]

/-! ### Bench -/

@[simp] theorem Dev.grant_memsWf (d : Dev) (a : BenchAccess) (at_ : Nat) (hd : Mems.wf d.mems = true) : Mems.wf (Dev.grant d a at_).mems = true := by
  unfold Dev.grant
  try dsimp only
  repeat' split
  all_goals simp (maxDischargeDepth := 9) [hd]
@[simp] theorem Dev.latticeRequest_memsWf (d0 : Dev) (a : BenchAccess) (hd : Mems.wf d0.mems = true) :
    Mems.wf (Dev.latticeRequest d0 a).mems = true := by
  unfold Dev.latticeRequest
  dsimp only
  split
  · simp (maxDischargeDepth := 9) [hd]
  · split
    · simp (maxDischargeDepth := 9) [hd]
    · split <;> simp (maxDischargeDepth := 9) [hd]
@[simp] theorem Dev.rewriteWord_memsWf (d : Dev) (k : Nat) (hd : Mems.wf d.mems = true) : Mems.wf (Dev.rewriteWord d k).mems = true := by
  unfold Dev.rewriteWord
  try dsimp only
  repeat' split
  all_goals simp (maxDischargeDepth := 9) [hd]
@[simp] theorem Dev.furReset_mems (d : Dev) (die p f : Nat) : (Dev.furReset d die p f).mems = d.mems := by
  unfold Dev.furReset
  try dsimp only
  repeat' split
  all_goals simp
@[simp] theorem Dev.furCtlWritten_mems (d : Dev) (die p f : Nat) (new cmd : Word) : (Dev.furCtlWritten d die p f new cmd).mems = d.mems := by
  unfold Dev.furCtlWritten
  try dsimp only
  repeat' split
  all_goals simp
@[simp] theorem Dev.furCfgWritten_mems (d : Dev) (die p f : Nat) (new : Word) : (Dev.furCfgWritten d die p f new).mems = d.mems := by
  unfold Dev.furCfgWritten
  try dsimp only
  repeat' split
  all_goals simp

/-! ### StartOps -/

@[simp] theorem Dev.forceClken_mems (d : Dev) (o w : Nat) : (Dev.forceClken d o w).mems = d.mems := by
  unfold Dev.forceClken
  try dsimp only
  repeat' split
  all_goals simp
@[simp] theorem Dev.trainStack_mems (d : Dev) (s : Nat) : (Dev.trainStack d s).mems = d.mems := by
  unfold Dev.trainStack
  try dsimp only
  repeat' split
  all_goals simp
@[simp] theorem Dev.beginTraining_mems (d : Dev) : (Dev.beginTraining d).mems = d.mems := by
  unfold Dev.beginTraining
  try dsimp only
  repeat' split
  all_goals simp [foldl_mems, Dev.mems_ite]
@[simp] theorem Dev.endFirmwareStep_mems (d : Dev) (l : Nat) : (Dev.endFirmwareStep d l).mems = d.mems := by
  unfold Dev.endFirmwareStep
  try dsimp only
  repeat' split
  all_goals simp
@[simp] theorem Dev.endFirmwareSteps_mems (d : Dev) : (Dev.endFirmwareSteps d).mems = d.mems := by
  unfold Dev.endFirmwareSteps
  try dsimp only
  repeat' split
  all_goals simp
@[simp] theorem Dev.stopLodge_mems (d : Dev) (l c : Nat) : (Dev.stopLodge d l c).mems = d.mems := by
  unfold Dev.stopLodge
  try dsimp only
  repeat' split
  all_goals simp

/-! ### PowerOps -/

@[simp] theorem Dev.powerOff_memsWf (d : Dev) : Mems.wf (Dev.powerOff d).mems = true := by
  simp only [Dev.powerOff, Dev.setPower_mems]; rfl
@[simp] theorem Dev.emergencyStop_memsWf (d : Dev) (c : Nat) (hd : Mems.wf d.mems = true) : Mems.wf (Dev.emergencyStop d c).mems = true := by
  unfold Dev.emergencyStop
  try dsimp only
  repeat' split
  all_goals simp (maxDischargeDepth := 9) [hd]
@[simp] theorem Dev.enterDormant_mems (d : Dev) : (Dev.enterDormant d).mems = d.mems := by
  unfold Dev.enterDormant
  try dsimp only
  repeat' split
  all_goals simp [foldl_mems, Dev.mems_ite]
@[simp] theorem Dev.powerCommand_mems (d : Dev) (cmd : Nat) : (Dev.powerCommand d cmd).mems = d.mems := by
  unfold Dev.powerCommand
  try dsimp only
  repeat' split
  all_goals simp
@[simp] theorem Dev.powerCtlWritten_mems (d : Dev) (new cmd : Word) : (Dev.powerCtlWritten d new cmd).mems = d.mems := by
  unfold Dev.powerCtlWritten
  try dsimp only
  repeat' split
  all_goals simp

/-! ### Shed -/

@[simp] theorem Dev.bedCtlWritten_mems (d : Dev) (die s : Nat) (new : Word) : (Dev.bedCtlWritten d die s new).mems = d.mems := by
  unfold Dev.bedCtlWritten
  try dsimp only
  repeat' split
  all_goals simp
@[simp] theorem Dev.bedStsWritten_mems (d : Dev) (die s : Nat) (clear : Word) : (Dev.bedStsWritten d die s clear).mems = d.mems := by
  unfold Dev.bedStsWritten
  try dsimp only
  repeat' split
  all_goals simp

/-! ### HostOps -/

@[simp] theorem Dev.setPcie_mems (d : Dev) (p : Nat) (x : PciePort) : (Dev.setPcie d p x).mems = d.mems := by
  unfold Dev.setPcie
  try dsimp only
  repeat' split
  all_goals simp
@[simp] theorem Dev.sendPending_mems (d : Dev) (f : Nat) : (Dev.sendPending d f).mems = d.mems := by
  unfold Dev.sendPending
  try dsimp only
  repeat' split
  all_goals simp
@[simp] theorem Dev.msixWritten_mems (d : Dev) (f v w : Nat) (x : Word) : (Dev.msixWritten d f v w x).mems = d.mems := by
  unfold Dev.msixWritten
  try dsimp only
  repeat' split
  all_goals simp
@[simp] theorem Dev.tableWrite_mems (d : Dev) (f o : Nat) (x : Word) : (Dev.tableWrite d f o x).mems = d.mems := by
  unfold Dev.tableWrite
  try dsimp only
  repeat' split
  all_goals simp
@[simp] theorem Dev.setQword_mems (d : Dev) (src : Source) (o : Nat) (w : Word) : (Dev.setQword d src o w).mems = d.mems := by
  unfold Dev.setQword
  try dsimp only
  repeat' split
  all_goals simp
@[simp] theorem Dev.setQsts_mems (d : Dev) (src : Source) (f : Fld) (v : Nat) : (Dev.setQsts d src f v).mems = d.mems := by
  unfold Dev.setQsts
  try dsimp only
  repeat' split
  all_goals simp
@[simp] theorem Dev.rejectCtx_mems (d : Dev) (src : Source) (cause : Nat) : (Dev.rejectCtx d src cause).mems = d.mems := by
  unfold Dev.rejectCtx
  try dsimp only
  repeat' split
  all_goals simp
@[simp] theorem Dev.qctxRow_memsWf (d : Dev) (src : Source) (f : Dev → Dev)
    (hf : ∀ d, Mems.wf d.mems = true → Mems.wf (f d).mems = true) (hd : Mems.wf d.mems = true) :
    Mems.wf (Dev.qctxRow d src f).mems = true := by
  unfold Dev.qctxRow
  split
  · split <;> simp [hd]
  · exact Dev.rowWrite_memsWf _ _ _ _ _ hf hd
@[simp] theorem Dev.qctxReadCmd_mems (d : Dev) (src : Source) : (Dev.qctxReadCmd d src).mems = d.mems := by
  unfold Dev.qctxReadCmd
  try dsimp only
  repeat' split
  all_goals simp [foldl_mems, Dev.mems_ite]
@[simp] theorem Dev.qctxWriteCmd_mems (d : Dev) (src : Source) : (Dev.qctxWriteCmd d src).mems = d.mems := by
  unfold Dev.qctxWriteCmd
  try dsimp only
  repeat' split
  all_goals simp
@[simp] theorem Dev.zeroQueue_mems (d : Dev) (q : Nat) : (Dev.zeroQueue d q).mems = d.mems := by
  unfold Dev.zeroQueue
  try dsimp only
  repeat' split
  all_goals simp
@[simp] theorem Dev.qctxResetCmd_mems (d : Dev) (src : Source) : (Dev.qctxResetCmd d src).mems = d.mems := by
  unfold Dev.qctxResetCmd
  try dsimp only
  repeat' split
  all_goals simp
@[simp] theorem Dev.setHostCmd_mems (d : Dev) (i : Nat) (c : HostCmd) : (Dev.setHostCmd d i c).mems = d.mems := by
  unfold Dev.setHostCmd
  try dsimp only
  repeat' split
  all_goals simp
@[simp] theorem Dev.endHostCmd_mems (d : Dev) (i : Nat) (c : HostCmd) (status result : Nat) : (Dev.endHostCmd d i c status result).mems = d.mems := by
  unfold Dev.endHostCmd
  try dsimp only
  repeat' split
  all_goals simp
@[simp] theorem Dev.raiseQueue_mems (d : Dev) (q : Nat) : (Dev.raiseQueue d q).mems = d.mems := by
  unfold Dev.raiseQueue
  try dsimp only
  repeat' split
  all_goals simp
@[simp] theorem Dev.hostQueueError_mems (d : Dev) (q cause : Nat) : (Dev.hostQueueError d q cause).mems = d.mems := by
  unfold Dev.hostQueueError
  try dsimp only
  repeat' split
  all_goals simp
@[simp] theorem Dev.completeCmd_mems (d : Dev) (i : Nat) (c : HostCmd) : (Dev.completeCmd d i c).mems = d.mems := by
  unfold Dev.completeCmd
  try dsimp only
  repeat' split
  all_goals simp
@[simp] theorem Dev.completion_mems (d : Dev) (i : Nat) (c : HostCmd) : (Dev.completion d i c).mems = d.mems := by
  unfold Dev.completion
  try dsimp only
  repeat' split
  all_goals simp
@[simp] theorem Dev.abortAll_mems (d : Dev) (q : Nat) : (Dev.abortAll d q).mems = d.mems := by
  unfold Dev.abortAll
  try dsimp only
  repeat' split
  all_goals simp
@[simp] theorem Dev.qctxAbortCmd_mems (d : Dev) (src : Source) : (Dev.qctxAbortCmd d src).mems = d.mems := by
  unfold Dev.qctxAbortCmd
  try dsimp only
  repeat' split
  all_goals simp
@[simp] theorem Dev.qctxCmdWritten_mems (d : Dev) (src : Source) (cmd : Nat) : (Dev.qctxCmdWritten d src cmd).mems = d.mems := by
  unfold Dev.qctxCmdWritten
  try dsimp only
  repeat' split
  all_goals simp
@[simp] theorem Dev.bedVecWritten_mems (d : Dev) (bed : Nat) (new : Word) : (Dev.bedVecWritten d bed new).mems = d.mems := by
  unfold Dev.bedVecWritten
  try dsimp only
  repeat' split
  all_goals simp
@[simp] theorem Dev.vfVecWritten_mems (d : Dev) (p : Nat) (new : Word) : (Dev.vfVecWritten d p new).mems = d.mems := by
  unfold Dev.vfVecWritten
  try dsimp only
  repeat' split
  all_goals simp
@[simp] theorem Dev.endQueue_mems (d : Dev) (q : Nat) : (Dev.endQueue d q).mems = d.mems := by
  unfold Dev.endQueue
  try dsimp only
  repeat' split
  all_goals (try simp)
  all_goals (rw [foldl_mems (fun d a => by (try dsimp only); (repeat' split) <;> simp)]; try simp)
@[simp] theorem Dev.resetFunction_mems (d : Dev) (f : Nat) : (Dev.resetFunction d f).mems = d.mems := by
  unfold Dev.resetFunction
  try dsimp only
  repeat' split
  all_goals simp [foldl_mems, Dev.mems_ite]
@[simp] theorem Dev.clearVfs_mems (d : Dev) (p : Nat) : (Dev.clearVfs d p).mems = d.mems := by
  unfold Dev.clearVfs
  try dsimp only
  repeat' split
  all_goals simp [foldl_mems, Dev.mems_ite]
@[simp] theorem Dev.resetPort_mems (d : Dev) (p : Nat) : (Dev.resetPort d p).mems = d.mems := by
  unfold Dev.resetPort
  try dsimp only
  repeat' split
  all_goals simp

/-! ### Host -/

@[simp] theorem Dev.tableAccess_mems (d : Dev) (p o : Nat) (op : MemOp) : (Dev.tableAccess d p o op).mems = d.mems := by
  unfold Dev.tableAccess
  try dsimp only
  repeat' split
  all_goals simp [foldl_mems, Dev.mems_ite]
@[simp] theorem Dev.bar4_memsWf (d : Dev) (p off : Nat) (op : MemOp) (poisoned : Bool) (hd : Mems.wf d.mems = true) : Mems.wf (Dev.bar4 d p off op poisoned).mems = true := by
  unfold Dev.bar4
  try dsimp only
  repeat' split
  all_goals simp (maxDischargeDepth := 9) [hd]
@[simp] theorem Dev.bar4Access_memsWf (d : Dev) (p fn off : Nat) (op : MemOp) (poisoned : Bool) (hd : Mems.wf d.mems = true) : Mems.wf (Dev.bar4Access d p fn off op poisoned).mems = true := by
  unfold Dev.bar4Access
  try dsimp only
  repeat' split
  all_goals simp (maxDischargeDepth := 9) [hd]
@[simp] theorem Dev.ring_memsWf (d : Dev) (p fn page : Nat) (f : Dev → Nat → Dev)
    (hf : ∀ d q, Mems.wf d.mems = true → Mems.wf (f d q).mems = true) (hd : Mems.wf d.mems = true) :
    Mems.wf (Dev.ring d p fn page f).mems = true := by
  unfold Dev.ring
  dsimp only
  split
  · exact hd
  · split
    · simp (maxDischargeDepth := 9) [hd]
    · split
      · simp (maxDischargeDepth := 9) [hd]
      · exact hf _ _ hd
@[simp] theorem Dev.doorbellWrite_memsWf (d : Dev) (sq : Bool) (p fn page value : Nat) (hd : Mems.wf d.mems = true) :
    Mems.wf (Dev.doorbellWrite d sq p fn page value).mems = true := by
  unfold Dev.doorbellWrite
  refine Dev.ring_memsWf _ _ _ _ _ (fun d q hd => ?_) hd
  dsimp only
  (repeat' split) <;> simp (maxDischargeDepth := 9) [hd]
@[simp] theorem Dev.hostGo_memsWf (d : Dev) (q cid : Nat) (p : Nat → Bool) (f : Dev → Nat → HostCmd → Dev)
    (hf : ∀ d i c, Mems.wf d.mems = true → Mems.wf (f d i c).mems = true) (hd : Mems.wf d.mems = true) :
    Mems.wf (Dev.hostGo d q cid p f).mems = true := by
  unfold Dev.hostGo
  split
  · split
    · exact hf _ _ _ hd
    · exact hd
  · exact hd
@[simp] theorem Dev.copyOut_memsWf (d : Dev) (c : HostCmd) (at_ : Nat) (ls : List Lane) (hd : Mems.wf d.mems = true) : Mems.wf (Dev.copyOut d c at_ ls).mems = true := by
  unfold Dev.copyOut
  try dsimp only
  repeat' split
  all_goals simp (maxDischargeDepth := 9) [hd]
@[simp] theorem Dev.copyData_memsWf (d : Dev) (i : Nat) (c : HostCmd) (ls : List Lane) (hd : Mems.wf d.mems = true) : Mems.wf (Dev.copyData d i c ls).mems = true := by
  unfold Dev.copyData
  try dsimp only
  repeat' split
  all_goals simp (maxDischargeDepth := 9) [hd]
@[simp] theorem Dev.rillHostData_memsWf (d : Dev) (die e : Nat) (st : CplStatus) (ls : List Lane) (hd : Mems.wf d.mems = true) :
    Mems.wf (Dev.rillHostData d die e st ls).mems = true := by
  unfold Dev.rillHostData
  cases (d.rill die e).run with
  | none => exact hd
  | some x =>
    dsimp only
    split
    · exact hd
    · cases st <;> dsimp only <;> (repeat' split) <;> simp (maxDischargeDepth := 9) [hd]
@[simp] theorem Dev.copyPage_mems (d : Dev) (q : Nat) (i : Nat) (c : HostCmd) : (Dev.copyPage d q i c).mems = d.mems := by
  unfold Dev.copyPage
  try dsimp only
  repeat' split
  all_goals simp
@[simp] theorem Dev.chimeWaits_mems (d : Dev) (n : Nat) : (Dev.chimeWaits d n).mems = d.mems := by
  unfold Dev.chimeWaits
  try dsimp only
  repeat' split
  all_goals simp

end Machine
end Sys2Proof
end

