-- ==== Sys2Proof/Laws/MemoryControl.lean ====
section
/-! SUPPORT. What each operation does to what is stored under the hedge code (wardens, the chime, clocks, start-up, security, reliability, register writes, power and the ring): `f_mems` says that `f`
leaves all of it as it was, `f_memsWf` that `f` keeps its canonical form. -/
namespace Sys2Proof
namespace Machine

set_option linter.unusedSimpArgs false
set_option linter.unusedVariables false
set_option linter.unusedTactic false
set_option linter.unreachableTactic false

/-! ### Warden -/

@[simp] theorem Dev.setRole_mems (d : Dev) (l r : Nat) : (Dev.setRole d l r).mems = d.mems := by
  unfold Dev.setRole
  try dsimp only
  repeat' split
  all_goals simp
@[simp] theorem Dev.setSync_mems (d : Dev) (l v : Nat) : (Dev.setSync d l v).mems = d.mems := by
  unfold Dev.setSync
  try dsimp only
  repeat' split
  all_goals simp
@[simp] theorem Dev.follow_mems (d : Dev) (l e : Nat) : (Dev.follow d l e).mems = d.mems := by
  unfold Dev.follow
  try dsimp only
  repeat' split
  all_goals simp
@[simp] theorem Dev.beginResync_mems (d : Dev) (l : Nat) : (Dev.beginResync d l).mems = d.mems := by
  unfold Dev.beginResync
  try dsimp only
  repeat' split
  all_goals simp
@[simp] theorem Dev.compareDigest_mems (d : Dev) (l : Nat) (m : HbMsg) : (Dev.compareDigest d l m).mems = d.mems := by
  unfold Dev.compareDigest
  try dsimp only
  repeat' split
  all_goals simp
@[simp] theorem Dev.learnPair_mems (d : Dev) (l : Nat) (p : Nat × Nat) (fromWarden : Bool) : (Dev.learnPair d l p fromWarden).mems = d.mems := by
  unfold Dev.learnPair
  try dsimp only
  repeat' split
  all_goals simp
@[simp] theorem Dev.formDigests_mems (d : Dev) : (Dev.formDigests d).mems = d.mems := by
  unfold Dev.formDigests
  try dsimp only
  repeat' split
  all_goals (try simp)
  all_goals (rw [foldl_mems (fun d a => by (try dsimp only); (repeat' split) <;> simp)]; try simp)
@[simp] theorem Dev.claimWarden_mems (d : Dev) (l : Nat) : (Dev.claimWarden d l).mems = d.mems := by
  unfold Dev.claimWarden
  try dsimp only
  repeat' split
  all_goals simp
@[simp] theorem Dev.haltRunning_memsWf (d : Dev) (hd : Mems.wf d.mems = true) : Mems.wf (Dev.haltRunning d).mems = true := by
  unfold Dev.haltRunning
  try dsimp only
  repeat' split
  all_goals (try simp (maxDischargeDepth := 9) [hd])
  all_goals (refine foldl_memsWf (fun d a hd => ?_) _ _ ?_ <;> (try dsimp only) <;> (repeat' split) <;> simp (maxDischargeDepth := 9) [hd])
@[simp] theorem Dev.takeOver_memsWf (d : Dev) (l : Nat) (hd : Mems.wf d.mems = true) : Mems.wf (Dev.takeOver d l).mems = true := by
  unfold Dev.takeOver
  try dsimp only
  repeat' split
  all_goals simp (maxDischargeDepth := 9) [hd]
@[simp] theorem Dev.yieldRole_mems (d : Dev) (l : Nat) : (Dev.yieldRole d l).mems = d.mems := by
  unfold Dev.yieldRole
  try dsimp only
  repeat' split
  all_goals simp
@[simp] theorem Dev.commandResync_mems (d : Dev) (l : Nat) : (Dev.commandResync d l).mems = d.mems := by
  unfold Dev.commandResync
  try dsimp only
  repeat' split
  all_goals simp
@[simp] theorem Dev.wardenCtlWritten_mems (d : Dev) (l : Nat) (new cmd : Word) : (Dev.wardenCtlWritten d l new cmd).mems = d.mems := by
  unfold Dev.wardenCtlWritten
  try dsimp only
  repeat' split
  all_goals simp
@[simp] theorem Dev.noteCoast_mems (d : Dev) : (Dev.noteCoast d).mems = d.mems := by
  unfold Dev.noteCoast
  try dsimp only
  repeat' split
  all_goals simp [foldl_mems, Dev.mems_ite]

/-! ### Hazard -/

@[simp] theorem Dev.noteStanding_mems (d : Dev) (z : Standing) : (Dev.noteStanding d z).mems = d.mems := by
  unfold Dev.noteStanding
  try dsimp only
  repeat' split
  all_goals simp
@[simp] theorem Dev.noteStalls_mems (d : Dev) : (Dev.noteStalls d).mems = d.mems := by
  unfold Dev.noteStalls
  try dsimp only
  repeat' split
  all_goals simp [foldl_mems, Dev.mems_ite]
@[simp] theorem Dev.noteQueueWaits_mems (d : Dev) : (Dev.noteQueueWaits d).mems = d.mems := by
  unfold Dev.noteQueueWaits
  dsimp only
  rw [foldl_mems (fun d b => by simp), foldl_mems]
  intro d e
  split <;> simp
@[simp] theorem Dev.unitsAtChime_mems (d : Dev) : (Dev.unitsAtChime d).mems = d.mems := by
  unfold Dev.unitsAtChime
  try dsimp only
  repeat' split
  all_goals simp

/-! ### Chime -/

@[simp] theorem Dev.chimePeriodWritten_mems (d : Dev) (new : Word) : (Dev.chimePeriodWritten d new).mems = d.mems := by
  unfold Dev.chimePeriodWritten
  try dsimp only
  repeat' split
  all_goals simp
@[simp] theorem Dev.chimeCtlWritten_mems (d : Dev) (new : Word) : (Dev.chimeCtlWritten d new).mems = d.mems := by
  unfold Dev.chimeCtlWritten
  try dsimp only
  repeat' split
  all_goals simp
@[simp] theorem Dev.chimeLeadWritten_mems (d : Dev) (new : Word) : (Dev.chimeLeadWritten d new).mems = d.mems := by
  unfold Dev.chimeLeadWritten
  try dsimp only
  repeat' split
  all_goals simp
@[simp] theorem Dev.bedChime_memsWf (d : Dev) (held : Bool) (b T : Nat) (hd : Mems.wf d.mems = true) : Mems.wf (Dev.bedChime d held b T).1.mems = true := by
  unfold Dev.bedChime
  try dsimp only
  repeat' split
  all_goals simp (maxDischargeDepth := 9) [hd]
@[simp] theorem Dev.bedsChime_memsWf (d : Dev) (held : Bool) (T : Nat) (bs : List Nat) (hd : Mems.wf d.mems = true) :
    Mems.wf (Dev.bedsChime d held T bs).1.mems = true := by
  induction bs generalizing d with
  | nil => exact hd
  | cons b bs ih => unfold Dev.bedsChime; exact ih _ (by simp (maxDischargeDepth := 9) [hd])
@[simp] theorem Dev.issueOn_mems (d : Dev) (T die b : Nat) : (Dev.issueOn d T die b).mems = d.mems := by
  unfold Dev.issueOn
  try dsimp only
  repeat' split
  all_goals simp [foldl_mems, Dev.mems_ite]
@[simp] theorem Dev.issueAll_mems (d : Dev) (T : Nat) (bs : List Nat) : (Dev.issueAll d T bs).mems = d.mems := by
  unfold Dev.issueAll
  rw [foldl_mems]
  intro d die
  rw [foldl_mems]
  intro d s
  split
  · split <;> simp
  · rfl
@[simp] theorem Dev.noteReplantIssue_mems (d : Dev) (T : Nat) (bs : List Nat) : (Dev.noteReplantIssue d T bs).mems = d.mems := by
  unfold Dev.noteReplantIssue
  try dsimp only
  repeat' split
  all_goals simp
@[simp] theorem Dev.noteHeld_mems (d : Dev) (held : Bool) : (Dev.noteHeld d held).mems = d.mems := by
  unfold Dev.noteHeld
  try dsimp only
  repeat' split
  all_goals simp
@[simp] theorem Dev.fireChime_memsWf (d : Dev) (T : Nat) (num : Option DWord) (own : Bool) (hd : Mems.wf d.mems = true) :
    Mems.wf (Dev.fireChime d T num own).mems = true := by
  unfold Dev.fireChime
  extract_lets c n d1 d2 d3 d4 d5 r
  have h1 : Mems.wf d1.mems = true := by simp only [d1]; split <;> simp (maxDischargeDepth := 9) [hd]
  have h2 : Mems.wf d2.mems = true := by simp only [d2]; (repeat' split) <;> simp (maxDischargeDepth := 9) [h1]
  have h3 : Mems.wf d3.mems = true := by simp [d3, h2]
  have h4 : Mems.wf d4.mems = true := by simp [d4, h3]
  have h5 : Mems.wf d5.mems = true := by simp [d5, h4]
  have h6 : Mems.wf r.1.mems = true := by simp [r, h5]
  simp (maxDischargeDepth := 9) [h6]
@[simp] theorem Dev.fireDue_memsWf (d : Dev) (t T : Nat) (hd : Mems.wf d.mems = true) : Mems.wf (Dev.fireDue d t T).mems = true := by
  unfold Dev.fireDue
  try dsimp only
  repeat' split
  all_goals simp (maxDischargeDepth := 9) [hd]
@[simp] theorem Dev.sampleBed_mems (d : Dev) (T b : Nat) : (Dev.sampleBed d T b).mems = d.mems := by
  unfold Dev.sampleBed
  try dsimp only
  repeat' split
  all_goals simp
@[simp] theorem Dev.setDue_mems (d : Dev) (F : Nat) (num : Option DWord) : (Dev.setDue d F num).mems = d.mems := by
  unfold Dev.setDue
  try dsimp only
  repeat' split
  all_goals simp
@[simp] theorem Dev.markerArrives_memsWf (d : Dev) (t port : Nat) (num : DWord) (lead : Int) (srcDev hops : Nat) (hd : Mems.wf d.mems = true) : Mems.wf (Dev.markerArrives d t port num lead srcDev hops).mems = true := by
  unfold Dev.markerArrives
  try dsimp only
  repeat' split
  all_goals simp (maxDischargeDepth := 9) [hd, foldl_memsWf, Dev.mems_ite]
@[simp] theorem Dev.missChime_memsWf (d : Dev) (t mode : Nat) (hd : Mems.wf d.mems = true) : Mems.wf (Dev.missChime d t mode).mems = true := by
  unfold Dev.missChime
  try dsimp only
  repeat' split
  all_goals simp (maxDischargeDepth := 9) [hd]

/-! ### Clock -/

@[simp] theorem Dev.setClock_mems (d : Dev) (f : Fld) (v : Nat) : (Dev.setClock d f v).mems = d.mems := by
  unfold Dev.setClock
  try dsimp only
  repeat' split
  all_goals simp
@[simp] theorem Dev.setLocks_mems (d : Dev) (l v : Nat) : (Dev.setLocks d l v).mems = d.mems := by
  unfold Dev.setLocks
  try dsimp only
  repeat' split
  all_goals simp
@[simp] theorem Dev.setExpect_mems (d : Dev) (l fine : Nat) : (Dev.setExpect d l fine).mems = d.mems := by
  unfold Dev.setExpect
  try dsimp only
  repeat' split
  all_goals simp
@[simp] theorem Dev.testWindow_mems (d : Dev) (l count : Nat) : (Dev.testWindow d l count).mems = d.mems := by
  unfold Dev.testWindow
  try dsimp only
  repeat' split
  all_goals simp
@[simp] theorem Dev.endReferenceTest_mems (d : Dev) (l : Nat) : (Dev.endReferenceTest d l).mems = d.mems := by
  unfold Dev.endReferenceTest
  try dsimp only
  repeat' split
  all_goals simp
@[simp] theorem Dev.beginHold_mems (d : Dev) : (Dev.beginHold d).mems = d.mems := by
  unfold Dev.beginHold
  try dsimp only
  repeat' split
  all_goals simp
@[simp] theorem Dev.raiseFrost_mems (d : Dev) : (Dev.raiseFrost d).mems = d.mems := by
  unfold Dev.raiseFrost
  try dsimp only
  repeat' split
  all_goals simp
@[simp] theorem Dev.holdWindow_mems (d : Dev) (h : HoldSt) (ok : Bool) : (Dev.holdWindow d h ok).mems = d.mems := by
  unfold Dev.holdWindow
  try dsimp only
  repeat' split
  all_goals simp
@[simp] theorem Dev.judgeWindow_mems (d : Dev) (l count : Nat) : (Dev.judgeWindow d l count).mems = d.mems := by
  unfold Dev.judgeWindow
  try dsimp only
  repeat' split
  all_goals simp
@[simp] theorem Dev.sundialStsWritten_mems (d : Dev) (l : Nat) (new : Word) : (Dev.sundialStsWritten d l new).mems = d.mems := by
  unfold Dev.sundialStsWritten
  try dsimp only
  repeat' split
  all_goals simp
@[simp] theorem Dev.selectSource_mems (d : Dev) (l : Nat) : (Dev.selectSource d l).mems = d.mems := by
  unfold Dev.selectSource
  try dsimp only
  repeat' split
  all_goals simp
@[simp] theorem Dev.clkCtlWritten_mems (d : Dev) (l : Nat) (new cmd : Word) : (Dev.clkCtlWritten d l new cmd).mems = d.mems := by
  unfold Dev.clkCtlWritten
  try dsimp only
  repeat' split
  all_goals simp
@[simp] theorem Dev.endPhase_mems (d : Dev) (w : SwitchSt) : (Dev.endPhase d w).mems = d.mems := by
  unfold Dev.endPhase
  try dsimp only
  repeat' split
  all_goals simp
@[simp] theorem Dev.clkenWritten_mems (d : Dev) (l o : Nat) (new : Word) : (Dev.clkenWritten d l o new).mems = d.mems := by
  unfold Dev.clkenWritten
  try dsimp only
  repeat' split
  all_goals simp

/-! ### RegRead -/

@[simp] theorem Dev.readEffect_mems (d : Dev) (b : Blk) (o : Nat) : (Dev.readEffect d b o).mems = d.mems := by
  unfold Dev.readEffect
  try dsimp only
  repeat' split
  all_goals simp
@[simp] theorem Dev.readAt_mems (d : Dev) (src : Source) (a size : Nat) : (Dev.readAt d src a size).mems = d.mems := by
  unfold Dev.readAt
  try dsimp only
  repeat' split
  all_goals simp

/-! ### Startup -/

@[simp] theorem Dev.setMeas_mems (d : Dev) (l i dig : Nat) : (Dev.setMeas d l i dig).mems = d.mems := by
  unfold Dev.setMeas
  try dsimp only
  repeat' split
  all_goals simp [foldl_mems, Dev.mems_ite]
@[simp] theorem Dev.startLodge_mems (d : Dev) (l : Nat) (st : Straps) : (Dev.startLodge d l st).mems = d.mems := by
  unfold Dev.startLodge
  try dsimp only
  repeat' split
  all_goals simp
@[simp] theorem Dev.gatehouseStep_mems (d : Dev) (l : Nat) (bs cert : List Byte) : (Dev.gatehouseStep d l bs cert).mems = d.mems := by
  unfold Dev.gatehouseStep
  try dsimp only
  repeat' split
  all_goals simp
@[simp] theorem Dev.setCounters_mems (d : Dev) (l : Nat) (c : Nat × Nat × Nat × Nat) : (Dev.setCounters d l c).mems = d.mems := by
  unfold Dev.setCounters
  try dsimp only
  repeat' split
  all_goals simp
@[simp] theorem Dev.setIdentity_mems (d : Dev) (l : Nat) (i : Option (Nat × Nat)) : (Dev.setIdentity d l i).mems = d.mems := by
  unfold Dev.setIdentity
  try dsimp only
  repeat' split
  all_goals simp
@[simp] theorem Dev.enrol_mems (d : Dev) (l : Nat) (c : Option (Nat × List OwnerSlot)) : (Dev.enrol d l c).mems = d.mems := by
  unfold Dev.enrol
  try dsimp only
  repeat' split
  all_goals simp
@[simp] theorem Dev.bootStep_mems (d : Dev) (l : Nat) (m : Option BootMedia) : (Dev.bootStep d l m).mems = d.mems := by
  unfold Dev.bootStep
  try dsimp only
  repeat' split
  all_goals simp
@[simp] theorem Dev.logKeptStop_mems (d : Dev) : (Dev.logKeptStop d).mems = d.mems := by
  unfold Dev.logKeptStop
  try dsimp only
  repeat' split
  all_goals simp
@[simp] theorem Dev.firmwareStep_mems (d : Dev) (l : Nat) (bs : List Byte) : (Dev.firmwareStep d l bs).mems = d.mems := by
  unfold Dev.firmwareStep
  try dsimp only
  repeat' split
  all_goals simp
@[simp] theorem Dev.logFailedEngine_mems (d : Dev) (a : Nat) : (Dev.logFailedEngine d a).mems = d.mems := by
  unfold Dev.logFailedEngine
  try dsimp only
  repeat' split
  all_goals simp
@[simp] theorem Dev.setReady_mems (d : Dev) (l : Nat) : (Dev.setReady d l).mems = d.mems := by
  unfold Dev.setReady
  try dsimp only
  repeat' split
  all_goals simp
@[simp] theorem Dev.bistStep_mems (d : Dev) (l : Nat) (arrays stages engines : List Nat) (hint : List Byte) (calib : List (Nat × Word)) : (Dev.bistStep d l arrays stages engines hint calib).mems = d.mems := by
  unfold Dev.bistStep
  try dsimp only
  repeat' split
  all_goals simp [foldl_mems, Dev.mems_ite]
@[simp] theorem Dev.showStack_mems (d : Dev) (k bin : Nat) : (Dev.showStack d k bin).mems = d.mems := by
  unfold Dev.showStack
  try dsimp only
  repeat' split
  all_goals simp [foldl_mems, Dev.mems_ite]
@[simp] theorem Dev.endAttempt_mems (d : Dev) (k step cause rows : Nat) : (Dev.endAttempt d k step cause rows).mems = d.mems := by
  unfold Dev.endAttempt
  try dsimp only
  repeat' split
  all_goals simp
@[simp] theorem Dev.hbmCtlWritten_mems (d : Dev) (i k : Nat) (new : Word) : (Dev.hbmCtlWritten d i k new).mems = d.mems := by
  unfold Dev.hbmCtlWritten
  try dsimp only
  repeat' split
  all_goals simp

/-! ### Security -/

@[simp] theorem Dev.advanceCounter_mems (d : Dev) (l : Nat) : (Dev.advanceCounter d l).mems = d.mems := by
  unfold Dev.advanceCounter
  try dsimp only
  repeat' split
  all_goals simp
@[simp] theorem Dev.writeHint_mems (d : Dev) (l : Nat) : (Dev.writeHint d l).mems = d.mems := by
  unfold Dev.writeHint
  try dsimp only
  repeat' split
  all_goals simp
@[simp] theorem Dev.secCtlWritten_mems (d : Dev) (l : Nat) (new cmd : Word) : (Dev.secCtlWritten d l new cmd).mems = d.mems := by
  unfold Dev.secCtlWritten
  try dsimp only
  repeat' split
  all_goals simp

/-! ### Reliability -/

@[simp] theorem Dev.popLog_mems (d : Dev) : (Dev.popLog d).mems = d.mems := by
  unfold Dev.popLog
  try dsimp only
  repeat' split
  all_goals simp
@[simp] theorem Dev.faultCtlWritten_mems (d : Dev) (new cmd : Word) : (Dev.faultCtlWritten d new cmd).mems = d.mems := by
  unfold Dev.faultCtlWritten
  try dsimp only
  repeat' split
  all_goals simp
@[simp] theorem Dev.scrubWords_mems (d : Dev) (k : Nat) : (Dev.scrubWords d k).mems = d.mems := by
  unfold Dev.scrubWords
  try dsimp only
  repeat' split
  all_goals simp [foldl_mems, Dev.mems_ite]
@[simp] theorem Dev.showScrubPos_mems (d : Dev) (s n : Nat) : (Dev.showScrubPos d s n).mems = d.mems := by
  unfold Dev.showScrubPos
  try dsimp only
  repeat' split
  all_goals simp
@[simp] theorem Dev.scrubHbm_mems (d : Dev) (s : Nat) : (Dev.scrubHbm d s).mems = d.mems := by
  unfold Dev.scrubHbm
  try dsimp only
  repeat' split
  all_goals simp
@[simp] theorem Dev.scrubFileWord_mems (d : Dev) (die p k : Nat) : (Dev.scrubFileWord d die p k).mems = d.mems := by
  unfold Dev.scrubFileWord
  try dsimp only
  repeat' split
  all_goals simp
@[simp] theorem Dev.scrubSramUnit_mems (d : Dev) (k n : Nat) : (Dev.scrubSramUnit d k n).mems = d.mems := by
  unfold Dev.scrubSramUnit
  try dsimp only
  repeat' split
  all_goals simp [foldl_mems, Dev.mems_ite]
@[simp] theorem Dev.scrubSram_mems (d : Dev) (k : Nat) : (Dev.scrubSram d k).mems = d.mems := by
  unfold Dev.scrubSram
  try dsimp only
  repeat' split
  all_goals simp
@[simp] theorem Dev.stopKeeper_mems (d : Dev) (l core : Nat) : (Dev.stopKeeper d l core).mems = d.mems := by
  unfold Dev.stopKeeper
  try dsimp only
  repeat' split
  all_goals simp
@[simp] theorem Dev.noteCtlErr_mems (d : Dev) (b : Blk) : (Dev.noteCtlErr d b).mems = d.mems := by
  cases b <;> simp [Dev.noteCtlErr]

/-! ### RegWrite -/

@[simp] theorem Dev.keeperRunWritten_mems (d : Dev) (l : Nat) (new : Word) : (Dev.keeperRunWritten d l new).mems = d.mems := by
  unfold Dev.keeperRunWritten
  try dsimp only
  repeat' split
  all_goals simp
@[simp] theorem Dev.lodgeWritten_mems (d : Dev) (l : Nat) (src : Source) (o : Nat) (al : Alias) (data new : Word) : (Dev.lodgeWritten d l src o al data new).mems = d.mems := by
  unfold Dev.lodgeWritten
  try dsimp only
  repeat' split
  all_goals simp
@[simp] theorem Dev.queueWritten_mems (d : Dev) (src : Source) (o : Nat) (new cmd : Word) : (Dev.queueWritten d src o new cmd).mems = d.mems := by
  unfold Dev.queueWritten
  try dsimp only
  repeat' split
  all_goals simp
@[simp] theorem Dev.obotilWritten_mems (d : Dev) (n o : Nat) (new cmd : Word) : (Dev.obotilWritten d n o new cmd).mems = d.mems := by
  unfold Dev.obotilWritten
  try dsimp only
  repeat' split
  all_goals simp
@[simp] theorem Dev.trugWritten_mems (d : Dev) (o : Nat) (new cmd : Word) : (Dev.trugWritten d o new cmd).mems = d.mems := by
  unfold Dev.trugWritten
  try dsimp only
  repeat' split
  all_goals simp
@[simp] theorem Dev.shedWritten_mems (d : Dev) (k o : Nat) (al : Alias) (data new : Word) : (Dev.shedWritten d k o al data new).mems = d.mems := by
  unfold Dev.shedWritten
  try dsimp only
  repeat' split
  all_goals simp
@[simp] theorem Dev.mowerWritten_memsWf (d : Dev) (k o : Nat) (new cmd : Word) (hd : Mems.wf d.mems = true) : Mems.wf (Dev.mowerWritten d k o new cmd).mems = true := by
  unfold Dev.mowerWritten
  try dsimp only
  repeat' split
  all_goals simp (maxDischargeDepth := 9) [hd]
@[simp] theorem Dev.plotWritten_mems (d : Dev) (k p o : Nat) (new cmd : Word) : (Dev.plotWritten d k p o new cmd).mems = d.mems := by
  unfold Dev.plotWritten
  try dsimp only
  repeat' split
  all_goals simp
@[simp] theorem Dev.regWritten_memsWf (d : Dev) (src : Source) (b : Blk) (o : Nat) (al : Alias) (data : Word) (hd : Mems.wf d.mems = true) : Mems.wf (Dev.regWritten d src b o al data).mems = true := by
  unfold Dev.regWritten
  try dsimp only
  repeat' split
  all_goals simp (maxDischargeDepth := 9) [hd]
@[simp] theorem Dev.acceptWrite_memsWf (d : Dev) (src : Source) (b : Blk) (o : Nat) (al : Alias) (data : Word) (hd : Mems.wf d.mems = true) : Mems.wf (Dev.acceptWrite d src b o al data).mems = true := by
  unfold Dev.acceptWrite
  try dsimp only
  repeat' split
  all_goals simp (maxDischargeDepth := 9) [hd]
@[simp] theorem Dev.vfTableWritten_mems (d : Dev) (w : WriteAccess) : (Dev.vfTableWritten d w).mems = d.mems := by
  unfold Dev.vfTableWritten
  try dsimp only
  repeat' split
  all_goals simp
@[simp] theorem Dev.writeAt_memsWf (d : Dev) (w : WriteAccess) (hd : Mems.wf d.mems = true) : Mems.wf (Dev.writeAt d w).mems = true := by
  unfold Dev.writeAt
  split
  · exact hd
  · split
    · simp (maxDischargeDepth := 9) [hd]
    · split
      · simp (maxDischargeDepth := 9) [hd]
      · split
        · simp (maxDischargeDepth := 9) [hd]
        · split
          · simp (maxDischargeDepth := 9) [hd]
          · split
            · exact hd
            · dsimp only
              split
              · exact Dev.controlWrite_memsWf _ _ _ _ (fun d hd => by simp (maxDischargeDepth := 9) [hd])
                  (by simp (maxDischargeDepth := 9) [hd])
              · simp (maxDischargeDepth := 9) [hd]

/-! ### Power -/

@[simp] theorem Dev.moveStacks_mems (d : Dev) (a b : Nat) : (Dev.moveStacks d a b).mems = d.mems := by
  unfold Dev.moveStacks
  try dsimp only
  repeat' split
  all_goals simp [foldl_mems, Dev.mems_ite]
@[simp] theorem Dev.keepersOff_mems (d : Dev) : (Dev.keepersOff d).mems = d.mems := by
  unfold Dev.keepersOff
  try dsimp only
  repeat' split
  all_goals simp [foldl_mems, Dev.mems_ite]
@[simp] theorem Dev.keepersOn_mems (d : Dev) : (Dev.keepersOn d).mems = d.mems := by
  unfold Dev.keepersOn
  try dsimp only
  repeat' split
  all_goals simp [foldl_mems, Dev.mems_ite]
@[simp] theorem Dev.restartLodge_mems (d : Dev) (old : LodgeSt) (l : Nat) : (Dev.restartLodge d old l).mems = d.mems := by
  unfold Dev.restartLodge
  try dsimp only
  repeat' split
  all_goals simp
@[simp] theorem Dev.restart_memsWf (d : Dev) (hd : Mems.wf d.mems = true) : Mems.wf (Dev.restart d).mems = true := by
  simp only [Dev.restart, Dev.setPower_mems, Dev.restartLodge_mems]
  simp only [Mems.wf, Memory.wf, Dev.mems, Bool.and_eq_true] at *
  exact ⟨⟨⟨hd.1.1.1, rfl⟩, rfl⟩, Tbl.wf_filter hd.2⟩
@[simp] theorem Dev.exitClock_mems (d : Dev) (refOk : Bool) : (Dev.exitClock d refOk).mems = d.mems := by
  unfold Dev.exitClock
  try dsimp only
  repeat' split
  all_goals simp
@[simp] theorem Dev.exitScrub_mems (d : Dev) : (Dev.exitScrub d).mems = d.mems := by
  unfold Dev.exitScrub
  try dsimp only
  repeat' split
  all_goals simp
@[simp] theorem Dev.exitWarden_mems (d : Dev) : (Dev.exitWarden d).mems = d.mems := by
  unfold Dev.exitWarden
  try dsimp only
  repeat' split
  all_goals simp [foldl_mems, Dev.mems_ite]
@[simp] theorem Dev.exitChime_mems (d : Dev) : (Dev.exitChime d).mems = d.mems := by
  unfold Dev.exitChime
  try dsimp only
  repeat' split
  all_goals simp
@[simp] theorem Dev.exitPorts_mems (d : Dev) : (Dev.exitPorts d).mems = d.mems := by
  unfold Dev.exitPorts
  try dsimp only
  repeat' split
  all_goals simp [foldl_mems, Dev.mems_ite]
@[simp] theorem Dev.releaseReq_memsWf (d : Dev) (r : HeldReq) (hd : Mems.wf d.mems = true) : Mems.wf (Dev.releaseReq d r).mems = true := by
  cases r <;> simp [Dev.releaseReq, hd]
@[simp] theorem Dev.releaseHeld_memsWf (d : Dev) (hd : Mems.wf d.mems = true) : Mems.wf (Dev.releaseHeld d).mems = true := by
  unfold Dev.releaseHeld
  exact foldl_memsWf (fun d r hd => by simp (maxDischargeDepth := 9) [hd]) _ _ (by simp (maxDischargeDepth := 9) [hd])
@[simp] theorem Dev.wardAct_mems (d : Dev) : (Dev.wardAct d).mems = d.mems := by
  unfold Dev.wardAct
  try dsimp only
  repeat' split
  all_goals simp
@[simp] theorem Dev.showPower_mems (d : Dev) (w : Nat) (dies : List Nat) : (Dev.showPower d w dies).mems = d.mems := by
  unfold Dev.showPower
  try dsimp only
  repeat' split
  all_goals simp [foldl_mems, Dev.mems_ite]
@[simp] theorem Dev.showTemps_mems (d : Dev) (ts : List Nat) : (Dev.showTemps d ts).mems = d.mems := by
  unfold Dev.showTemps
  try dsimp only
  repeat' split
  all_goals simp [foldl_mems, Dev.mems_ite]
@[simp] theorem Dev.warn_mems (d : Dev) : (Dev.warn d).mems = d.mems := by
  unfold Dev.warn
  try dsimp only
  repeat' split
  all_goals simp

/-! ### Ring -/

@[simp] theorem Dev.turnReads_mems (d : Dev) (die e : Nat) (x : RillRun) (to_ : Nat × Nat) : (Dev.turnReads d die e x to_).mems = d.mems := by
  unfold Dev.turnReads
  try dsimp only
  repeat' split
  all_goals simp

end Machine
end Sys2Proof
end

