-- ==== Sys2Proof/Laws/State.lean ====
section
/-! SUPPORT. The fields of a state, and of a device after each of the smallest updates; a register of a device is found again
where it was written. -/
namespace Sys2Proof
namespace Machine

@[simp] theorem State.pending_mk (p : List Instr) (d : Dev) : (State.mk p d).pending = p := rfl
@[simp] theorem State.dev_mk (p : List Instr) (d : Dev) : (State.mk p d).dev = d := rfl

/-! ### touch -/
section
variable (d : Dev) (t : Nat)
@[simp] theorem Dev.touch_sent : (d.touch t).sent = d.sent := rfl
@[simp] theorem Dev.touch_freeCnt : (d.touch t).freeCnt = d.freeCnt := rfl
@[simp] theorem Dev.touch_regs : (d.touch t).regs = d.regs := rfl
@[simp] theorem Dev.touch_rsvlDoc : (d.touch t).rsvlDoc = d.rsvlDoc := rfl
@[simp] theorem Dev.touch_posted : (d.touch t).posted = d.posted := rfl
@[simp] theorem Dev.touch_hbm : (d.touch t).hbm = d.hbm := rfl
@[simp] theorem Dev.touch_gh : (d.touch t).gh = d.gh := rfl
@[simp] theorem Dev.touch_bench : (d.touch t).bench = d.bench := rfl
@[simp] theorem Dev.touch_tray : (d.touch t).tray = d.tray := rfl
@[simp] theorem Dev.touch_trayFree : (d.touch t).trayFree = d.trayFree := rfl
@[simp] theorem Dev.touch_synd : (d.touch t).synd = d.synd := rfl
@[simp] theorem Dev.touch_rewrites : (d.touch t).rewrites = d.rewrites := rfl
@[simp] theorem Dev.touch_clkOn : (d.touch t).clkOn = d.clkOn := rfl
@[simp] theorem Dev.touch_arrFail : (d.touch t).arrFail = d.arrFail := rfl
@[simp] theorem Dev.touch_defFail : (d.touch t).defFail = d.defFail := rfl
@[simp] theorem Dev.touch_arrNew : (d.touch t).arrNew = d.arrNew := rfl
@[simp] theorem Dev.touch_defNew : (d.touch t).defNew = d.defNew := rfl
@[simp] theorem Dev.touch_chime : (d.touch t).chime = d.chime := rfl
@[simp] theorem Dev.touch_loader : (d.touch t).loader = d.loader := rfl
@[simp] theorem Dev.touch_owners : (d.touch t).owners = d.owners := rfl
@[simp] theorem Dev.touch_engFail : (d.touch t).engFail = d.engFail := rfl
@[simp] theorem Dev.touch_plots : (d.touch t).plots = d.plots := rfl
@[simp] theorem Dev.touch_furs : (d.touch t).furs = d.furs := rfl
@[simp] theorem Dev.touch_rills : (d.touch t).rills = d.rills := rfl
@[simp] theorem Dev.touch_sieves : (d.touch t).sieves = d.sieves := rfl
@[simp] theorem Dev.touch_mowers : (d.touch t).mowers = d.mowers := rfl
@[simp] theorem Dev.touch_claimed : (d.touch t).claimed = d.claimed := rfl
@[simp] theorem Dev.touch_taken : (d.touch t).taken = d.taken := rfl
@[simp] theorem Dev.touch_log : (d.touch t).log = d.log := rfl
@[simp] theorem Dev.touch_queues : (d.touch t).queues = d.queues := rfl
@[simp] theorem Dev.touch_hostCmds : (d.touch t).hostCmds = d.hostCmds := rfl
@[simp] theorem Dev.touch_fns : (d.touch t).fns = d.fns := rfl
@[simp] theorem Dev.touch_msix : (d.touch t).msix = d.msix := rfl
@[simp] theorem Dev.touch_msixPend : (d.touch t).msixPend = d.msixPend := rfl
@[simp] theorem Dev.touch_pcie0 : (d.touch t).pcie0 = d.pcie0 := rfl
@[simp] theorem Dev.touch_pcie1 : (d.touch t).pcie1 = d.pcie1 := rfl
@[simp] theorem Dev.touch_vfRegs : (d.touch t).vfRegs = d.vfRegs := rfl
@[simp] theorem Dev.touch_ports : (d.touch t).ports = d.ports := rfl
@[simp] theorem Dev.touch_gates : (d.touch t).gates = d.gates := rfl
@[simp] theorem Dev.touch_gateWaits : (d.touch t).gateWaits = d.gateWaits := rfl
@[simp] theorem Dev.touch_bars : (d.touch t).bars = d.bars := rfl
@[simp] theorem Dev.touch_msgId : (d.touch t).msgId = d.msgId := rfl
@[simp] theorem Dev.touch_wepochs : (d.touch t).wepochs = d.wepochs := rfl
@[simp] theorem Dev.touch_wadvanced : (d.touch t).wadvanced = d.wadvanced := rfl
@[simp] theorem Dev.touch_trugWait : (d.touch t).trugWait = d.trugWait := rfl
@[simp] theorem Dev.touch_trugs : (d.touch t).trugs = d.trugs := rfl
@[simp] theorem Dev.touch_lost : (d.touch t).lost = d.lost := rfl
@[simp] theorem Dev.touch_chimeOut : (d.touch t).chimeOut = d.chimeOut := rfl
@[simp] theorem Dev.touch_wards : (d.touch t).wards = d.wards := rfl
@[simp] theorem Dev.touch_clks : (d.touch t).clks = d.clks := rfl
@[simp] theorem Dev.touch_lodges : (d.touch t).lodges = d.lodges := rfl
@[simp] theorem Dev.touch_hold : (d.touch t).hold = d.hold := rfl
@[simp] theorem Dev.touch_switch : (d.touch t).switch = d.switch := rfl
@[simp] theorem Dev.touch_pwr : (d.touch t).pwr = d.pwr := rfl
@[simp] theorem Dev.touch_trainT : (d.touch t).trainT = d.trainT := rfl
@[simp] theorem Dev.touch_scrub : (d.touch t).scrub = d.scrub := rfl
end

/-! ### emit -/
section
variable (d : Dev) (os : List Out)
@[simp] theorem Dev.emit_now : (d.emit os).now = d.now := rfl
@[simp] theorem Dev.emit_freeCnt : (d.emit os).freeCnt = d.freeCnt := rfl
@[simp] theorem Dev.emit_regs : (d.emit os).regs = d.regs := rfl
@[simp] theorem Dev.emit_rsvlDoc : (d.emit os).rsvlDoc = d.rsvlDoc := rfl
@[simp] theorem Dev.emit_posted : (d.emit os).posted = d.posted := rfl
@[simp] theorem Dev.emit_hbm : (d.emit os).hbm = d.hbm := rfl
@[simp] theorem Dev.emit_gh : (d.emit os).gh = d.gh := rfl
@[simp] theorem Dev.emit_bench : (d.emit os).bench = d.bench := rfl
@[simp] theorem Dev.emit_tray : (d.emit os).tray = d.tray := rfl
@[simp] theorem Dev.emit_trayFree : (d.emit os).trayFree = d.trayFree := rfl
@[simp] theorem Dev.emit_synd : (d.emit os).synd = d.synd := rfl
@[simp] theorem Dev.emit_rewrites : (d.emit os).rewrites = d.rewrites := rfl
@[simp] theorem Dev.emit_clkOn : (d.emit os).clkOn = d.clkOn := rfl
@[simp] theorem Dev.emit_arrFail : (d.emit os).arrFail = d.arrFail := rfl
@[simp] theorem Dev.emit_defFail : (d.emit os).defFail = d.defFail := rfl
@[simp] theorem Dev.emit_arrNew : (d.emit os).arrNew = d.arrNew := rfl
@[simp] theorem Dev.emit_defNew : (d.emit os).defNew = d.defNew := rfl
@[simp] theorem Dev.emit_chime : (d.emit os).chime = d.chime := rfl
@[simp] theorem Dev.emit_beds : (d.emit os).beds = d.beds := rfl
@[simp] theorem Dev.emit_items : (d.emit os).items = d.items := rfl
@[simp] theorem Dev.emit_itemSeq : (d.emit os).itemSeq = d.itemSeq := rfl
@[simp] theorem Dev.emit_toIssue : (d.emit os).toIssue = d.toIssue := rfl
@[simp] theorem Dev.emit_shedFree : (d.emit os).shedFree = d.shedFree := rfl
@[simp] theorem Dev.emit_loader : (d.emit os).loader = d.loader := rfl
@[simp] theorem Dev.emit_owners : (d.emit os).owners = d.owners := rfl
@[simp] theorem Dev.emit_engFail : (d.emit os).engFail = d.engFail := rfl
@[simp] theorem Dev.emit_plots : (d.emit os).plots = d.plots := rfl
@[simp] theorem Dev.emit_furs : (d.emit os).furs = d.furs := rfl
@[simp] theorem Dev.emit_rills : (d.emit os).rills = d.rills := rfl
@[simp] theorem Dev.emit_sieves : (d.emit os).sieves = d.sieves := rfl
@[simp] theorem Dev.emit_mowers : (d.emit os).mowers = d.mowers := rfl
@[simp] theorem Dev.emit_claimed : (d.emit os).claimed = d.claimed := rfl
@[simp] theorem Dev.emit_taken : (d.emit os).taken = d.taken := rfl
@[simp] theorem Dev.emit_log : (d.emit os).log = d.log := rfl
@[simp] theorem Dev.emit_queues : (d.emit os).queues = d.queues := rfl
@[simp] theorem Dev.emit_hostCmds : (d.emit os).hostCmds = d.hostCmds := rfl
@[simp] theorem Dev.emit_fns : (d.emit os).fns = d.fns := rfl
@[simp] theorem Dev.emit_msix : (d.emit os).msix = d.msix := rfl
@[simp] theorem Dev.emit_msixPend : (d.emit os).msixPend = d.msixPend := rfl
@[simp] theorem Dev.emit_pcie0 : (d.emit os).pcie0 = d.pcie0 := rfl
@[simp] theorem Dev.emit_pcie1 : (d.emit os).pcie1 = d.pcie1 := rfl
@[simp] theorem Dev.emit_vfRegs : (d.emit os).vfRegs = d.vfRegs := rfl
@[simp] theorem Dev.emit_ports : (d.emit os).ports = d.ports := rfl
@[simp] theorem Dev.emit_gates : (d.emit os).gates = d.gates := rfl
@[simp] theorem Dev.emit_gateWaits : (d.emit os).gateWaits = d.gateWaits := rfl
@[simp] theorem Dev.emit_bars : (d.emit os).bars = d.bars := rfl
@[simp] theorem Dev.emit_msgId : (d.emit os).msgId = d.msgId := rfl
@[simp] theorem Dev.emit_wepochs : (d.emit os).wepochs = d.wepochs := rfl
@[simp] theorem Dev.emit_wadvanced : (d.emit os).wadvanced = d.wadvanced := rfl
@[simp] theorem Dev.emit_trugWait : (d.emit os).trugWait = d.trugWait := rfl
@[simp] theorem Dev.emit_trugs : (d.emit os).trugs = d.trugs := rfl
@[simp] theorem Dev.emit_lost : (d.emit os).lost = d.lost := rfl
@[simp] theorem Dev.emit_chimeOut : (d.emit os).chimeOut = d.chimeOut := rfl
@[simp] theorem Dev.emit_wards : (d.emit os).wards = d.wards := rfl
@[simp] theorem Dev.emit_clks : (d.emit os).clks = d.clks := rfl
@[simp] theorem Dev.emit_lodges : (d.emit os).lodges = d.lodges := rfl
@[simp] theorem Dev.emit_hold : (d.emit os).hold = d.hold := rfl
@[simp] theorem Dev.emit_switch : (d.emit os).switch = d.switch := rfl
@[simp] theorem Dev.emit_pwr : (d.emit os).pwr = d.pwr := rfl
@[simp] theorem Dev.emit_trainT : (d.emit os).trainT = d.trainT := rfl
@[simp] theorem Dev.emit_scrub : (d.emit os).scrub = d.scrub := rfl
end

/-! ### setWord -/
section
variable (d : Dev) (b : Blk) (o : Nat) (w : Word)
@[simp] theorem Dev.setWord_now : (d.setWord b o w).now = d.now := rfl
@[simp] theorem Dev.setWord_sent : (d.setWord b o w).sent = d.sent := rfl
@[simp] theorem Dev.setWord_freeCnt : (d.setWord b o w).freeCnt = d.freeCnt := rfl
@[simp] theorem Dev.setWord_rsvlDoc : (d.setWord b o w).rsvlDoc = d.rsvlDoc := rfl
@[simp] theorem Dev.setWord_posted : (d.setWord b o w).posted = d.posted := rfl
@[simp] theorem Dev.setWord_hbm : (d.setWord b o w).hbm = d.hbm := rfl
@[simp] theorem Dev.setWord_gh : (d.setWord b o w).gh = d.gh := rfl
@[simp] theorem Dev.setWord_bench : (d.setWord b o w).bench = d.bench := rfl
@[simp] theorem Dev.setWord_tray : (d.setWord b o w).tray = d.tray := rfl
@[simp] theorem Dev.setWord_trayFree : (d.setWord b o w).trayFree = d.trayFree := rfl
@[simp] theorem Dev.setWord_synd : (d.setWord b o w).synd = d.synd := rfl
@[simp] theorem Dev.setWord_rewrites : (d.setWord b o w).rewrites = d.rewrites := rfl
@[simp] theorem Dev.setWord_clkOn : (d.setWord b o w).clkOn = d.clkOn := rfl
@[simp] theorem Dev.setWord_arrFail : (d.setWord b o w).arrFail = d.arrFail := rfl
@[simp] theorem Dev.setWord_defFail : (d.setWord b o w).defFail = d.defFail := rfl
@[simp] theorem Dev.setWord_arrNew : (d.setWord b o w).arrNew = d.arrNew := rfl
@[simp] theorem Dev.setWord_defNew : (d.setWord b o w).defNew = d.defNew := rfl
@[simp] theorem Dev.setWord_chime : (d.setWord b o w).chime = d.chime := rfl
@[simp] theorem Dev.setWord_beds : (d.setWord b o w).beds = d.beds := rfl
@[simp] theorem Dev.setWord_items : (d.setWord b o w).items = d.items := rfl
@[simp] theorem Dev.setWord_itemSeq : (d.setWord b o w).itemSeq = d.itemSeq := rfl
@[simp] theorem Dev.setWord_toIssue : (d.setWord b o w).toIssue = d.toIssue := rfl
@[simp] theorem Dev.setWord_shedFree : (d.setWord b o w).shedFree = d.shedFree := rfl
@[simp] theorem Dev.setWord_loader : (d.setWord b o w).loader = d.loader := rfl
@[simp] theorem Dev.setWord_owners : (d.setWord b o w).owners = d.owners := rfl
@[simp] theorem Dev.setWord_engFail : (d.setWord b o w).engFail = d.engFail := rfl
@[simp] theorem Dev.setWord_plots : (d.setWord b o w).plots = d.plots := rfl
@[simp] theorem Dev.setWord_furs : (d.setWord b o w).furs = d.furs := rfl
@[simp] theorem Dev.setWord_rills : (d.setWord b o w).rills = d.rills := rfl
@[simp] theorem Dev.setWord_sieves : (d.setWord b o w).sieves = d.sieves := rfl
@[simp] theorem Dev.setWord_mowers : (d.setWord b o w).mowers = d.mowers := rfl
@[simp] theorem Dev.setWord_claimed : (d.setWord b o w).claimed = d.claimed := rfl
@[simp] theorem Dev.setWord_taken : (d.setWord b o w).taken = d.taken := rfl
@[simp] theorem Dev.setWord_log : (d.setWord b o w).log = d.log := rfl
@[simp] theorem Dev.setWord_queues : (d.setWord b o w).queues = d.queues := rfl
@[simp] theorem Dev.setWord_hostCmds : (d.setWord b o w).hostCmds = d.hostCmds := rfl
@[simp] theorem Dev.setWord_fns : (d.setWord b o w).fns = d.fns := rfl
@[simp] theorem Dev.setWord_msix : (d.setWord b o w).msix = d.msix := rfl
@[simp] theorem Dev.setWord_msixPend : (d.setWord b o w).msixPend = d.msixPend := rfl
@[simp] theorem Dev.setWord_pcie0 : (d.setWord b o w).pcie0 = d.pcie0 := rfl
@[simp] theorem Dev.setWord_pcie1 : (d.setWord b o w).pcie1 = d.pcie1 := rfl
@[simp] theorem Dev.setWord_vfRegs : (d.setWord b o w).vfRegs = d.vfRegs := rfl
@[simp] theorem Dev.setWord_ports : (d.setWord b o w).ports = d.ports := rfl
@[simp] theorem Dev.setWord_gates : (d.setWord b o w).gates = d.gates := rfl
@[simp] theorem Dev.setWord_gateWaits : (d.setWord b o w).gateWaits = d.gateWaits := rfl
@[simp] theorem Dev.setWord_bars : (d.setWord b o w).bars = d.bars := rfl
@[simp] theorem Dev.setWord_msgId : (d.setWord b o w).msgId = d.msgId := rfl
@[simp] theorem Dev.setWord_wepochs : (d.setWord b o w).wepochs = d.wepochs := rfl
@[simp] theorem Dev.setWord_wadvanced : (d.setWord b o w).wadvanced = d.wadvanced := rfl
@[simp] theorem Dev.setWord_trugWait : (d.setWord b o w).trugWait = d.trugWait := rfl
@[simp] theorem Dev.setWord_trugs : (d.setWord b o w).trugs = d.trugs := rfl
@[simp] theorem Dev.setWord_lost : (d.setWord b o w).lost = d.lost := rfl
@[simp] theorem Dev.setWord_chimeOut : (d.setWord b o w).chimeOut = d.chimeOut := rfl
@[simp] theorem Dev.setWord_wards : (d.setWord b o w).wards = d.wards := rfl
@[simp] theorem Dev.setWord_clks : (d.setWord b o w).clks = d.clks := rfl
@[simp] theorem Dev.setWord_lodges : (d.setWord b o w).lodges = d.lodges := rfl
@[simp] theorem Dev.setWord_hold : (d.setWord b o w).hold = d.hold := rfl
@[simp] theorem Dev.setWord_switch : (d.setWord b o w).switch = d.switch := rfl
@[simp] theorem Dev.setWord_pwr : (d.setWord b o w).pwr = d.pwr := rfl
@[simp] theorem Dev.setWord_trainT : (d.setWord b o w).trainT = d.trainT := rfl
@[simp] theorem Dev.setWord_scrub : (d.setWord b o w).scrub = d.scrub := rfl
end

/-! ### setFldI -/
section
variable (d : Dev) (b : Blk) (f : Fld) (i v : Nat)
@[simp] theorem Dev.setFldI_now : (d.setFldI b f i v).now = d.now := rfl
@[simp] theorem Dev.setFldI_sent : (d.setFldI b f i v).sent = d.sent := rfl
@[simp] theorem Dev.setFldI_freeCnt : (d.setFldI b f i v).freeCnt = d.freeCnt := rfl
@[simp] theorem Dev.setFldI_rsvlDoc : (d.setFldI b f i v).rsvlDoc = d.rsvlDoc := rfl
@[simp] theorem Dev.setFldI_posted : (d.setFldI b f i v).posted = d.posted := rfl
@[simp] theorem Dev.setFldI_hbm : (d.setFldI b f i v).hbm = d.hbm := rfl
@[simp] theorem Dev.setFldI_gh : (d.setFldI b f i v).gh = d.gh := rfl
@[simp] theorem Dev.setFldI_bench : (d.setFldI b f i v).bench = d.bench := rfl
@[simp] theorem Dev.setFldI_tray : (d.setFldI b f i v).tray = d.tray := rfl
@[simp] theorem Dev.setFldI_trayFree : (d.setFldI b f i v).trayFree = d.trayFree := rfl
@[simp] theorem Dev.setFldI_synd : (d.setFldI b f i v).synd = d.synd := rfl
@[simp] theorem Dev.setFldI_rewrites : (d.setFldI b f i v).rewrites = d.rewrites := rfl
@[simp] theorem Dev.setFldI_clkOn : (d.setFldI b f i v).clkOn = d.clkOn := rfl
@[simp] theorem Dev.setFldI_arrFail : (d.setFldI b f i v).arrFail = d.arrFail := rfl
@[simp] theorem Dev.setFldI_defFail : (d.setFldI b f i v).defFail = d.defFail := rfl
@[simp] theorem Dev.setFldI_arrNew : (d.setFldI b f i v).arrNew = d.arrNew := rfl
@[simp] theorem Dev.setFldI_defNew : (d.setFldI b f i v).defNew = d.defNew := rfl
@[simp] theorem Dev.setFldI_chime : (d.setFldI b f i v).chime = d.chime := rfl
@[simp] theorem Dev.setFldI_beds : (d.setFldI b f i v).beds = d.beds := rfl
@[simp] theorem Dev.setFldI_items : (d.setFldI b f i v).items = d.items := rfl
@[simp] theorem Dev.setFldI_itemSeq : (d.setFldI b f i v).itemSeq = d.itemSeq := rfl
@[simp] theorem Dev.setFldI_toIssue : (d.setFldI b f i v).toIssue = d.toIssue := rfl
@[simp] theorem Dev.setFldI_shedFree : (d.setFldI b f i v).shedFree = d.shedFree := rfl
@[simp] theorem Dev.setFldI_loader : (d.setFldI b f i v).loader = d.loader := rfl
@[simp] theorem Dev.setFldI_owners : (d.setFldI b f i v).owners = d.owners := rfl
@[simp] theorem Dev.setFldI_engFail : (d.setFldI b f i v).engFail = d.engFail := rfl
@[simp] theorem Dev.setFldI_plots : (d.setFldI b f i v).plots = d.plots := rfl
@[simp] theorem Dev.setFldI_furs : (d.setFldI b f i v).furs = d.furs := rfl
@[simp] theorem Dev.setFldI_rills : (d.setFldI b f i v).rills = d.rills := rfl
@[simp] theorem Dev.setFldI_sieves : (d.setFldI b f i v).sieves = d.sieves := rfl
@[simp] theorem Dev.setFldI_mowers : (d.setFldI b f i v).mowers = d.mowers := rfl
@[simp] theorem Dev.setFldI_claimed : (d.setFldI b f i v).claimed = d.claimed := rfl
@[simp] theorem Dev.setFldI_taken : (d.setFldI b f i v).taken = d.taken := rfl
@[simp] theorem Dev.setFldI_log : (d.setFldI b f i v).log = d.log := rfl
@[simp] theorem Dev.setFldI_queues : (d.setFldI b f i v).queues = d.queues := rfl
@[simp] theorem Dev.setFldI_hostCmds : (d.setFldI b f i v).hostCmds = d.hostCmds := rfl
@[simp] theorem Dev.setFldI_fns : (d.setFldI b f i v).fns = d.fns := rfl
@[simp] theorem Dev.setFldI_msix : (d.setFldI b f i v).msix = d.msix := rfl
@[simp] theorem Dev.setFldI_msixPend : (d.setFldI b f i v).msixPend = d.msixPend := rfl
@[simp] theorem Dev.setFldI_pcie0 : (d.setFldI b f i v).pcie0 = d.pcie0 := rfl
@[simp] theorem Dev.setFldI_pcie1 : (d.setFldI b f i v).pcie1 = d.pcie1 := rfl
@[simp] theorem Dev.setFldI_vfRegs : (d.setFldI b f i v).vfRegs = d.vfRegs := rfl
@[simp] theorem Dev.setFldI_ports : (d.setFldI b f i v).ports = d.ports := rfl
@[simp] theorem Dev.setFldI_gates : (d.setFldI b f i v).gates = d.gates := rfl
@[simp] theorem Dev.setFldI_gateWaits : (d.setFldI b f i v).gateWaits = d.gateWaits := rfl
@[simp] theorem Dev.setFldI_bars : (d.setFldI b f i v).bars = d.bars := rfl
@[simp] theorem Dev.setFldI_msgId : (d.setFldI b f i v).msgId = d.msgId := rfl
@[simp] theorem Dev.setFldI_wepochs : (d.setFldI b f i v).wepochs = d.wepochs := rfl
@[simp] theorem Dev.setFldI_wadvanced : (d.setFldI b f i v).wadvanced = d.wadvanced := rfl
@[simp] theorem Dev.setFldI_trugWait : (d.setFldI b f i v).trugWait = d.trugWait := rfl
@[simp] theorem Dev.setFldI_trugs : (d.setFldI b f i v).trugs = d.trugs := rfl
@[simp] theorem Dev.setFldI_lost : (d.setFldI b f i v).lost = d.lost := rfl
@[simp] theorem Dev.setFldI_chimeOut : (d.setFldI b f i v).chimeOut = d.chimeOut := rfl
@[simp] theorem Dev.setFldI_wards : (d.setFldI b f i v).wards = d.wards := rfl
@[simp] theorem Dev.setFldI_clks : (d.setFldI b f i v).clks = d.clks := rfl
@[simp] theorem Dev.setFldI_lodges : (d.setFldI b f i v).lodges = d.lodges := rfl
@[simp] theorem Dev.setFldI_hold : (d.setFldI b f i v).hold = d.hold := rfl
@[simp] theorem Dev.setFldI_switch : (d.setFldI b f i v).switch = d.switch := rfl
@[simp] theorem Dev.setFldI_pwr : (d.setFldI b f i v).pwr = d.pwr := rfl
@[simp] theorem Dev.setFldI_trainT : (d.setFldI b f i v).trainT = d.trainT := rfl
@[simp] theorem Dev.setFldI_scrub : (d.setFldI b f i v).scrub = d.scrub := rfl
end

/-! ### setFld -/
section
variable (d : Dev) (b : Blk) (f : Fld) (v : Nat)
@[simp] theorem Dev.setFld_now : (d.setFld b f v).now = d.now := rfl
@[simp] theorem Dev.setFld_sent : (d.setFld b f v).sent = d.sent := rfl
@[simp] theorem Dev.setFld_freeCnt : (d.setFld b f v).freeCnt = d.freeCnt := rfl
@[simp] theorem Dev.setFld_rsvlDoc : (d.setFld b f v).rsvlDoc = d.rsvlDoc := rfl
@[simp] theorem Dev.setFld_posted : (d.setFld b f v).posted = d.posted := rfl
@[simp] theorem Dev.setFld_hbm : (d.setFld b f v).hbm = d.hbm := rfl
@[simp] theorem Dev.setFld_gh : (d.setFld b f v).gh = d.gh := rfl
@[simp] theorem Dev.setFld_bench : (d.setFld b f v).bench = d.bench := rfl
@[simp] theorem Dev.setFld_tray : (d.setFld b f v).tray = d.tray := rfl
@[simp] theorem Dev.setFld_trayFree : (d.setFld b f v).trayFree = d.trayFree := rfl
@[simp] theorem Dev.setFld_synd : (d.setFld b f v).synd = d.synd := rfl
@[simp] theorem Dev.setFld_rewrites : (d.setFld b f v).rewrites = d.rewrites := rfl
@[simp] theorem Dev.setFld_clkOn : (d.setFld b f v).clkOn = d.clkOn := rfl
@[simp] theorem Dev.setFld_arrFail : (d.setFld b f v).arrFail = d.arrFail := rfl
@[simp] theorem Dev.setFld_defFail : (d.setFld b f v).defFail = d.defFail := rfl
@[simp] theorem Dev.setFld_arrNew : (d.setFld b f v).arrNew = d.arrNew := rfl
@[simp] theorem Dev.setFld_defNew : (d.setFld b f v).defNew = d.defNew := rfl
@[simp] theorem Dev.setFld_chime : (d.setFld b f v).chime = d.chime := rfl
@[simp] theorem Dev.setFld_beds : (d.setFld b f v).beds = d.beds := rfl
@[simp] theorem Dev.setFld_items : (d.setFld b f v).items = d.items := rfl
@[simp] theorem Dev.setFld_itemSeq : (d.setFld b f v).itemSeq = d.itemSeq := rfl
@[simp] theorem Dev.setFld_toIssue : (d.setFld b f v).toIssue = d.toIssue := rfl
@[simp] theorem Dev.setFld_shedFree : (d.setFld b f v).shedFree = d.shedFree := rfl
@[simp] theorem Dev.setFld_loader : (d.setFld b f v).loader = d.loader := rfl
@[simp] theorem Dev.setFld_owners : (d.setFld b f v).owners = d.owners := rfl
@[simp] theorem Dev.setFld_engFail : (d.setFld b f v).engFail = d.engFail := rfl
@[simp] theorem Dev.setFld_plots : (d.setFld b f v).plots = d.plots := rfl
@[simp] theorem Dev.setFld_furs : (d.setFld b f v).furs = d.furs := rfl
@[simp] theorem Dev.setFld_rills : (d.setFld b f v).rills = d.rills := rfl
@[simp] theorem Dev.setFld_sieves : (d.setFld b f v).sieves = d.sieves := rfl
@[simp] theorem Dev.setFld_mowers : (d.setFld b f v).mowers = d.mowers := rfl
@[simp] theorem Dev.setFld_claimed : (d.setFld b f v).claimed = d.claimed := rfl
@[simp] theorem Dev.setFld_taken : (d.setFld b f v).taken = d.taken := rfl
@[simp] theorem Dev.setFld_log : (d.setFld b f v).log = d.log := rfl
@[simp] theorem Dev.setFld_queues : (d.setFld b f v).queues = d.queues := rfl
@[simp] theorem Dev.setFld_hostCmds : (d.setFld b f v).hostCmds = d.hostCmds := rfl
@[simp] theorem Dev.setFld_fns : (d.setFld b f v).fns = d.fns := rfl
@[simp] theorem Dev.setFld_msix : (d.setFld b f v).msix = d.msix := rfl
@[simp] theorem Dev.setFld_msixPend : (d.setFld b f v).msixPend = d.msixPend := rfl
@[simp] theorem Dev.setFld_pcie0 : (d.setFld b f v).pcie0 = d.pcie0 := rfl
@[simp] theorem Dev.setFld_pcie1 : (d.setFld b f v).pcie1 = d.pcie1 := rfl
@[simp] theorem Dev.setFld_vfRegs : (d.setFld b f v).vfRegs = d.vfRegs := rfl
@[simp] theorem Dev.setFld_ports : (d.setFld b f v).ports = d.ports := rfl
@[simp] theorem Dev.setFld_gates : (d.setFld b f v).gates = d.gates := rfl
@[simp] theorem Dev.setFld_gateWaits : (d.setFld b f v).gateWaits = d.gateWaits := rfl
@[simp] theorem Dev.setFld_bars : (d.setFld b f v).bars = d.bars := rfl
@[simp] theorem Dev.setFld_msgId : (d.setFld b f v).msgId = d.msgId := rfl
@[simp] theorem Dev.setFld_wepochs : (d.setFld b f v).wepochs = d.wepochs := rfl
@[simp] theorem Dev.setFld_wadvanced : (d.setFld b f v).wadvanced = d.wadvanced := rfl
@[simp] theorem Dev.setFld_trugWait : (d.setFld b f v).trugWait = d.trugWait := rfl
@[simp] theorem Dev.setFld_trugs : (d.setFld b f v).trugs = d.trugs := rfl
@[simp] theorem Dev.setFld_lost : (d.setFld b f v).lost = d.lost := rfl
@[simp] theorem Dev.setFld_chimeOut : (d.setFld b f v).chimeOut = d.chimeOut := rfl
@[simp] theorem Dev.setFld_wards : (d.setFld b f v).wards = d.wards := rfl
@[simp] theorem Dev.setFld_clks : (d.setFld b f v).clks = d.clks := rfl
@[simp] theorem Dev.setFld_lodges : (d.setFld b f v).lodges = d.lodges := rfl
@[simp] theorem Dev.setFld_hold : (d.setFld b f v).hold = d.hold := rfl
@[simp] theorem Dev.setFld_switch : (d.setFld b f v).switch = d.switch := rfl
@[simp] theorem Dev.setFld_pwr : (d.setFld b f v).pwr = d.pwr := rfl
@[simp] theorem Dev.setFld_trainT : (d.setFld b f v).trainT = d.trainT := rfl
@[simp] theorem Dev.setFld_scrub : (d.setFld b f v).scrub = d.scrub := rfl
end

/-! ### countSat -/
section
variable (d : Dev) (b : Blk) (f : Fld) (n : Nat)
@[simp] theorem Dev.countSat_now : (d.countSat b f n).now = d.now := rfl
@[simp] theorem Dev.countSat_sent : (d.countSat b f n).sent = d.sent := rfl
@[simp] theorem Dev.countSat_freeCnt : (d.countSat b f n).freeCnt = d.freeCnt := rfl
@[simp] theorem Dev.countSat_rsvlDoc : (d.countSat b f n).rsvlDoc = d.rsvlDoc := rfl
@[simp] theorem Dev.countSat_posted : (d.countSat b f n).posted = d.posted := rfl
@[simp] theorem Dev.countSat_hbm : (d.countSat b f n).hbm = d.hbm := rfl
@[simp] theorem Dev.countSat_gh : (d.countSat b f n).gh = d.gh := rfl
@[simp] theorem Dev.countSat_bench : (d.countSat b f n).bench = d.bench := rfl
@[simp] theorem Dev.countSat_tray : (d.countSat b f n).tray = d.tray := rfl
@[simp] theorem Dev.countSat_trayFree : (d.countSat b f n).trayFree = d.trayFree := rfl
@[simp] theorem Dev.countSat_synd : (d.countSat b f n).synd = d.synd := rfl
@[simp] theorem Dev.countSat_rewrites : (d.countSat b f n).rewrites = d.rewrites := rfl
@[simp] theorem Dev.countSat_clkOn : (d.countSat b f n).clkOn = d.clkOn := rfl
@[simp] theorem Dev.countSat_arrFail : (d.countSat b f n).arrFail = d.arrFail := rfl
@[simp] theorem Dev.countSat_defFail : (d.countSat b f n).defFail = d.defFail := rfl
@[simp] theorem Dev.countSat_arrNew : (d.countSat b f n).arrNew = d.arrNew := rfl
@[simp] theorem Dev.countSat_defNew : (d.countSat b f n).defNew = d.defNew := rfl
@[simp] theorem Dev.countSat_chime : (d.countSat b f n).chime = d.chime := rfl
@[simp] theorem Dev.countSat_beds : (d.countSat b f n).beds = d.beds := rfl
@[simp] theorem Dev.countSat_items : (d.countSat b f n).items = d.items := rfl
@[simp] theorem Dev.countSat_itemSeq : (d.countSat b f n).itemSeq = d.itemSeq := rfl
@[simp] theorem Dev.countSat_toIssue : (d.countSat b f n).toIssue = d.toIssue := rfl
@[simp] theorem Dev.countSat_shedFree : (d.countSat b f n).shedFree = d.shedFree := rfl
@[simp] theorem Dev.countSat_loader : (d.countSat b f n).loader = d.loader := rfl
@[simp] theorem Dev.countSat_owners : (d.countSat b f n).owners = d.owners := rfl
@[simp] theorem Dev.countSat_engFail : (d.countSat b f n).engFail = d.engFail := rfl
@[simp] theorem Dev.countSat_plots : (d.countSat b f n).plots = d.plots := rfl
@[simp] theorem Dev.countSat_furs : (d.countSat b f n).furs = d.furs := rfl
@[simp] theorem Dev.countSat_rills : (d.countSat b f n).rills = d.rills := rfl
@[simp] theorem Dev.countSat_sieves : (d.countSat b f n).sieves = d.sieves := rfl
@[simp] theorem Dev.countSat_mowers : (d.countSat b f n).mowers = d.mowers := rfl
@[simp] theorem Dev.countSat_claimed : (d.countSat b f n).claimed = d.claimed := rfl
@[simp] theorem Dev.countSat_taken : (d.countSat b f n).taken = d.taken := rfl
@[simp] theorem Dev.countSat_log : (d.countSat b f n).log = d.log := rfl
@[simp] theorem Dev.countSat_queues : (d.countSat b f n).queues = d.queues := rfl
@[simp] theorem Dev.countSat_hostCmds : (d.countSat b f n).hostCmds = d.hostCmds := rfl
@[simp] theorem Dev.countSat_fns : (d.countSat b f n).fns = d.fns := rfl
@[simp] theorem Dev.countSat_msix : (d.countSat b f n).msix = d.msix := rfl
@[simp] theorem Dev.countSat_msixPend : (d.countSat b f n).msixPend = d.msixPend := rfl
@[simp] theorem Dev.countSat_pcie0 : (d.countSat b f n).pcie0 = d.pcie0 := rfl
@[simp] theorem Dev.countSat_pcie1 : (d.countSat b f n).pcie1 = d.pcie1 := rfl
@[simp] theorem Dev.countSat_vfRegs : (d.countSat b f n).vfRegs = d.vfRegs := rfl
@[simp] theorem Dev.countSat_ports : (d.countSat b f n).ports = d.ports := rfl
@[simp] theorem Dev.countSat_gates : (d.countSat b f n).gates = d.gates := rfl
@[simp] theorem Dev.countSat_gateWaits : (d.countSat b f n).gateWaits = d.gateWaits := rfl
@[simp] theorem Dev.countSat_bars : (d.countSat b f n).bars = d.bars := rfl
@[simp] theorem Dev.countSat_msgId : (d.countSat b f n).msgId = d.msgId := rfl
@[simp] theorem Dev.countSat_wepochs : (d.countSat b f n).wepochs = d.wepochs := rfl
@[simp] theorem Dev.countSat_wadvanced : (d.countSat b f n).wadvanced = d.wadvanced := rfl
@[simp] theorem Dev.countSat_trugWait : (d.countSat b f n).trugWait = d.trugWait := rfl
@[simp] theorem Dev.countSat_trugs : (d.countSat b f n).trugs = d.trugs := rfl
@[simp] theorem Dev.countSat_lost : (d.countSat b f n).lost = d.lost := rfl
@[simp] theorem Dev.countSat_chimeOut : (d.countSat b f n).chimeOut = d.chimeOut := rfl
@[simp] theorem Dev.countSat_wards : (d.countSat b f n).wards = d.wards := rfl
@[simp] theorem Dev.countSat_clks : (d.countSat b f n).clks = d.clks := rfl
@[simp] theorem Dev.countSat_lodges : (d.countSat b f n).lodges = d.lodges := rfl
@[simp] theorem Dev.countSat_hold : (d.countSat b f n).hold = d.hold := rfl
@[simp] theorem Dev.countSat_switch : (d.countSat b f n).switch = d.switch := rfl
@[simp] theorem Dev.countSat_pwr : (d.countSat b f n).pwr = d.pwr := rfl
@[simp] theorem Dev.countSat_trainT : (d.countSat b f n).trainT = d.trainT := rfl
@[simp] theorem Dev.countSat_scrub : (d.countSat b f n).scrub = d.scrub := rfl
end

/-! ### countWrap -/
section
variable (d : Dev) (b : Blk) (f : Fld) (n : Nat)
@[simp] theorem Dev.countWrap_now : (d.countWrap b f n).now = d.now := rfl
@[simp] theorem Dev.countWrap_sent : (d.countWrap b f n).sent = d.sent := rfl
@[simp] theorem Dev.countWrap_freeCnt : (d.countWrap b f n).freeCnt = d.freeCnt := rfl
@[simp] theorem Dev.countWrap_rsvlDoc : (d.countWrap b f n).rsvlDoc = d.rsvlDoc := rfl
@[simp] theorem Dev.countWrap_posted : (d.countWrap b f n).posted = d.posted := rfl
@[simp] theorem Dev.countWrap_hbm : (d.countWrap b f n).hbm = d.hbm := rfl
@[simp] theorem Dev.countWrap_gh : (d.countWrap b f n).gh = d.gh := rfl
@[simp] theorem Dev.countWrap_bench : (d.countWrap b f n).bench = d.bench := rfl
@[simp] theorem Dev.countWrap_tray : (d.countWrap b f n).tray = d.tray := rfl
@[simp] theorem Dev.countWrap_trayFree : (d.countWrap b f n).trayFree = d.trayFree := rfl
@[simp] theorem Dev.countWrap_synd : (d.countWrap b f n).synd = d.synd := rfl
@[simp] theorem Dev.countWrap_rewrites : (d.countWrap b f n).rewrites = d.rewrites := rfl
@[simp] theorem Dev.countWrap_clkOn : (d.countWrap b f n).clkOn = d.clkOn := rfl
@[simp] theorem Dev.countWrap_arrFail : (d.countWrap b f n).arrFail = d.arrFail := rfl
@[simp] theorem Dev.countWrap_defFail : (d.countWrap b f n).defFail = d.defFail := rfl
@[simp] theorem Dev.countWrap_arrNew : (d.countWrap b f n).arrNew = d.arrNew := rfl
@[simp] theorem Dev.countWrap_defNew : (d.countWrap b f n).defNew = d.defNew := rfl
@[simp] theorem Dev.countWrap_chime : (d.countWrap b f n).chime = d.chime := rfl
@[simp] theorem Dev.countWrap_beds : (d.countWrap b f n).beds = d.beds := rfl
@[simp] theorem Dev.countWrap_items : (d.countWrap b f n).items = d.items := rfl
@[simp] theorem Dev.countWrap_itemSeq : (d.countWrap b f n).itemSeq = d.itemSeq := rfl
@[simp] theorem Dev.countWrap_toIssue : (d.countWrap b f n).toIssue = d.toIssue := rfl
@[simp] theorem Dev.countWrap_shedFree : (d.countWrap b f n).shedFree = d.shedFree := rfl
@[simp] theorem Dev.countWrap_loader : (d.countWrap b f n).loader = d.loader := rfl
@[simp] theorem Dev.countWrap_owners : (d.countWrap b f n).owners = d.owners := rfl
@[simp] theorem Dev.countWrap_engFail : (d.countWrap b f n).engFail = d.engFail := rfl
@[simp] theorem Dev.countWrap_plots : (d.countWrap b f n).plots = d.plots := rfl
@[simp] theorem Dev.countWrap_furs : (d.countWrap b f n).furs = d.furs := rfl
@[simp] theorem Dev.countWrap_rills : (d.countWrap b f n).rills = d.rills := rfl
@[simp] theorem Dev.countWrap_sieves : (d.countWrap b f n).sieves = d.sieves := rfl
@[simp] theorem Dev.countWrap_mowers : (d.countWrap b f n).mowers = d.mowers := rfl
@[simp] theorem Dev.countWrap_claimed : (d.countWrap b f n).claimed = d.claimed := rfl
@[simp] theorem Dev.countWrap_taken : (d.countWrap b f n).taken = d.taken := rfl
@[simp] theorem Dev.countWrap_log : (d.countWrap b f n).log = d.log := rfl
@[simp] theorem Dev.countWrap_queues : (d.countWrap b f n).queues = d.queues := rfl
@[simp] theorem Dev.countWrap_hostCmds : (d.countWrap b f n).hostCmds = d.hostCmds := rfl
@[simp] theorem Dev.countWrap_fns : (d.countWrap b f n).fns = d.fns := rfl
@[simp] theorem Dev.countWrap_msix : (d.countWrap b f n).msix = d.msix := rfl
@[simp] theorem Dev.countWrap_msixPend : (d.countWrap b f n).msixPend = d.msixPend := rfl
@[simp] theorem Dev.countWrap_pcie0 : (d.countWrap b f n).pcie0 = d.pcie0 := rfl
@[simp] theorem Dev.countWrap_pcie1 : (d.countWrap b f n).pcie1 = d.pcie1 := rfl
@[simp] theorem Dev.countWrap_vfRegs : (d.countWrap b f n).vfRegs = d.vfRegs := rfl
@[simp] theorem Dev.countWrap_ports : (d.countWrap b f n).ports = d.ports := rfl
@[simp] theorem Dev.countWrap_gates : (d.countWrap b f n).gates = d.gates := rfl
@[simp] theorem Dev.countWrap_gateWaits : (d.countWrap b f n).gateWaits = d.gateWaits := rfl
@[simp] theorem Dev.countWrap_bars : (d.countWrap b f n).bars = d.bars := rfl
@[simp] theorem Dev.countWrap_msgId : (d.countWrap b f n).msgId = d.msgId := rfl
@[simp] theorem Dev.countWrap_wepochs : (d.countWrap b f n).wepochs = d.wepochs := rfl
@[simp] theorem Dev.countWrap_wadvanced : (d.countWrap b f n).wadvanced = d.wadvanced := rfl
@[simp] theorem Dev.countWrap_trugWait : (d.countWrap b f n).trugWait = d.trugWait := rfl
@[simp] theorem Dev.countWrap_trugs : (d.countWrap b f n).trugs = d.trugs := rfl
@[simp] theorem Dev.countWrap_lost : (d.countWrap b f n).lost = d.lost := rfl
@[simp] theorem Dev.countWrap_chimeOut : (d.countWrap b f n).chimeOut = d.chimeOut := rfl
@[simp] theorem Dev.countWrap_wards : (d.countWrap b f n).wards = d.wards := rfl
@[simp] theorem Dev.countWrap_clks : (d.countWrap b f n).clks = d.clks := rfl
@[simp] theorem Dev.countWrap_lodges : (d.countWrap b f n).lodges = d.lodges := rfl
@[simp] theorem Dev.countWrap_hold : (d.countWrap b f n).hold = d.hold := rfl
@[simp] theorem Dev.countWrap_switch : (d.countWrap b f n).switch = d.switch := rfl
@[simp] theorem Dev.countWrap_pwr : (d.countWrap b f n).pwr = d.pwr := rfl
@[simp] theorem Dev.countWrap_trainT : (d.countWrap b f n).trainT = d.trainT := rfl
@[simp] theorem Dev.countWrap_scrub : (d.countWrap b f n).scrub = d.scrub := rfl
end

@[simp] theorem Dev.touch_now (d : Dev) (t : Nat) : (d.touch t).now = max d.now t := rfl
@[simp] theorem Dev.emit_sent (d : Dev) (os : List Out) : (d.emit os).sent = d.sent ++ os := rfl
@[simp] theorem Dev.setWord_regs (d : Dev) (b : Blk) (o : Nat) (w : Word) :
    (d.setWord b o w).regs = Tbl.set regReset d.regs (b.base + o) w := rfl

end Machine
end Sys2Proof
end

