-- ==== Sys2Proof/Laws/Run.lean ====
section
/-! SUPPORT. What the shared forms of commands do: every command that runs in a block, takes place whatever its registers hold,
or is an access, answers one of the outcomes said here. -/
namespace Sys2Proof
namespace Machine

variable {s s' : State} {t o : Nat} {b : Blk} {src : Source} {f : Dev → Dev}

theorem State.run_of_live (h : s.live b) : s.run t b f = .next ⟨s.pending, f (s.dev.touch t)⟩ := by
  obtain ⟨h1, h2⟩ : s.dev.altered b = false ∧ s.dev.dark b = false := by simpa [State.live] using h
  simp [State.run, h1, h2]

theorem State.run_of_altered (h : s.dev.altered b = true) : s.run t b f = .fault .reservedLive := by
  simp [State.run, h]

theorem State.run_of_dark (h : s.dev.altered b = false) (hd : s.dev.dark b = true) :
    s.run t b f = .next ⟨s.pending, s.dev.touch t⟩ := by
  simp [State.run, h, hd]

theorem State.go_eq : s.go t f = .next ⟨s.pending, f (s.dev.touch t)⟩ := rfl

/-- All that `run` can answer. -/
theorem State.run_cases : (s.dev.altered b = true ∧ s.run t b f = .fault .reservedLive) ∨
    s.run t b f = .next ⟨s.pending, s.dev.touch t⟩ ∨ s.run t b f = .next ⟨s.pending, f (s.dev.touch t)⟩ := by
  unfold State.run
  split
  · exact .inl ⟨‹_›, rfl⟩
  · split
    · exact .inr (.inl rfl)
    · exact .inr (.inr rfl)

/-- All that `access` can answer. -/
theorem State.access_cases : (s.dev.altered b = true ∧ s.access t src b f = .fault .reservedLive) ∨
    s.access t src b f = .next ⟨s.pending, s.dev.touch t⟩ ∨
    s.access t src b f = .next ⟨s.pending, (s.dev.touch t).wake 0⟩ ∨
    s.access t src b f = .next ⟨s.pending, f (s.dev.touch t)⟩ := by
  unfold State.access
  split
  · exact .inr (.inr (.inl rfl))
  · rcases State.run_cases (s := s) (t := t) (b := b) (f := f) with h | h | h
    · exact .inl h
    · exact .inr (.inl h)
    · exact .inr (.inr (.inr h))

theorem State.access_of_awake (h : (src.isHost && s.dev.asleep) = false) : s.access t src b f = s.run t b f := by
  simp [State.access, h]

/-- A word that a write elsewhere leaves as it was. -/
theorem Dev.word_setWord_ne {d : Dev} {b' : Blk} {o' : Nat} {w : Word} (h : b'.base + o' ≠ b.base + o) :
    (d.setWord b o w).word b' o' = d.word b' o' := Tbl.get_set_ne h

/-- A word read back from a canonical register table. -/
theorem Dev.word_setWord {d : Dev} {w : Word} (h : Tbl.wf regReset d.regs = true) : (d.setWord b o w).word b o = w := by
  simp [Dev.word, Tbl.get_set h]

/-- A field of another register is as it was. -/
theorem Dev.fld_setFld_ne {d : Dev} {b' : Blk} {g f : Fld} {v : Nat} (h : b'.base + g.off ≠ b.base + f.off) :
    (d.setFld b f v).fld b' g = d.fld b' g := by
  unfold Dev.fld Dev.fldI Dev.setFld Dev.setFldI
  rw [Dev.word_setWord_ne (by simpa [Fld.offAt] using h)]

theorem Dev.diePair_wakeIdle (d : Dev) (b : Blk) (k : Nat) : (d.wakeIdle b).diePair k = d.diePair k := by
  unfold Dev.wakeIdle
  split
  · unfold Dev.diePair
    rw [Dev.fld_setFld_ne (by simp [Blk.base, Reg.DIE_WEPOCH.EPOCH, Reg.POWER_STS.STATE]; omega),
      Dev.fld_setFld_ne (by simp [Blk.base, Reg.DIE_WARDEN_STS.LODGE, Reg.POWER_STS.STATE]; omega)]
  · rfl

theorem Dev.lodgePair_wakeIdle (d : Dev) (b : Blk) (l : Nat) : (d.wakeIdle b).lodgePair l = d.lodgePair l := by
  unfold Dev.wakeIdle
  split
  · unfold Dev.lodgePair
    rw [Dev.fld_setFld_ne (by simp [Blk.base, Reg.WARDEN_EPOCH.EPOCH, Reg.POWER_STS.STATE]; omega)]
  · rfl

/-! ### What the terms of claims hold of a state -/

theorem State.live_split (h : s.live b) : s.dev.altered b = false ∧ s.dev.dark b = false := by
  simpa [State.live] using h

theorem State.reached_split (h : s.reached src) :
    (src.isHost && s.dev.asleep) = false ∧ s.dev.answers src = true ∧ s.dev.noSuchFn src = false := by
  simp only [State.reached, Bool.and_eq_true, Bool.not_eq_true', and_assoc] at h
  exact h

theorem State.writable_split {w : WriteAccess} (h : s.writable w b o) :
    s.dev.writeErr w = none ∧ w.src.lists b o = true ∧ s.dev.lostCopy w.src b o = false ∧
      s.dev.pairHeld w.src.lodge b = true := by
  simpa [State.writable, and_assoc] using h

theorem State.acceptsWrite_split {w : WriteAccess} (h : s.acceptsWrite w b) :
    s.dev.dark b = false ∧ s.reached w.src = true ∧ target w.src w.addr = some (b, false) ∧
      s.writable w b (w.addr % 0x4000) = true := by
  simpa [State.acceptsWrite, and_assoc] using h

theorem State.accepts_split (h : s.accepts src b o) :
    s.live b = true ∧ s.reached src = true ∧ s.writable (wordWrite src b o) b o = true := by
  simpa [State.accepts, and_assoc] using h

theorem State.acceptsRead_split {a : Nat} (h : s.acceptsRead src b a) :
    s.live b = true ∧ s.reached src = true ∧ target src a = some (b, false) ∧ s.dev.readErr src a 4 = none := by
  simpa [State.acceptsRead, and_assoc] using h

/-! ### Writes -/

/-- A control write in order has its effect on the device as acceptance leaves it. -/
theorem Dev.controlWrite_of_pairHeld (h : s.dev.pairHeld src.lodge b) :
    (((s.dev.touch t).wakeIdle b).emit [.answer src .done]).controlWrite ((s.dev.touch t).lodgePair src.lodge) b f
      = f (s.written t src b) := by
  unfold Dev.pairHeld at h
  simp only [Dev.controlWrite, State.written]
  cases hk : b.dieOf with
  | none => rfl
  | some k =>
    rw [hk] at h
    have hq : (((s.dev.touch t).wakeIdle b).emit [.answer src .done]).diePair k = (s.dev.touch t).lodgePair src.lodge :=
      (Dev.diePair_wakeIdle _ _ _).trans (beq_iff_eq.mp h)
    simp [hq, Dev.lodgePair]

/-- A write in order and answered has its effect on the device as acceptance leaves it, at any later instant too. -/
theorem State.rowWrite_of_writable (ha : s.dev.answers src = true) (h : s.writable (wordWrite src b o) b o) :
    (s.dev.touch t).rowWrite src b o f = f (s.written t src b) := by
  obtain ⟨he, hs, hl, hp⟩ := State.writable_split h
  have ha' : (s.dev.touch t).answers src = true := ha
  have he' : (s.dev.touch t).writeErr (wordWrite src b o) = none := he
  have hs' : src.lists b o = true := hs
  have hl' : (s.dev.touch t).lostCopy src b o = false := hl
  simp only [Dev.rowWrite, ha', he', hs', hl', Bool.not_true, Bool.not_false, Bool.and_self, Bool.false_eq_true, if_false, if_true]
  exact Dev.controlWrite_of_pairHeld hp

/-- An accepted write has its effect on the device as acceptance leaves it. -/
theorem State.access_accepted (h : s.accepts src b o) :
    s.access t src b (fun d => d.rowWrite src b o f) = .next ⟨s.pending, f (s.written t src b)⟩ := by
  obtain ⟨hv, hr, hw⟩ := State.accepts_split h
  obtain ⟨hs, ha, _⟩ := State.reached_split hr
  rw [State.access_of_awake hs, State.run_of_live hv, State.rowWrite_of_writable ha hw]

/-- The first error of Table 4.4 is what a refused write ends with. -/
theorem Dev.rowWrite_refused {d : Dev} {e : AccErr} (ha : d.answers src = true)
    (he : d.writeErr (wordWrite src b o) = some e) :
    d.rowWrite src b o f = d.refuseWrite src (reachOffset src b + o) e := by
  simp [Dev.rowWrite, ha, he]

end Machine
end Sys2Proof
end

