-- ==== Sys2Proof/WellFormed.lean ====
section
/-! DEFINITION. Which commands name only things that the DN-8 has: every number of a die, lodge, plot, engine, bed, port or queue
lies in its range (01, 04 Tables 4.6 to 4.8). A command that is not well formed befalls no device; the meanings are total on
it all the same. -/
namespace Sys2Proof
open Machine

/-! ### Ranges -/

/-- A die, a lodge, a plot, a rill, a Sieve of a die (01 R7). -/
def dieOk (n : Nat) : Bool := decide (n < 8)
def lodgeOk (n : Nat) : Bool := decide (n < 2)
def plotOk (n : Nat) : Bool := decide (n < 68)
def rillOk (n : Nat) : Bool := decide (n < 16)
def sieveOk (n : Nat) : Bool := decide (n < 4)

/-- A bed slot of a shed sequencer, a bed of the device (02). -/
def slotOk (n : Nat) : Bool := decide (n < 32)
def bedOk (n : Nat) : Bool := decide (n < 64)

/-- A furrow of a plot (09), a bank of a glasshouse (09 R229). -/
def furrowOk (n : Nat) : Bool := decide (n < 32)
def bankOk (n : Nat) : Bool := decide (n < 8)

/-- An HBM stack, a pseudo-channel of one (10 R234). -/
def stackOk (n : Nat) : Bool := decide (n < 16)
def pseudoOk (n : Nat) : Bool := decide (n < 32)

/-- An Obotil port, a gate, a Trug or barrier group (13, 14). -/
def obotilOk (n : Nat) : Bool := decide (n < 8)
def gateOk (n : Nat) : Bool := decide (n < 4096)
def groupOk (n : Nat) : Bool := decide (n < 16)

/-- A PCIe function of a port or a doorbell page, a queue (15 R359, R364). -/
def functionOk (n : Nat) : Bool := decide (n < 256)
def queueOk (n : Nat) : Bool := decide (n < 65536)

/-- A keeper of a lodge (16). -/
def coreOk (n : Nat) : Bool := decide (n < 16)

/-! ### Operands with parts -/

/-- A source of register accesses (Table 4.6). -/
def Machine.Source.wf : Source → Bool
  | .keeper l c => lodgeOk l && coreOk c
  | .gatehouse l => lodgeOk l
  | .jtag l => lodgeOk l
  | .pcie p fn => lodgeOk p && functionOk fn

/-- A unit that produces or consumes barrows. -/
def Machine.Agent.wf : Agent → Bool
  | .rill d e => dieOk d && rillOk e
  | .plot d p => dieOk d && plotOk p
  | .sieve d v => dieOk d && sieveOk v
  | .mower d => dieOk d
  | .trug | .software => true

/-- A block of BAR0. -/
def Machine.Blk.wf : Blk → Bool
  | .lodgeCtl l | .warden l | .clock l | .security l => lodgeOk l
  | .chime | .trellis | .power | .fault | .queue | .trug => true
  | .obotil n => obotilOk n
  | .dieCtl k | .lattice k | .shed k | .mower k | .gh k => dieOk k
  | .hbmCtl k c => dieOk k && lodgeOk c
  | .rill k e => dieOk k && rillOk e
  | .sieve k v => dieOk k && sieveOk v
  | .plot k p => dieOk k && plotOk p

/-- A bench access, through one of the four ports of Table 9.1. -/
def Machine.BenchAccess.wf (a : BenchAccess) : Bool := a.agent.wf && dieOk a.die && plotOk a.plot && furrowOk a.fur && decide (a.port < 4)

/-- A memory request; the dies whose crossings it waited for exist. -/
def Machine.MemReq.wf (r : MemReq) : Bool :=
  r.src.wf && (match r.agent with | some a => a.wf | none => true) && r.crossing.all (fun x => dieOk x.1)

/-- Who issued a host request. -/
def Machine.Requester.wf : Requester → Bool
  | .rill d e => dieOk d && rillOk e
  | .fetch q | .cqWrite q => queueOk q
  | .copy q _ => queueOk q

/-- What a gate command comes from. -/
def Machine.GateBy.wf : GateBy → Bool
  | .item b => bedOk b
  | .reg src => src.wf

/-- What a scrubber reads. -/
def Machine.ScrubUnit.wf : ScrubUnit → Bool
  | .hbm k => stackOk k
  | .sram k => dieOk k

/-- Where a check of control state fails. -/
def Machine.Mismatch.wf : Mismatch → Bool
  | .block b => b.wf
  | .keeper l c => lodgeOk l && coreOk c

/-! ### Commands -/

/-- The command names only things that exist. -/
def Instr.wf : Instr → Bool
  | .registerWrite _ w => w.src.wf
  | .postedWriteApply _ b => b.wf
  | .chimeCountLoRead _ src => src.wf
  | .powerMeasRead _ src => src.wf
  | .idleBlockAccess _ _ w => w.src.wf
  | .chimeEnableSet _ src => src.wf
  | .chimeEnableClear _ src => src.wf
  | .chimeSourceChange _ src _ => src.wf
  | .chimePeriodWrite _ src _ => src.wf
  | .chime _ => true
  | .closingPoint _ => true
  | .markerEmit _ => true
  | .markerReceive _ port _ => obotilOk port
  | .markerMiss _ => true
  | .chimeInEdge _ => true
  | .chimeInMiss _ => true
  | .heldItemIssue _ die _ _ => dieOk die
  | .bedRunSet _ src die slot => src.wf && dieOk die && slotOk slot
  | .bedRunClear _ src die slot => src.wf && dieOk die && slotOk slot
  | .trellisLoad _ src => src.wf
  | .trellisLoadDone _ => true
  | .trellisReplant _ src _ => src.wf
  | .replantArmed _ => true
  | .replantDrainEnd _ => true
  | .replantConfigEnd _ => true
  | .trellisAbort _ src => src.wf
  | .passIssue _ die plot => dieOk die && plotOk plot
  | .stationaryLoad _ die plot => dieOk die && plotOk plot
  | .stationaryLoadDone _ die plot => dieOk die && plotOk plot
  | .passStart _ die plot => dieOk die && plotOk plot
  | .movingVectorArrive _ die plot => dieOk die && plotOk plot
  | .passRetire _ die plot => dieOk die && plotOk plot
  | .passAbandon _ die plot _ => dieOk die && plotOk plot
  | .retestEnd _ die plot _ => dieOk die && plotOk plot
  | .preempt _ src die plot => src.wf && dieOk die && plotOk plot
  | .preemptBoundary _ die plot => dieOk die && plotOk plot
  | .accSpillDone _ die plot => dieOk die && plotOk plot
  | .resume _ src die plot => src.wf && dieOk die && plotOk plot
  | .accRestoreDone _ die plot => dieOk die && plotOk plot
  | .retest _ src die plot => src.wf && dieOk die && plotOk plot
  | .transposeBlockEmit _ die rill => dieOk die && rillOk rill
  | .benchAccessIssue _ a => a.wf
  | .latticeBenchRequest _ a _ => a.wf
  | .benchRequestResend _ a => a.wf
  | .ceRewrite _ _ => true
  | .furrowReset _ src die plot fur => src.wf && dieOk die && plotOk plot && furrowOk fur
  | .furCfgWrite _ src die plot fur _ => src.wf && dieOk die && plotOk plot && furrowOk fur
  | .glasshouseRequest _ die bank reqs => dieOk die && bankOk bank && reqs.all (fun r => r.wf)
  | .hbmRequest _ stack pc reqs => stackOk stack && pseudoOk pc && reqs.all (fun r => r.wf)
  | .rillDescStart _ die rill => dieOk die && rillOk rill
  | .barrowClaim _ agent q => agent.wf && queueOk q
  | .barrowPost _ agent q _ => agent.wf && queueOk q
  | .barrowTake _ agent q => agent.wf && queueOk q
  | .barrowRelease _ agent q => agent.wf && queueOk q
  | .rillFault _ die rill _ => dieOk die && rillOk rill
  | .pageRequestResponse _ req _ => req.wf
  | .rillResume _ src die rill => src.wf && dieOk die && rillOk rill
  | .rillFail _ src die rill => src.wf && dieOk die && rillOk rill
  | .rillCancel _ src die rill => src.wf && dieOk die && rillOk rill
  | .cancelDone _ die rill => dieOk die && rillOk rill
  | .inval _ src die rill => src.wf && dieOk die && rillOk rill
  | .sieveIssue _ die sieve => dieOk die && sieveOk sieve
  | .sieveStart _ die sieve => dieOk die && sieveOk sieve
  | .sieveRetire _ die sieve _ => dieOk die && sieveOk sieve
  | .trayClear _ src die sieve => src.wf && dieOk die && sieveOk sieve
  | .trayClearDone _ die sieve => dieOk die && sieveOk sieve
  | .sieveTrayWrite _ src die sieve _ => src.wf && dieOk die && sieveOk sieve
  | .mowerIssue _ die => dieOk die
  | .mowerNorm _ die => dieOk die
  | .mowerUpdate _ die _ => dieOk die
  | .mowerCopy _ die _ => dieOk die
  | .mowerAdopt _ src die => src.wf && dieOk die
  | .mowerDiscard _ src die => src.wf && dieOk die
  | .mowerRetire _ die => dieOk die
  | .mowerMirrorWrite _ src die _ _ => src.wf && dieOk die
  | .trugIssue _ bed => bedOk bed
  | .trugStart _ bed => bedOk bed
  | .trugPacketReceive _ port => obotilOk port
  | .trugInstanceClose _ grp _ => groupOk grp
  | .trugPurge _ src grp => src.wf && groupOk grp
  | .groupValidate _ src grp => src.wf && groupOk grp
  | .linkEnable _ src port => src.wf && obotilOk port
  | .linkTrainDone _ port _ _ _ _ => obotilOk port
  | .portRetrain _ src port => src.wf && obotilOk port
  | .portDown _ src port => src.wf && obotilOk port
  | .portClear _ src port => src.wf && obotilOk port
  | .flitTransmit _ port => obotilOk port
  | .dataFlitReceive _ port _ => obotilOk port
  | .linkFlitReceive _ port _ => obotilOk port
  | .replayTimeout _ port => obotilOk port
  | .gateWrite _ port => obotilOk port
  | .gateWriteAck _ port => obotilOk port
  | .gateWriteNack _ port => obotilOk port
  | .gateLoad _ src gate => src.wf && gateOk gate
  | .gateOpen _ by_ gate => by_.wf && gateOk gate
  | .gateLatch _ by_ gate => by_.wf && gateOk gate
  | .gateAdvance _ by_ gate => by_.wf && gateOk gate
  | .gateUnload _ src gate => src.wf && gateOk gate
  | .gateCmdComplete _ gate => gateOk gate
  | .wadvance _ bed l => bedOk bed && lodgeOk l
  | .barrier _ bed => bedOk bed
  | .barrierTokenReceive _ port _ => obotilOk port
  | .sackReceive _ port _ => obotilOk port
  | .tokenRetransmit _ group => groupOk group
  | .configRequest _ port fn _ => lodgeOk port && functionOk fn
  | .bar4Access _ port fn _ _ _ => lodgeOk port && functionOk fn
  | .sqTailDoorbell _ port fn page _ => lodgeOk port && functionOk fn && functionOk page
  | .cqHeadDoorbell _ port fn page _ => lodgeOk port && functionOk fn && functionOk page
  | .commandFetch _ q _ => queueOk q
  | .hostNop _ q _ => queueOk q
  | .hostCopy _ q _ => queueOk q
  | .hostBedRun _ q _ => queueOk q
  | .hostTrellis _ q _ => queueOk q
  | .hostWaitChime _ q _ => queueOk q
  | .hostWaitWindows _ q _ => queueOk q
  | .hostFirmware _ q _ _ _ => queueOk q
  | .completionWrite _ q _ => queueOk q
  | .qctxRead _ src => src.wf
  | .qctxWrite _ src => src.wf
  | .qctxAbortAll _ src => src.wf
  | .qctxReset _ src => src.wf
  | .queueBedVecWrite _ src bed _ => src.wf && bedOk bed
  | .vfEnable _ port _ => lodgeOk port
  | .functionLevelReset _ port fn _ => lodgeOk port && functionOk fn
  | .perst _ port => lodgeOk port
  | .heartbeatSend _ l => lodgeOk l
  | .heartbeatReceive _ l => lodgeOk l
  | .echoRecord _ l _ => lodgeOk l
  | .resyncDone _ l => lodgeOk l
  | .heartbeatTimeout _ l => lodgeOk l
  | .election _ l => lodgeOk l
  | .claimReceive _ die l => dieOk die && lodgeOk l
  | .claimAnswer _ l die => lodgeOk l && dieOk die
  | .claimResolve _ l => lodgeOk l
  | .claimRepeat _ l => lodgeOk l
  | .dieControlWrite _ l _ w => lodgeOk l && w.src.wf
  | .wardenFence _ l => lodgeOk l
  | .wardenYield _ src => src.wf
  | .wardenResync _ src => src.wf
  | .oscWaitEnd _ l => lodgeOk l
  | .sundialWindow _ l _ => lodgeOk l
  | .pllLockDone _ l => lodgeOk l
  | .clkSelect _ src _ _ => src.wf
  | .switchPhaseEnd _ l => lodgeOk l
  | .rampStep _ l => lodgeOk l
  | .intOscLoss _ l => lodgeOk l
  | .frostClear _ src => src.wf
  | .clkenWrite _ src _ _ => src.wf
  | .clkenApply _ => true
  | .scrubRead _ u => u.wf
  | .controlStateMismatch _ m => m.wf
  | .faultPop _ src => src.wf
  | .faultClear _ src => src.wf
  | .pwrgdRise _ _ _ => true
  | .hbmAttemptEnd _ stack _ _ _ => stackOk stack
  | .advanceCtr _ src _ => src.wf
  | .advanceCtrDone _ l _ => lodgeOk l
  | .hintWrite _ src => src.wf
  | .spdmRequest _ l _ => lodgeOk l
  | .powerActive _ src => src.wf
  | .powerIdle _ src => src.wf
  | .powerDormant _ src => src.wf
  | .dormantEntryDone _ => true
  | .powerWake _ _ => true
  | .wakeTimer _ => true
  | .dormantExitDone _ _ _ => true
  | .wardTick _ _ _ => true
  | .thermalRead _ _ => true
  | .emergencyStop _ _ => true
  | .thermTripInput _ => true
  | .vin48Fault _ _ => true
  | .regulatorFault _ => true
  | .vauxLoss _ => true
  | .pwrgdFall _ => true
  | .startStepEnd _ l _ => lodgeOk l
  | .linkTrainFail _ port => obotilOk port
  | .pcieCompletionReceive _ req _ _ _ => req.wf
  | .keeperWatchdog _ l core => lodgeOk l && coreOk core
  | .vauxApply _ => true
  | .chimeOutFall _ => true

end Sys2Proof
end

