-- ==== Sys2Proof/Tests/Slice0.lean ====
section
/-! SUPPORT. Witnesses that the hypotheses of each statement can be met together, smoke tests of well-formedness, and
worked examples of the spec, each in one step or one operation. -/
namespace Sys2Proof
namespace Tests
open Machine

set_option Elab.async false

/-- A state with no command waiting. -/
def st (d : Dev) : State := ⟨[], d⟩

/-- A device that runs: supplies good, lodge 0 warden and READY, every clock on. -/
def on : Dev :=
  { (Dev.start.setFld (.warden 0) Reg.WARDEN_STS.ROLE 1).setFld (.lodgeCtl 0) Reg.PARAM_STS.READY 1 with
    clkOn := clkenOffsets.map (fun o => (o, 0xFFFFFFFF#32))
    pwr := { Dev.start.pwr with vaux := true, pwrgd := true } }

/-- Keeper 0 of lodge 0. -/
def k0 : Source := .keeper 0 0

/-- The chime enabled, in a mode. -/
def chimeOnDev (mode : Nat) : Dev :=
  (on.setFld .chime Reg.CHIME_CTL.ENABLE 1).setFld .chime Reg.CHIME_CTL.SRC mode

/-- A bed of one program-less die in slot 0, running, with its window open since 0. -/
def cfg0 : BedCfg := ⟨1, [], [⟨0, 0, 0⟩], false, false, true, 0, false, 0#64, 0xFFFFFFFF, [⟨0, 2 ^ 30, true, true, false⟩], [], 1, 1, 1, [], [], 0, []⟩
def bed0 : Bed := ⟨cfg0, [(0, 0)], false, 0, true, 1, .run, 0, false, false, 0, 0, 0, 0, 0, 0, some 0, none, none, false⟩
def withBed (d : Dev) : Dev := { d with beds := [(0, some bed0)] }

/-- An item of bed 0 on die 0 that its engine has not accepted. -/
def item (k : Kind) (cmd : List Byte) : Item := ⟨5, 0, 0, ⟨k, 0, false, cmd⟩, 0, false, false, 0⟩

/-- A write of one word. -/
def wr (a : Nat) : WriteAccess := ⟨k0, a, 4, 0xF#4, false, 0#32⟩

theorem witness_RegisterWritesComplete :
    ((st on).acceptsWrite (wr 0x60000) .fault ∧ Blk.fault.posted = false) ∧
    ((st on).acceptsWrite (wr 0x3C004) .chime ∧ Blk.chime.posted = true) ∧
    Tbl.get (fun _ => none) (st { on with posted := [(0x30000, some ⟨4, 0, 1000#32, k0⟩)] }).dev.posted Blk.chime.base =
      some (⟨4, 0, 1000#32, k0⟩ : PWrite) := by
  decide

theorem witness_AliasesFollowTable42 :
    0 < 32 ∧ 31 < 32 ∧ (Blk.chime.storedMask 0).testBit 0 = true ∧ (Blk.chime.w1cMask 0x18).testBit 31 = false := by decide

theorem witness_ReadsComplete :
    (st on).acceptsRead k0 .chime 0x3000C ∧ (st on).acceptsRead k0 .power 0x50010 ∧
    ((st (on.setPower 1)).live (.rill 0 0) ∧ (st (on.setPower 1)).reached (wr 0x1100000).src ∧ (wr 0x1100000).src.isVf = false ∧ (wr 0x1100000).size ≠ 8 ∧
      (st (on.setPower 1)).dev.readErr (wr 0x1100000).src (wr 0x1100000).addr (wr 0x1100000).size = none ∧
      target (wr 0x1100000).src (wr 0x1100000).addr = some (.rill 0 0, false) ∧ (Blk.rill 0 0).idleStops = true ∧
      (st (on.setPower 1)).dev.powerState = 1) ∧
    ((st (on.setPower 1)).acceptsWrite (wr 0x1100000) (.rill 0 0) ∧ (st (on.setPower 1)).dev.altered (.rill 0 0) = false ∧
      (Blk.rill 0 0).idleStops = true ∧ (st (on.setPower 1)).dev.powerState = 1) := by
  decide

theorem witness_ChimeRegisterWritesComplete :
    (st on).accepts k0 .chime 0x0 ∧ (st on).accepts k0 .chime 0x4 ∧ (st on).dev.fld .chime Reg.CHIME_CTL.SRC ≠ 3 ∧
    (2#2 : BitVec 2) ≠ 3#2 := by
  decide

theorem witness_ChimesFire :
    ((st (chimeOnDev 0)).live .chime ∧ (st (chimeOnDev 0)).dev.nextDue 0 = some 0 ∧ 0 ≤ 0) ∧
    (let s := st (chimeOnDev 1)
     s.live .chime ∧ s.dev.chimeOn = true ∧ s.dev.isSet .chime Reg.CHIME_STS.FREERUN = false ∧
      s.dev.markedDue (10 ^ 9) = none ∧ s.dev.missAt (10 ^ 9) ≤ 10 ^ 9 ∧ s.dev.fld .chime Reg.CHIME_CTL.SRC = 1) ∧
    (let s := st (chimeOnDev 2)
     s.live .chime ∧ s.dev.chimeOn = true ∧ s.dev.isSet .chime Reg.CHIME_STS.FREERUN = false ∧
      s.dev.markedDue (10 ^ 9) = none ∧ s.dev.missAt (10 ^ 9) ≤ 10 ^ 9 ∧ s.dev.fld .chime Reg.CHIME_CTL.SRC = 2) := by
  decide

/-- The marker of chime 7, due 1 ns from now. -/
def markerBytes : List Byte := wireShort 0 7 16
/-- Port 0 is UP, and the chime follows its markers. -/
def upDev : Dev := (chimeOnDev 1).setFld (.obotil 0) Reg.OB_STS.STATE 2

theorem witness_ChimeEventsComplete :
    (let s := st (withBed (chimeOnDev 0))
     s.live .chime ∧ s.dev.nextDue (0 + 64 * 64) = some 0 ∧ 0 ≤ 0 + 64 * 64 ∧ (s.dev.touch 0).bed 0 = some bed0 ∧
      bed0.openT.isSome = true) ∧
    (let s := st (chimeOnDev 0)
     s.live .chime ∧ s.dev.chimeOn = true ∧ s.dev.fld .chime Reg.CHIME_CTL.SRC = 0 ∧
      max s.dev.chime.emitFrom (s.dev.nextUnemitted - s.dev.fld .chime Reg.CHIME_LEAD.LEAD_NS * 64) ≤ 0) ∧
    (let s := st upDev
     let q := padTo 64 (leBytes 8 7 ++ leBytes 8 16)
     s.live .chime ∧ s.dev.portUp 0 = true ∧ ((s.dev.touch 0).recvShort 0 0 markerBytes).2 = some q ∧
      bitsOf (numAt q 8 8) 63 56 = 0 ∧ (q.drop 16).all (fun b => b == 0#8) = true ∧ 0 < (BitVec.ofNat 32 (numAt q 8 8)).toInt ∧
      s.dev.chimeOn = true ∧ s.dev.fld .chime Reg.CHIME_CTL.SRC = 1 ∧ s.dev.fld .chime Reg.CHIME_CTL.MKR_PORT = 0 ∧
      s.dev.tooEarly (Int.ofNat 0 + 16 * 4).toNat = false) ∧
    (let s := st (chimeOnDev 2)
     s.live .chime ∧ s.dev.chimeOn = true ∧ s.dev.fld .chime Reg.CHIME_CTL.SRC = 2) ∧
    ((st on).live .chime ∧ (st on).dev.chime.prev + 100 * 64 ≤ 6400) := by
  decide +kernel

theorem witness_ShedCommandsComplete :
    (let s := st (withBed on)
     s.accepts k0 (.shed 0) (slotOff 0) ∧ (s.written 0 k0 (.shed 0)).bedAtSlot 0 0 = some 0 ∧
      (s.written 0 k0 (.shed 0)).bed 0 = some bed0 ∧ bed0.slipLimit < 16) ∧
    (let i := { item .rill [] with held := true }
     let s := st { on with items := [i] }
     s.live (.shed 0) ∧ (s.dev.touch 0).firstHeld 0 .rill 0 = some i ∧ (s.dev.touch 0).atLimit 0 0 i.cfg = false) := by
  decide

/-- The loader in a state, with an operation. -/
def loaderDev (n : Nat) (op : LoadOp) : Dev :=
  { (withBed on).setFld .trellis Reg.TRELLIS_STS.LSTATE n with loader := { LoaderSt.start with op := some op } }

theorem witness_LoaderCommandsComplete :
    ((st on).accepts k0 .trellis 0x0 ∧ (st on).dev.lstate = 0) ∧
    ((st (loaderDev 1 .load)).accepts k0 .trellis 0x0 ∧ (st (loaderDev 1 .load)).dev.lstate = 1) ∧
    ((st (loaderDev 4 .replant)).accepts k0 .trellis 0x0 ∧ (st (loaderDev 4 .replant)).dev.lstate ≠ 0) := by
  decide

/-- The bytes of a small trellis image that are not 0, laid out by Tables 3.1 to 3.7: one bed of plots 0 and 1 on die 0, a 2 MiB
region, rill 0 and one empty record; FLAGS is given. -/
def imageCells (flags : List Host.Cell) : List Host.Cell :=
  [(0, 0x54#8), (1, 0x52#8), (2, 0x54#8), (3, 0x4E#8), (4, 0x01#8)] ++ flags ++
  [(8, 0x08#8), (12, 0xC0#8), (13, 0x03#8), (16, 0x05#8), (30, 0x01#8), (32, 0x07#8), (64, 0x01#8), (66, 0xFF#8),
   (68, 0xC0#8), (69, 0x01#8), (72, 0x20#8), (112, 0x02#8), (114, 0xFF#8), (117, 0x02#8), (120, 0x10#8),
   (160, 0x03#8), (162, 0xFF#8), (164, 0x40#8), (165, 0x02#8), (168, 0x58#8), (208, 0x04#8), (210, 0xFF#8),
   (212, 0xC0#8), (213, 0x02#8), (216, 0x20#8), (256, 0x05#8), (258, 0xFF#8), (261, 0x03#8), (264, 0x08#8),
   (304, 0x06#8), (308, 0x40#8), (309, 0x03#8), (312, 0x20#8), (352, 0x07#8), (353, 0xFF#8), (354, 0xFF#8),
   (356, 0x80#8), (357, 0x03#8), (360, 0x40#8), (449, 0x01#8), (450, 0x02#8), (452, 0x01#8), (474, 0x01#8),
   (476, 0x01#8), (478, 0x01#8), (577, 0x01#8), (584, 0xFF#8), (585, 0xFF#8), (656, 0x01#8), (660, 0x03#8),
   (708, 0x01#8), (836, 0x01#8), (852, 0x01#8)]

/-- The image staged at address 0 by a warden that has an identity: READY, ROLE, LSTATE = 1, LEN = 960 and IDENT_OK. -/
def stagedDev (d : Dev) (flags : List Host.Cell) : Dev :=
  { d with
    regs := [(0x100, 1#32), (0x10004, 1#32), (0x40004, 0x100#32), (0x40010, 960#32), (0x70004, 2#32)]
    hbm := imageCells flags }

/-- Loading with no bed, and replanting bed 0. -/
def fullDev : Dev := stagedDev { loaderDev 1 .load with beds := [] } []
def replantDev : Dev := stagedDev (loaderDev 1 .replant) [(6, 0x01#8)]

/-- Nothing staged. -/
def blankDev : Dev := { fullDev with hbm := [] }

/-- The staged image passes every check of a full load, or of a replant, and one bed is in it. -/
def okFull (d : Dev) : Bool :=
  match d.checkStaged false with
  | .ok (_, es, bs, _) => match checkFull d.staged (d.loadView true) es bs, bs with
    | .ok _, [_] => true
    | _, _ => false
  | .error _ => false
def okReplant (d : Dev) : Bool :=
  match d.checkStaged true with
  | .ok (_, es, [(_, c)], _) => match d.checkReplant es d.loader.bed c with
    | .ok _ => true
    | .error _ => false
  | _ => false

/-- The staged image is refused. -/
def refusedFull (d : Dev) : Bool :=
  match d.checkStaged false with
  | .ok _ => false
  | .error _ => true
theorem blankDev_refused : refusedFull ((st blankDev).dev.touch 0) = true := by decide +kernel

theorem fullDev_ok (h1 : Config.sm3 = fun _ => 0) (h2 : Config.sm2Verify = fun _ _ _ _ => true) : okFull ((st fullDev).dev.touch 0) = true := by
  unfold okFull Dev.checkStaged checkImage
  rw [h1, h2]
  decide +kernel
theorem replantDev_ok (h1 : Config.sm3 = fun _ => 0) (h2 : Config.sm2Verify = fun _ _ _ _ => true) :
    okReplant ((st replantDev).dev.touch 0) = true := by
  unfold okReplant Dev.checkStaged checkImage
  rw [h1, h2]
  decide +kernel

/-- The check of a staged image depends on SM3 and SM2, which have no body: the premises choose an interpretation of them. -/
theorem witness_LoaderOperationsComplete (h1 : Config.sm3 = fun _ => 0) (h2 : Config.sm2Verify = fun _ _ _ _ => true) :
    (∃ h es bs dig, let s := st fullDev
      let d0 := s.dev.touch 0
      s.live .trellis ∧ s.dev.lstate = 1 ∧ s.dev.loader.op = some .load ∧ d0.bedsRunning = false ∧
      (∀ k, k < 8 → s.dev.diePair k = s.dev.lodgePair s.dev.wardenLodge) ∧ d0.checkStaged false = .ok (h, es, bs, dig) ∧
      checkFull d0.staged (d0.loadView true) es bs = .ok () ∧ bs.Pairwise (fun x y => x.1 ≠ y.1)) ∧
    (∃ e, let s := st blankDev
      let d0 := s.dev.touch 0
      s.live .trellis ∧ s.dev.lstate = 1 ∧ s.dev.loader.op = some .load ∧ d0.bedsRunning = false ∧
      d0.checkStaged false = .error e) ∧
    (∃ h es c dig n, let s := st replantDev
      let d := s.dev.touch 0
      s.live .trellis ∧ s.dev.lstate = 1 ∧ s.dev.loader.op = some .replant ∧ d.stagingOk s.dev.loader.bed = true ∧
      d.checkStaged true = .ok (h, es, [(n, c)], dig) ∧ d.checkReplant es s.dev.loader.bed c = .ok () ∧
      d.bed s.dev.loader.bed = some bed0 ∧ bed0.state ≠ .idle ∧ bed0.state ≠ .halted) ∧
    (let s := st (loaderDev 3 .replant)
     s.live .trellis ∧ s.dev.lstate = 3 ∧ (s.dev.touch 0).items.any (fun i => i.bed == s.dev.loader.bed) = false) ∧
    (let s := st (loaderDev 4 .replant)
     s.live .trellis ∧ s.dev.lstate = 4 ∧ (∀ k, k < 8 → s.dev.diePair k = s.dev.lodgePair s.dev.wardenLodge) ∧
      (s.dev.touch 0).commandsLeft s.dev.loader.bed = false) := by
  refine ⟨?_, ?_, ?_, by decide, by decide⟩
  · have h := fullDev_ok h1 h2
    unfold okFull at h
    split at h
    · rename_i hd es bs dig he
      split at h
      · rename_i u x hc
        exact ⟨hd, es, _, dig, by decide, by decide, by decide, by decide, by decide, he, hc, by simp⟩
      · cases h
    · cases h
  · have h := blankDev_refused
    unfold refusedFull at h
    split at h
    · cases h
    · rename_i e he
      exact ⟨e, by decide, by decide, by decide, by decide, he⟩
  · have h := replantDev_ok h1 h2
    unfold okReplant at h
    split at h
    · rename_i hd es n c dig he
      split at h
      · rename_i u hc
        exact ⟨hd, es, c, dig, n, by decide, by decide, by decide, by decide, he, hc, by decide, by decide, by decide⟩
      · cases h
    · cases h

/-- A PASS command of Table 7.6: LOAD = 1, BF16 in and out, K = ROWS = COLS = 1, furrows 1, 2 and 3, no queue. `mode` is its byte 0. -/
def passCmd (mode : Byte) : List Byte :=
  [mode, 3, 3, 3, 1, 0, 1, 1, 0, 0, 0, 0, 1, 2, 3, 0, 0xFF, 0xFF] ++ List.replicate 22 0
/-- A pass of bed 0 at a stage. -/
def pass (mode : Byte) (stage : PassStage) : Pass :=
  ⟨5, 0, passCmd mode, false, stage, 0, [], 0, 0, none, none, none, none, none, none, false, 0, true, none⟩
/-- A furrow of 32 lines, all of them filled. -/
def full (base : Nat) : Furrow :=
  { Furrow.start with base := base, size := 32, head := 2048, fill := List.range 32, seen := ⟨0, 0, List.range 32, []⟩ }
/-- Plot 0 of die 0 with passes, furrows 1 and 2 filled and furrow 3 empty. -/
def plotDev (ps : List Pass) : Dev :=
  ((({ withBed on with plots := [(0, { PlotSt.start with passes := ps })] }.setFur 0 0 1 (full 0)).setFur 0 0 2 (full 32)).setFur 0 0 3
    { Furrow.start with base := 64, size := 32 })
/-- The device as a command of plot 0 finds it. -/
def at0 (d : Dev) (t : Nat) : Dev := (d.touch t).settle 0 0

theorem witness_PassesIssueAndLoad :
    (let i := item .pass (passCmd 0x10)
     let s := st { withBed on with items := [i] }
     s.live (.plot 0 0) ∧ (at0 s.dev 0).logicalOf 0 0 = some 0 ∧ (at0 s.dev 0).nextItem 0 .pass (0 % 64) = some i ∧
      (at0 s.dev 0).bed i.bed = some bed0) ∧
    (let x := pass 0x10 .accepted
     let s := st (plotDev [x])
     let d := at0 s.dev 0
     let a : BenchAccess := ⟨.plot 0 0, 0, 0, 1, 0, false, 2048⟩
     s.live (.plot 0 0) ∧ d.fld (.plot 0 0) Reg.PLOT_STS.STATE ≠ 4 ∧ (d.plot 0 0).shadowFree coreCycle d.now = true ∧
      (d.plot 0 0).passes.find? (fun x => x.loads && x.stage == .accepted) = some x ∧ x.sBase = none ∧
      d.passCfg x = some cfg0 ∧ d.passAccess 0 0 x.fields.furS false (x.fields.tileBytes cfg0.exact) = some a ∧
      (d.request a).2 = some 0) ∧
    (let x := { pass 0x10 .loading with sBase := some 0 }
     let s := st (plotDev [x])
     let d := at0 s.dev 0
     s.live (.plot 0 0) ∧ (d.plot 0 0).passes.find? (fun x => x.stage == .loading) = some x ∧ d.passCfg x = some cfg0 ∧
      d.tileRange 0 0 x cfg0.exact = some (0, 0, 1, 0, 2048) ∧ x.linkMark = none) := by
  decide +kernel

/-- A pass that is ready with its tile read, and that pass running with its one vector entered. -/
def readyPass : Pass := { pass 0x10 .ready with sBase := some 0 }
def runPass : Pass := { pass 0x10 .running with sBase := some 0, entered := 1, fed := 1, mBase := some 0, oBase := some 0 }

/-- What PASS_START does step by step, from a device at its instant, with the pass once its output is claimed. -/
def outPass : Pass := { readyPass with oBase := some 0 }
def startDev (d : Dev) : Dev := ((d.passSlot 0 0 readyPass).1.passOutput 0 0 readyPass).1
def startedDev (d : Dev) : Dev :=
  (((startDev d).passImages 0 0 outPass cfg0.exact).takeTile 0 0 outPass cfg0.exact).modPass 0 0 readyPass.seq
    (fun z => { z with stage := .running, startT := d.now })

theorem witness_PassesRun :
    (∃ z, let s := st (plotDev [readyPass])
      let d := at0 s.dev 0
      s.live (.plot 0 0) ∧ (d.plot 0 0).nextPass = some readyPass ∧ d.passCfg readyPass = some cfg0 ∧
      d.fld (.plot 0 0) Reg.PLOT_STS.STATE < 2 ∧ (d.plot 0 0).mayStart readyPass cfg0.exact d.now = true ∧
      d.startRefusal 0 0 readyPass cfg0.exact = 0 ∧ (d.passSlot 0 0 readyPass).2 = true ∧
      ((d.passSlot 0 0 readyPass).1.passOutput 0 0 readyPass).2 = true ∧
      ((startDev d).plot 0 0).passes.find? (fun y => y.seq == readyPass.seq) = some outPass ∧
      (startDev d).vectorNeeds 0 0 outPass outPass.fields cfg0.exact 0 = none ∧
      ((startedDev d).plot 0 0).passes.find? (fun z => z.seq == readyPass.seq) = some z ∧
      (((startedDev d).enterVector 0 0 z cfg0.exact).plot 0 0).passes.any (fun q => q.seq == readyPass.seq && q.entered != 0) = true) ∧
    (let x := { runPass with entered := 0, fed := 0 }
     let s := st (plotDev [x])
     let d := at0 s.dev 0
     s.live (.plot 0 0) ∧ (d.plot 0 0).passes.find? (fun x => x.running && decide (x.entered < x.fields.k)) = some x ∧
      d.passCfg x = some cfg0 ∧ x.startT + x.fields.cyc cfg0.exact * x.entered * coreCycle ≤ d.now ∧
      ((d.enterVector 0 0 x cfg0.exact).plot 0 0).passes.any (fun x => x.replay) = false) ∧
    (let x := runPass
     let s := st (plotDev [x])
     let d := at0 s.dev (10 ^ 6)
     s.live (.plot 0 0) ∧ (d.plot 0 0).passes = [x] ∧ d.bed x.bed = some bed0 ∧ x.running = true ∧ x.entered = x.fields.k ∧
      x.startT + (x.fields.cyc bed0.cfg.exact * x.fields.k + 86) * coreCycle ≤ (d.plot 0 0).advanced d.now ∧
      d.passOperandBad 0 0 x bed0.cfg.exact = false ∧ d.passAccBad 0 0 x bed0.cfg.exact = false ∧
      d.passImageBad 0 0 x bed0.cfg.exact = false) := by
  refine ⟨?_, by decide +kernel, by decide +kernel⟩
  have h : (((startedDev (at0 (plotDev [readyPass]) 0)).plot 0 0).passes.find? (fun z => z.seq == readyPass.seq)).any (fun z =>
      (((startedDev (at0 (plotDev [readyPass]) 0)).enterVector 0 0 z cfg0.exact).plot 0 0).passes.any
        (fun q => q.seq == readyPass.seq && q.entered != 0)) = true := by decide +kernel
  obtain ⟨z, hz, he⟩ := (Option.any_eq_true _ _).mp h
  exact ⟨z, by decide +kernel, by decide +kernel, by decide +kernel, by decide +kernel, by decide +kernel, by decide +kernel,
    by decide +kernel, by decide +kernel, by decide +kernel, by decide +kernel, hz, he⟩

/-- A word that no checker can correct. -/
def badLane : Lane := ⟨0#8, poison, 0⟩
/-- An exact bed in place of bed 0, and a CONT_FINAL pass of it whose images are read at 0 in furrow 1. -/
def exactDev (ps : List Pass) : Dev := { plotDev ps with beds := [(0, some { bed0 with cfg := { cfg0 with exact := true } })] }
def imagePass : Pass := { runPass with cmd := passCmd 0x1C, iBase := some 0 }
/-- A plot that the retest holds. -/
def retestDev : Dev := (plotDev []).setFld (.plot 0 0) Reg.PLOT_STS.STATE 4

/-- Plot 0 that reads its accumulators, one of them a word that no checker can correct. -/
def accDev : Dev := (plotDev [{ runPass with cmd := passCmd 0x1C }]).modPlot 0 0 (fun s => { s with file := [(0, 0#64, poison)] })
/-- Whether a pass is of an exact bed. -/
def exactOf (d : Dev) (x : Pass) : Bool := (d.passCfg x).elim false (fun b => b.exact)

theorem witness_PassesAbandonAndRetest :
    (let d := at0 (plotDev [runPass]) 0
     (st (plotDev [runPass])).live (.plot 0 0) ∧ ((d.plot 0 0).passes.filter (fun x => x.running))[0]? = some runPass ∧
      d.passCfg runPass = some cfg0 ∧ cfg0.unchecked = false ∧ 0 < runPass.entered) ∧
    (let x := { runPass with tile := [badLane] }
     let d := at0 (plotDev [x]) 0
     (st (plotDev [x])).live (.plot 0 0) ∧
      (d.plot 0 0).passes.find? (fun x => x.running && d.passOperandBad 0 0 x (exactOf d x)) = some x) ∧
    (let d := at0 accDev 0
     (d.plot 0 0).passes.find? (fun x => x.running && d.passAccBad 0 0 x (exactOf d x)) =
       some { runPass with cmd := passCmd 0x1C }) ∧
    (let d := at0 (exactDev [imagePass]) 0
     (d.plot 0 0).passes.find? (fun x => x.running && d.passImageBad 0 0 x (exactOf d x)) = some imagePass) ∧
    (let d := at0 retestDev 0
     (st retestDev).live (.plot 0 0) ∧ d.fld (.plot 0 0) Reg.PLOT_STS.STATE = 4 ∧ (d.plot 0 0).exhausted = false ∧
      d.bedOfPlot 0 0 = some 0 ∧ d.bed 0 = some bed0) := by
  decide +kernel

/-- A furrow of 512 lines that holds a spill. -/
def wholeSpill : Furrow :=
  { Furrow.start with base := 96, size := 512, head := 32768, fill := List.range 512, seen := ⟨0, 0, List.range 512, []⟩ }
/-- PREEMPTING with kept accumulators, PREEMPTING with a spill of furrow 3, and PREEMPTED with it. -/
def preemptDev (n : Nat) (keep : Bool) (sp : Option (Nat × Nat)) : Dev :=
  (((plotDev []).setFld (.plot 0 0) Reg.PLOT_STS.STATE n).setFld (.plot 0 0) Reg.PLOT_STS.ACC_VALID (bit keep)).modPlot 0 0
    (fun s => { s with spill := sp, restoring := n == 3 })

theorem witness_PlotsPreempt :
    (st (plotDev [])).accepts k0 (.plot 0 0) 0x0 ∧
    (let s := st (preemptDev 2 false none)
     let d := at0 s.dev 0
     s.live (.plot 0 0) ∧ d.fld (.plot 0 0) Reg.PLOT_STS.STATE = 2 ∧
      (d.plot 0 0).passes.any (fun x => x.running || x.replay) = false ∧ d.isSet (.plot 0 0) Reg.PLOT_STS.ACC_VALID = false) ∧
    (let s := st (preemptDev 2 true none)
     let d := at0 s.dev 0
     s.live (.plot 0 0) ∧ d.fld (.plot 0 0) Reg.PLOT_STS.STATE = 2 ∧
      (d.plot 0 0).passes.any (fun x => x.running || x.replay) = false ∧ d.isSet (.plot 0 0) Reg.PLOT_STS.ACC_VALID = true ∧
      (d.plot 0 0).spill = none ∧ (d.furNow 0 0 (d.fld (.plot 0 0) Reg.PLOT_CTL.SPILL_FUR)).portFree 0 = true) ∧
    (let s := st (preemptDev 2 true (some (0, 3)))
     let d := at0 s.dev 0
     s.live (.plot 0 0) ∧ (d.plot 0 0).spill = some (0, 3) ∧ d.fld (.plot 0 0) Reg.PLOT_STS.STATE = 2) ∧
    (let s := st ((preemptDev 3 true (some (0, 4))).setFur 0 0 4 wholeSpill)
     let d := at0 s.dev 0
     s.live (.plot 0 0) ∧ (d.plot 0 0).spill = some (0, 4) ∧ (d.plot 0 0).restoring = true ∧
      d.fld (.plot 0 0) Reg.PLOT_STS.STATE = 3 ∧ (d.furNow 0 0 4).mayIssue ⟨.plot 0 0, 0, 0, 4, 0, false, 32768⟩ = true) := by
  decide +kernel

/-- A rill's read of 64 bytes from furrow 1 of plot 0. -/
def rd : BenchAccess := ⟨.rill 0 0, 0, 0, 1, 3, false, 64⟩
/-- Furrow 1 with that read stalled, or answered with a retry at 0. -/
def stalledDev : Dev := (plotDev []).modFur 0 0 1 (fun f => { f with stalled := [rd] })
def retriedDev : Dev := (plotDev []).modFur 0 0 1 (fun f => { f with retried := [(rd, 0)] })

theorem witness_FurrowWritesComplete :
    0 < 32 ∧ 31 < 32 ∧ (st (plotDev [])).accepts k0 (.plot 0 0) (0x214 + 32 * 31) ∧ (st (plotDev [])).accepts k0 (.plot 0 0) (0x200 + 32 * 31) := by
  decide +kernel

/-- A descriptor of Table 10.4: locations, flags, addresses, elements and rows of BF16, strides of 64, no queues. -/
def desc (sl dl fl : Byte) (sa da n m : Nat) : List Byte :=
  [sl, dl, fl, 0, 3, 3, 0, 0] ++ leBytes 8 sa ++ leBytes 8 da ++ leBytes 16 0 ++ leBytes 4 n ++ leBytes 4 m ++ leBytes 4 1 ++
  leBytes 4 1 ++ leBytes 4 1 ++ leBytes 4 0 ++ (List.range 8).flatMap (fun _ => leBytes 8 64) ++ leBytes 4 0xFFFFFFFF ++ leBytes 28 0
/-- A rill's run of a descriptor. -/
def rillRun (c : List Byte) : RillRun :=
  ⟨5, 0, 0, c, 0, 0, none, none, none, none, 0, 0, 0#5, 0, none, 0, false, [], false, [], none, none⟩
/-- Rill 0 of die 0 runs. -/
def rillDev (x : RillRun) : Dev :=
  { (plotDev []).setFld (.rill 0 0) Reg.RILL_STS.STATE 1 with rills := [(0, ⟨some x, [], [], none⟩)] }

/-- From furrow 1 of plot 0 to HBM: the read above is the one claim that it needs. -/
def benchRead : Dev := rillDev (rillRun (desc 2 0 0 (2 ^ 32) 0 32 1))
/-- The word at 0 of the benches awaits its rewrite. -/
def rewriteDev : Dev := { on with rewrites := [2 * 2 ^ 44], synd := [(2 * 2 ^ 44, 0x01#8)] }

theorem witness_BenchRequestsComplete :
    (let d := stalledDev.touch 0
     (st stalledDev).live (.plot 0 0) ∧ (d.furNow 0 0 1).stalled.contains rd = true ∧ (d.furNow 0 0 1).mayIssue rd = true) ∧
    (let d := benchRead.touch 0
     (st benchRead).live (.plot 0 0) ∧ rd.port = 3 ∧ d.wantsAccess rd = true ∧ d.lost.contains rd.agent = false ∧
      (d.fur 0 0 1).stalled.contains rd = false ∧ (d.fur 0 0 1).outstanding rd.agent < 2 ∧
      (d.fur 0 0 1).retried.any (fun x => x.1.agent == rd.agent) = false ∧ Upset.none ≠ .header ∧ rd.write = false) ∧
    (let d := retriedDev.touch 20000
     (st retriedDev).live (.plot 0 0) ∧ (d.fur 0 0 1).retried.find? (fun x => x.1 == rd) = some (rd, 0) ∧
      0 + 64 * d.latticeCycle ≤ d.now) ∧
    (rewriteDev.rewrites.contains (0 + 2 * 2 ^ 44) = true ∧ 0 < 2 ^ 44 ∧ (rewriteDev.touch 0).bankFree (0 + 2 * 2 ^ 44) = true ∧
      hedgeCheck (rewriteDev.syndOf (0 + 2 * 2 ^ 44)) = .corrected 0) := by
  decide +kernel

/-- A keeper's request at a memory. -/
def kreq (addr : Nat) (op : MemOp) : MemReq := ⟨k0, none, 0, 0, 0, [], false, addr, op, .none⟩

theorem witness_MemoryRequestsComplete :
    ((st on).live (.hbmCtl (15 / 2) (15 % 2)) ∧ (kreq (15 * 2 ^ 36) (.write [7#8])).ofPc 15 0 = true) ∧
    ((st on).live (.gh 7) ∧ (kreq (7 * 2 ^ 40) (.read 8)).ofBank 7 0 = true ∧ on.clockOn (.gh 7) = true ∧
      on.anyBad .gh (7 * 2 ^ 26 + 7 * 2 ^ 40 % 2 ^ 26) 8 = false) ∧
    ((⟨kreq 0 (.read 8), 0, 0⟩ : Waiting).req.hit = (⟨kreq 64 (.read 8), 0, 0⟩ : Waiting).req.hit ∧ 1 < 2) := by
  decide +kernel

/-- A device with one waiting item, bed 0 being there. -/
def itemDev (k : Kind) (cmd : List Byte) : Dev := { withBed on with items := [item k cmd] }

/-- What RILL_DESC_START begins with. -/
def begunRill (d : Dev) (cmd : List Byte) : Dev :=
  (d.acceptItem 5).rillRuns 0 0 (rillRun cmd)

/-- Transposing 4 elements of HBM into furrow 3 of plot 0 behind its turnstile, the output claimed. -/
def turnRun : RillRun := { rillRun (desc 0 4 2 0 (3 * 2 ^ 32) 4 1) with dstAt := some 0 }

theorem witness_RillsRunDescriptors :
    (let c := desc 0 0 0 0 4096 32 1
     let d := (itemDev .rill c).touch 0
     (st (itemDev .rill c)).live (.rill 0 0) ∧ d.rillFree 0 0 = true ∧ d.nextItem 0 .rill 0 = some (item .rill c) ∧
      d.bed 0 = some bed0 ∧ d.rillRefusal 0 0 0 cfg0 (RillDesc.ofBytes c) = 0 ∧ (item .rill c).rillRun = rillRun c ∧
      (begunRill d c).noRoute (RillDesc.ofBytes c) = false ∧ (RillDesc.ofBytes c).empty = false) ∧
    ((itemDev .rill (desc 9 0 0 0 0 32 1)).touch 0).rillRefusal 0 0 0 cfg0 (RillDesc.ofBytes (desc 9 0 0 0 0 32 1)) ≠ 0 ∧
    (let c := desc 0 5 0 0 (7 * 2 ^ 48) 32 1
     let d := (itemDev .rill c).touch 0
     d.rillRefusal 0 0 0 cfg0 (RillDesc.ofBytes c) = 0 ∧ (begunRill d c).noRoute (RillDesc.ofBytes c) = true) ∧
    (∃ ls fl, let d := (rillDev turnRun).touch 0
      (st (rillDev turnRun)).live (.rill 0 0) ∧ (d.rill 0 0).run = some turnRun ∧ d.fld (.rill 0 0) Reg.RILL_STS.STATE = 1 ∧
      turnRun.bad = none ∧ turnRun.fields.empty = false ∧ turnRun.fields.transpose = true ∧ d.rillReady 0 0 turnRun = true ∧
      turnRun.hostHere = true ∧ turnRun.blocks < turnRun.plan.blocks turnRun.fields (d.runCfg turnRun).exact ∧
      d.inputStale turnRun = false ∧ turnRun.dstAt = some 0 ∧ d.furOfAddr turnRun.fields.dstAddr = some (0, 0, 3) ∧
      d.turnOf 0 0 turnRun turnRun.blocks = .ok (ls, fl)) := by
  refine ⟨by decide +kernel, by decide +kernel, by decide +kernel, ?_⟩
  have h : (match ((rillDev turnRun).touch 0).turnOf 0 0 turnRun turnRun.blocks with
      | .ok _ => true
      | .error _ => false) = true := by decide +kernel
  split at h
  · rename_i r hr
    exact ⟨r.1, r.2, by decide +kernel, by decide +kernel, by decide +kernel, by decide +kernel, by decide +kernel, by decide +kernel,
      by decide +kernel, by decide +kernel, by decide +kernel, by decide +kernel, by decide +kernel, by decide +kernel, hr⟩
  · cases h

/-- A run that writes 2 BF16 elements to the host, before and after two page requests for its first; and one that reads from a
virtual address. -/
def hostRun : RillRun := rillRun (desc 0 3 0 0 4096 2 1)
def hostRun2 : RillRun := { hostRun with pageReqs := 2 }
def virtRun : RillRun := rillRun (desc 0 0 4 0 4096 2 1)
def virtDev : Dev := (rillDev virtRun).setFld (.rill 0 0) Reg.RILL_VT_BASE_LO.EN 1
/-- Rill 0 whose last fault was at host address 4096, at its destination. -/
def hostFaultDev (x : RillRun) : Dev := (((rillDev x).setFld (.rill 0 0) Reg.RILL_FAULT_LO.ADDR_LO 4096).setFld (.rill 0 0) Reg.RILL_FAULT_INFO.SPACE 2).setFld (.rill 0 0)
  Reg.RILL_FAULT_INFO.WRITE 1
/-- A run that waits for a page response. -/
def waitRun : RillRun := { hostRun with fault := some ⟨0, 0, 4096, true, true⟩ }

/-- What the statement asks of a run at an element of its destination. -/
def mayFault (d : Dev) (x : RillRun) (w : RowPlan) : Prop :=
  (d.rill 0 0).run = some x ∧ d.fld (.rill 0 0) Reg.RILL_STS.STATE = 1 ∧ x.bad = none ∧ x.fields.empty = false ∧ x.sent = false ∧
  d.rillReady 0 0 x = true ∧ d.inputStale x = false ∧ x.plan.rows.find? (fun w => w.row == 0 && decide (0 < w.n)) = some w ∧
  x.fields.dstLoc = 3 ∧ x.hostBefore 0 0 ≤ x.hostIn.length ∧ ¬(0 < x.doneRow ∨ (0 = x.doneRow ∧ 0 < x.doneI0))

theorem hostRun_row : (hostRun.plan.rows.find? (fun w => w.row == 0 && decide (0 < w.n))).isSome = true := by decide +kernel
theorem hostRun2_row : (hostRun2.plan.rows.find? (fun w => w.row == 0 && decide (0 < w.n))).isSome = true := by decide +kernel

theorem witness_RillFaultsComplete :
    (∃ w, (st (hostFaultDev hostRun2)).live (.rill 0 0) ∧ mayFault ((hostFaultDev hostRun2).touch 0) hostRun2 w ∧
      (decide (2 ≤ hostRun2.pageReqs) && ((hostFaultDev hostRun2).touch 0).sameHostFault 0 0 (w.eltAddr hostRun2.plan 0 true false) true) = true) ∧
    (∃ y r' i' w, let d := (rillDev hostRun).touch 0
      (st (rillDev hostRun)).live (.rill 0 0) ∧ mayFault d hostRun w ∧
      (decide (2 ≤ hostRun.pageReqs) && d.sameHostFault 0 0 (w.eltAddr hostRun.plan 0 true false) true) = false ∧
      d.rillPartial 0 0 hostRun (some (0, 0)) = (y, some (r', i', .page 0x10000000000000000 false))) ∧
    (∃ y row i0 a write, let d := virtDev.touch 0
      (st virtDev).live (.rill 0 0) ∧ (d.rill 0 0).run = some virtRun ∧ d.fld (.rill 0 0) Reg.RILL_STS.STATE = 1 ∧
      virtRun.bad = none ∧ virtRun.fields.empty = false ∧ virtRun.sent = false ∧ d.rillReady 0 0 virtRun = true ∧
      d.inputStale virtRun = false ∧ virtRun.hostHere = true ∧
      d.rillPartial 0 0 virtRun none = (y, some (row, i0, .page a write))) ∧
    ((st (rillDev waitRun)).live (.rill 0 0) ∧ (((rillDev waitRun).touch 0).rill 0 0).run = some waitRun ∧
      waitRun.fault = some ⟨0, 0, 4096, true, true⟩) ∧
    (st (rillDev waitRun)).accepts k0 (.rill 0 0) 0x0 := by
  have w0 (x : RillRun) (h : (x.plan.rows.find? (fun w => w.row == 0 && decide (0 < w.n))).isSome = true) :
      x.plan.rows.find? (fun w => w.row == 0 && decide (0 < w.n)) =
        some ((x.plan.rows.find? (fun w => w.row == 0 && decide (0 < w.n))).get h) := by simp
  refine ⟨?_, ?_, ?_, by decide +kernel, by decide +kernel⟩
  · exact ⟨_, by decide +kernel, ⟨by decide +kernel, by decide +kernel, by decide +kernel, by decide +kernel, by decide +kernel,
      by decide +kernel, by decide +kernel, w0 _ hostRun2_row, by decide +kernel, by decide +kernel, by decide +kernel⟩, by decide +kernel⟩
  · have h2 : (((rillDev hostRun).touch 0).rillPartial 0 0 hostRun (some (0, 0))).2 =
      some (0, 0, .page 0x10000000000000000 false) := by decide +kernel
    exact ⟨_, 0, 0, _, by decide +kernel, ⟨by decide +kernel, by decide +kernel, by decide +kernel, by decide +kernel, by decide +kernel,
      by decide +kernel, by decide +kernel, w0 _ hostRun_row, by decide +kernel, by decide +kernel, by decide +kernel⟩, by decide +kernel,
      Prod.ext rfl h2⟩
  · have h : ((virtDev.touch 0).rillPartial 0 0 virtRun none).2 = some (0, 0, .page 0 false) := by decide +kernel
    exact ⟨_, 0, 0, 0, false, by decide +kernel, by decide +kernel, by decide +kernel, by decide +kernel, by decide +kernel,
      by decide +kernel, by decide +kernel, by decide +kernel, by decide +kernel, Prod.ext rfl h⟩

/-- Rill 0 of die 0 that cancels since 0. -/
def cancelDev : Dev := { on.setFld (.rill 0 0) Reg.RILL_STS.STATE 4 with rills := [(0, ⟨none, [], [], some 0⟩)] }

theorem witness_RillsCancel :
    ((st on).accepts k0 (.rill 7 15) 0x0 ∧ ((st on).written 0 k0 (.rill 7 15)).fld (.rill 7 15) Reg.RILL_STS.STATE ≠ 4) ∧
    ((st cancelDev).accepts k0 (.rill 0 0) 0x0 ∧ ((st cancelDev).written 0 k0 (.rill 0 0)).fld (.rill 0 0) Reg.RILL_STS.STATE = 4) ∧
    ((st cancelDev).live (.rill 0 0) ∧ ((cancelDev.touch 0).rill 0 0).cancelT = some 0 ∧
      (cancelDev.touch 0).fld (.rill 0 0) Reg.RILL_STS.STATE = 4) := by
  decide +kernel

/-- Barrow queue 1 of bed 0, of depth 2 and limit 2, fed by software, whose slots lie at 0 of HBM; a barrow posted and one taken. -/
def queueDev : Dev :=
  { ((((withBed on).setQfld 1 Ctx.kind 2).setQfld 1 Ctx.limit 2).setQfld 1 Ctx.depthLog2 1).setQfld 1 Ctx.producer (5 * 2 ^ 9) with
    claimed := [⟨1, 0, .software, false, false, false⟩] }
def postedDev : Dev := (queueDev.setQfld 1 Ctx.claim 1).setQfld 1 Ctx.post 1
def aBarrow : Barrow := ⟨0, 0, 0, 0, 0, false, 0#5, false, false, false, 0⟩
def takenDev : Dev := { queueDev with taken := [⟨1, 0, .software, aBarrow, false⟩] }

theorem witness_BarrowSlotsMove :
    ((st queueDev).live Agent.software.blk ∧ (queueDev.touch 0).wantsSlot .software 1 = true ∧
      (queueDev.touch 0).canClaim (queueDev.touch 0).lplot .software 1 = true) ∧
    ((st queueDev).live .queue ∧ (queueDev.touch 0).firstClaim .software 1 = some ⟨1, 0, .software, false, false, false⟩) ∧
    (∃ b d1 k, (st postedDev).live Agent.software.blk ∧ (postedDev.touch 0).wantsBarrow .software 1 = true ∧
      (postedDev.touch 0).takeSlot .software 1 = some (b, d1) ∧ d1.taken.getLast? = some k) ∧
    ((st takenDev).live .queue ∧ (takenDev.touch 0).firstTaken .software 1 = some ⟨1, 0, .software, aBarrow, false⟩) := by
  refine ⟨by decide +kernel, by decide +kernel, ?_, by decide +kernel⟩
  have h : (((postedDev.touch 0).takeSlot .software 1).bind (fun r => r.2.taken.getLast?)).isSome = true := by decide +kernel
  obtain ⟨k, hk⟩ := Option.isSome_iff_exists.mp h
  obtain ⟨r, hr, hk⟩ := Option.bind_eq_some_iff.mp hk
  exact ⟨r.1, r.2, k, by decide +kernel, by decide +kernel, hr, hk⟩

/-- 128 bytes that are 0 but for some given ones. -/
def bytes128 (xs : List (Nat × Byte)) : List Byte := (List.range 128).map (fun i => Tbl.get (fun _ => 0#8) xs i)
/-- A Sieve command of OP 0x20 with 4 rows and neither memory operands nor queues, and its run. -/
def sieveCmd : List Byte := bytes128 [(0, 0x20), (8, 4), (12, 1), (0x46, 0xFF), (0x47, 0xFF), (0x70, 0xFF), (0x71, 0xFF)]
def sieveRun : SieveRun := ⟨5, 0, 0, sieveCmd, false, none, none, none, none, none, 0#5, none⟩
def sieveDev (x : SieveRun) : Dev := { withBed on with sieves := [(0, { SieveSt.start with run := some x })] }

theorem witness_SievesRunCommands :
    (let d := (itemDev .sieve sieveCmd).touch 0
     (st (itemDev .sieve sieveCmd)).live (.sieve 0 0) ∧ d.nextItem 0 .sieve 0 = some (item .sieve sieveCmd) ∧
      d.bed 0 = some bed0) ∧
    (let d := (sieveDev sieveRun).touch 0
     (st (sieveDev sieveRun)).live (.sieve 0 0) ∧ (d.sieve 0 0).run = some sieveRun ∧ d.bed 0 = some bed0 ∧
      sieveRun.started = false ∧ sieveRun.poison = none ∧ sieveRun.inputsHere = true ∧ d.sieveStale sieveRun = false) ∧
    (let x := { sieveRun with started := true }
     let d := (sieveDev x).touch 0
     (st (sieveDev x)).live (.sieve 0 0) ∧ (d.sieve 0 0).run = some x ∧ d.bed 0 = some bed0 ∧
      x.mayRetire (d.bedStopsEarly 0) = true ∧ d.lost.contains (.sieve 0 0) = false ∧ x.poison = none ∧
      ¬((SieveCmd.ofBytes sieveCmd).yLoc = 2 ∧ x.yAt = none) ∧ 4 = (SieveCmd.ofBytes sieveCmd).rows) ∧
    (let x := { sieveRun with poison := some 3 }
     let d := (sieveDev x).touch 0
     (d.sieve 0 0).run = some x ∧ x.mayRetire (d.bedStopsEarly 0) = true ∧ x.poison = some 3) := by
  decide +kernel

/-- Sieve 3 of die 7 that clears its tray since 0. -/
def clearDev : Dev :=
  { on.setFld (.sieve 7 3) Reg.SIEVE_STS.STATE 3 with sieves := [(31, { SieveSt.start with clearT := some 0 })] }

theorem witness_SieveTraysComplete :
    (st on).accepts k0 (.sieve 7 3) 0x0 ∧
    ((st clearDev).live (.sieve 7 3) ∧ ((clearDev.touch 524288).sieve 7 3).clearT = some 0 ∧
      (clearDev.touch 524288).fld (.sieve 7 3) Reg.SIEVE_STS.STATE = 3 ∧ 0 + 32768 * 16 ≤ (clearDev.touch 524288).now) ∧
    (st on).accepts k0 (.sieve 7 3) 0x28 := by
  decide +kernel

/-- A Mower command without queues: operation `op` on `n` elements of HBM, G binary32 at 4096, its image at 8192. -/
def mowCmd (op : Byte) (n : Byte) : List Byte :=
  bytes128 [(0, op), (4, 1), (5, 1), (8, n), (12, 0xFF), (13, 0xFF), (14, 0xFF), (15, 0xFF), (0x11, 0x10), (0x39, 0x20)]
def mowRun (op n : Byte) : MowerRun := ⟨5, 0, 0, mowCmd op n, none, none, false, false, false, 0#5, none⟩
def mowDev (x : MowerRun) : Dev := { withBed on with mowers := [(0, ⟨some x, []⟩)] }
/-- A NORM begins. -/
def normDev : Dev := (((mowDev (mowRun 1 32)).touch 0).setFld (.mower 0) Reg.MOW_BLOCKS.COUNT 0).setFld (.mower 0) Reg.MOW_STS.STATE 1

/-- Its sum of squares. -/
def normSum : Dev × Long × Option (Nat × Option Nat) :=
  let c := MowCmd.ofBytes (mowCmd 1 32)
  Dev.normBlocks cfg0 0 0 c c.blocks 0 normDev (Long.start false)

theorem witness_MowersRunCommands :
    (let d := (itemDev .mower (mowCmd 1 32)).touch 0
     (st (itemDev .mower (mowCmd 1 32))).live (.mower 0) ∧ d.nextItem 0 .mower 0 = some (item .mower (mowCmd 1 32)) ∧
      d.mowRefusal 0 0 (MowCmd.ofBytes (mowCmd 1 32)) = 0) ∧
    (∃ sum d1, let x := mowRun 1 32
      let d0 := (mowDev x).touch 0
      let c := MowCmd.ofBytes x.cmd
      (st (mowDev x)).live (.mower 0) ∧ (d0.mower 0).run = some x ∧ d0.bed 0 = some bed0 ∧ x.ended = false ∧ x.skew = false ∧
      x.poison = none ∧ x.begun = false ∧ x.hasInput = true ∧ d0.mowStale x = false ∧ d0.lost.contains (.mower 0) = false ∧
      c.op = 1 ∧ c.accum = false ∧ Dev.normBlocks cfg0 0 x.bed c c.blocks 0 normDev (Long.start false) = (d1, sum, none) ∧
      d1.mowCause cfg0 c.img 0 96 true = none) ∧
    (∀ op : Byte, op = 2 ∨ op = 3 → let x := mowRun op 32
      let d := (mowDev x).touch 0
      (st (mowDev x)).live (.mower 0) ∧ (d.mower 0).run = some x ∧ d.bed x.bed = some bed0 ∧ x.hasInput = true ∧
      d.lost.contains (.mower 0) = false ∧ d.mowStale x = false ∧ (MowCmd.ofBytes x.cmd).op = op.toNat) ∧
    (let x := { mowRun 1 32 with ended := true }
     (st (mowDev x)).live (.mower 0) ∧ (((mowDev x).touch 0).mower 0).run = some x ∧ x.poison = none ∧ x.claimed = none ∧
      x.input = none ∧ (MowCmd.ofBytes x.cmd).queue = 0xFFFF) := by
  refine ⟨by decide +kernel, ?_, fun op h => by rcases h with rfl | rfl <;> decide +kernel, by decide +kernel⟩
  have h : (normSum.2.2.isNone && (normSum.1.mowCause cfg0 (MowCmd.ofBytes (mowCmd 1 32)).img 0 96 true).isNone) = true := by
    decide +kernel
  simp only [Bool.and_eq_true, Option.isNone_iff_eq_none] at h
  exact ⟨_, _, by decide +kernel, by decide +kernel, by decide +kernel, by decide +kernel, by decide +kernel, by decide +kernel,
    by decide +kernel, by decide +kernel, by decide +kernel, by decide +kernel, by decide +kernel, by decide +kernel,
    Prod.ext rfl (Prod.ext rfl h.1), h.2⟩

/-- Mower 0 holds an UPDATE in SKEW. -/
def skewDev : Dev := (mowDev { mowRun 2 32 with begun := true, skew := true }).setFld (.mower 0) Reg.MOW_STS.STATE 3

theorem witness_MowerWritesComplete :
    ((st skewDev).accepts k0 (.mower 0) 0x0 ∧ ((st skewDev).written 0 k0 (.mower 0)).fld (.mower 0) Reg.MOW_STS.STATE = 3 ∧
      (((st skewDev).written 0 k0 (.mower 0)).mower 0).run = some { mowRun 2 32 with begun := true, skew := true } ∧
      ((st skewDev).written 0 k0 (.mower 0)).bed 0 = some bed0) ∧
    ((st on).accepts k0 (.mower 7) 0x0 ∧ ((st on).written 0 k0 (.mower 7)).fld (.mower 7) Reg.MOW_STS.STATE ≠ 3) ∧
    (mowMirrored 0x130 = true ∧ (st (withBed on)).accepts k0 (.mower 7) 0x130 ∧ ((st (withBed on)).written 0 k0 (.mower 7)).bedOfMower 7 = none) ∧
    (mowMirrored 0x14 = true ∧ (st (withBed on)).accepts k0 (.mower 0) 0x14 ∧ ((st (withBed on)).written 0 k0 (.mower 0)).bedOfMower 0 = some 0 ∧
      ((st (withBed on)).written 0 k0 (.mower 0)).bed 0 = some bed0 ∧ bed0.cfg.mowers.head? = some 0 ∧
      ((st (withBed on)).written 0 k0 (.mower 0)).fld (.mower 0) Reg.MOW_STS.STATE = 0) ∧
    ((st skewDev).accepts k0 (.mower 0) 0x14 ∧ ((st skewDev).written 0 k0 (.mower 0)).fld (.mower 0) Reg.MOW_STS.STATE ≠ 0) ∧
    ({ cfg0 with mowerMask := 3 }.mowers.head? ≠ some 1) := by
  decide +kernel

/-- A TRUG command of group 0 and bucket 0 without elements or queues, waiting; the group has one member, this device. -/
def trugCmd : List Byte := [1, 0, 0, 1, 1, 0, 0xFF, 0xFF] ++ leBytes 12 0 ++ [0xFF, 0xFF] ++ leBytes 42 0
def trugRun : TrugRun := ⟨5, 0, 0, trugCmd, none, none, none⟩
def trugInst : TrugInst := ⟨0, 0, none, [], [], false, false⟩
def trugDev : Dev :=
  { (((withBed on).setFld .trug Reg.TRUG_STAGE_SIZE.SIZE 1).setFldI .trug Reg.TRUG_GRP_COUNT.COUNT 0 1).setFldI .trug Reg.TRUG_GRP_CTL.VALID 0 1 with
    trugWait := [trugRun], trugs := [trugInst] }
/-- The same device once that command has left the waiting ones. -/
def trugLeft : Dev := { trugDev.touch 0 with trugWait := trugDev.trugWait.erase trugRun }

theorem witness_TrugCommandsStart :
    ((st (itemDev .trug trugCmd)).live .trug ∧
      ((itemDev .trug trugCmd).touch 0).arriving 0 [0, 1] (fun c => c.kind == .trug) = some (item .trug trugCmd)) ∧
    (let d := trugDev.touch 0
     let c := TrugCmd.ofBytes trugRun.cmd
     let sp := trugLeft.trugSource c
     (st trugDev).live .trug ∧
      d.trugWait.find? (fun r => r.bed == 0 && ((TrugCmd.ofBytes r.cmd).inQ == 0xFFFF || r.input.isSome)) = some trugRun ∧
      d.bed 0 = some bed0 ∧ trugRun.poison = none ∧ trugRun.input = none ∧ d.instFor c = some 0 ∧
      trugLeft.spanCause cfg0 sp.2 false = none ∧
      (trugLeft.spanNote (.lodge (c.bucket % 2)) 0 sp.2 0 sp.2.n).trugs[0]? = some trugInst) := by
  decide +kernel

/-- A whole result packet of member 0 without elements, with a group epoch. -/
def trugMsg (ep : Nat) : RxMsg :=
  ⟨1, (⟨Msg.trug, 0, 0, 0, 0, 0, 0, 0, 0⟩ : MsgHead).bytes ++
    (⟨3, 1, 0, false, true, false, false, 0, 0, ep, 0, 0, 0, 0, 0, 0, true⟩ : TrugHead).bytes, [], 1, true, none, false, 0⟩
def msgDev (m : RxMsg) : Dev := trugDev.modPort 0 (fun x => { x with rx := [m] })

/-- What the statement asks of a packet's header, its group apart. -/
def plain (h : TrugHead) (len : Nat) : Prop :=
  (1 ≤ h.type ∧ h.type ≤ 3) ∧ h.zeros = true ∧ (h.type ≠ 2 → h.mix = false) ∧ (h.type = 1 → h.nflags = 0) ∧ (h.count = 0 ↔ len = 0) ∧
  (h.count ≠ 0 → len % h.count = 0) ∧ (h.empty = true → h.count = 0)

theorem witness_TrugPacketsComplete :
    (let m := trugMsg 0
     let d := (msgDev m).touch 0
     let h := TrugHead.ofBytes (m.head.drop 32)
     let ms := d.members h.grp
     let x := trugInst
     (st (msgDev m)).live .trug ∧ (d.port 0).firstMsg 1 = some m ∧ plain h m.fields.length ∧
      d.fldI .trug Reg.TRUG_GRP_CTL.VALID h.grp ≠ 0 ∧ h.gepoch = d.fldI .trug Reg.TRUG_GRP_EPOCH.EPOCH h.grp ∧ h.src < ms.length ∧
      h.owner < ms.length ∧ strangePacket h ms (d.selfOf h.grp) = false ∧ d.instOf h = some 0 ∧ d.trugs[0]? = some x ∧
      (x.run.isNone || (h.type == 2 && !x.turn ms (d.selfOf h.grp) h.src)) = true ∧
      (d.stagePlace (h.bucket % 2) m.fields.length).isSome = true) ∧
    (let m := trugMsg 7
     let d := (msgDev m).touch 0
     let h := TrugHead.ofBytes (m.head.drop 32)
     (d.port 0).firstMsg 1 = some m ∧ plain h m.fields.length ∧ h.gepoch ≠ d.fldI .trug Reg.TRUG_GRP_EPOCH.EPOCH h.grp) := by
  unfold plain
  decide +kernel

/-- The instance runs that command. -/
def openDev : Dev := { trugDev with trugs := [{ trugInst with run := some trugRun }] }

theorem witness_TrugGroupsComplete :
    (let d := openDev.touch 0
     (st openDev).live .trug ∧ d.trugs.findIdx? (fun x => x.grp == 0 && x.bucket == 0 && x.run.isSome && !x.closed) = some 0 ∧
      d.trugs[0]? = some { trugInst with run := some trugRun } ∧ d.bed trugRun.bed = some bed0 ∧
      (TrugCmd.ofBytes trugCmd).queue = 0xFFFF) ∧
    ((st on).accepts k0 .trug 0x0 ∧ 15 < 16) ∧
    ((st on).accepts k0 .trug (0x100 + 15 * 0x20) ∧ (writeMerge .trug (0x100 + 15 * 0x20) .base 1#32
      (((st on).written 0 k0 .trug).word .trug (0x100 + 15 * 0x20))).toNat.testBit 0 = true) := by
  decide +kernel

/-- Port 0 in state `v`, holding what `x` holds. -/
def portDev (v : Nat) (x : PortSt) : Dev := ((withBed on).setFld (.obotil 0) Reg.OB_STS.STATE v).setPort 0 x

theorem witness_PortCommandsComplete :
    ((st on).accepts k0 (.obotil 0) 0x0 ∧ (st on).accepts k0 (.obotil 7) 0x0) ∧
    ((st (portDev 1 .start)).live (.obotil 0) ∧ (portDev 1 .start).portState 0 = 1 ∧ (portDev 1 .start).widthOk 0 3 = true) ∧
    ((st (portDev 3 .start)).live (.obotil 0) ∧ (portDev 3 .start).portState 0 = 3 ∧ ((portDev 3 .start).port 0).fails < 2) ∧
    (2 ≤ ((portDev 3 { PortSt.start with fails := 2 }).port 0).fails) := by
  decide +kernel

/-- Ports with a SACK, a quarter, nothing, and a replay buffer of one flit. -/
def sackPort : PortSt := { PortSt.start with short := [.sack 5] }
def curPort : PortSt := { PortSt.start with cur := [wireQuarter false 0 []] }
def flit0 : TxFlit := ⟨0, true, padTo 256 [2]⟩
def replayPort : PortSt := { PortSt.start with replay := [(4095, flit0)] }

theorem witness_FlitsComplete :
    ((st (portDev 2 sackPort)).live (.obotil 0) ∧ (portDev 2 sackPort).portUp 0 = true ∧ sackPort.credit 3 = true ∧
      nextShort sackPort.short = some (.sack 5)) ∧
    (nextShort curPort.short = none ∧ curPort.cur = wireQuarter false 0 [] :: []) ∧
    (nextShort PortSt.start.short = none ∧ PortSt.start.cur = [] ∧
      (match PortSt.start.nextFull 0 with | (_ :: _, _) => true | _ => false) = true) ∧
    ((padTo 256 [2]).length = 256 ∧ 2 < 3 ∧ 4095 < 4096) ∧
    ((padTo 256 []).length = 256 ∧ bitsOf (numAt (padTo 256 []) 16 8) 63 20 = 0 ∧
      ((padTo 256 []).drop 24).all (fun b => b == 0#8) = true) ∧
    ((st (portDev 2 replayPort)).live (.obotil 0) ∧ (portDev 2 replayPort).portUp 0 = true ∧
      ((portDev 2 replayPort).port 0).replay = (4095, flit0) :: [] ∧
      ((portDev 2 replayPort).port 0).timer + 64000 ≤ max (portDev 2 replayPort).now 64000) := by
  decide +kernel

theorem witness_FlitQuartersDecode : 15 < 16 ∧ (List.replicate 64 0xA5#8).length = 64 := by decide

/-- A gate table entry of bed 0: 8 bytes of HBM at 4096, writable. -/
def gateBytes : List Byte := leBytes 8 4096 ++ leBytes 4 8 ++ [0, 1, 0, 0] ++ leBytes 4 9 ++ leBytes 12 0
/-- Gates 0 to 3 hold that entry, UNLOADED, LATCHED and OPEN, and the table holds it for gate 4095. -/
def gateDev : Dev :=
  ((((withBed on).setGate 0 ⟨0, 9, gateBytes⟩).setGate 1 ⟨1, 9, gateBytes⟩).setGate 2 ⟨2, 2 ^ 32 - 1, gateBytes⟩).writeBytes .hbm
    (32 * 4095) gateBytes
/-- An OBOTIL item of bed 0: operation and gate. -/
def gateItem (op g : Byte) : Item := item .obotil (op :: 0#8 :: g :: List.replicate 61 0#8)
def gateItemDev (op g : Byte) : Dev := { gateDev with items := [gateItem op g] }
def waitDev : Dev := { gateDev with gateWaits := [⟨1, some 5, 0⟩] }

theorem witness_GateCommandsComplete :
    (4095 < 4096 ∧ (st gateDev).accepts k0 (.obotil 0) 0x114 ∧ (gateDev.gate 4095).state ≠ 2 ∧
      gateDev.gateOk (GateEntry.ofBytes (gateDev.readBytes .hbm (gateDev.gateEntryAt 4095) 32)) = true ∧
      gateDev.anyBad .hbm (gateDev.gateEntryAt 4095) 32 = false) ∧
    ((gateDev.gate 0).state = 0 ∧ (gateDev.gate 1).state = 1 ∧ (gateDev.gate 2).state = 2) ∧
    (let i := gateItem 2 1
     let d0 := (gateItemDev 2 1).touch 0
     (st (gateItemDev 2 1)).live (.obotil 0) ∧ d0.nextGateItem 0 1 = some i ∧ i.cfg.gate = 1 ∧ (d0.gate 1).fields.bed = 0 ∧
      i.cfg.op = 2 ∧ gateMove 2 (d0.gate 1) = some ⟨2, 9, gateBytes⟩) ∧
    (let i := gateItem 1 2
     let d0 := (gateItemDev 1 2).touch 0
     d0.nextGateItem 0 2 = some i ∧ (d0.gate 2).fields.bed = 0 ∧ i.cfg.op = 1 ∧
      gateMove 3 (d0.gate 2) = some ⟨1, 2 ^ 32 - 1, gateBytes⟩) ∧
    (let i := gateItem 3 2
     let d0 := (gateItemDev 3 2).touch 0
     d0.nextGateItem 0 2 = some i ∧ i.cfg.op = 3 ∧ gateMove 4 (d0.gate 2) = some ⟨2, 0, gateBytes⟩) ∧
    (let d := waitDev.touch 0
     (st waitDev).live (.obotil 0) ∧ d.gateWaits.find? (fun w => w.gate == 1) = some ⟨1, some 5, 0⟩ ∧
      d.writesBefore ⟨1, some 5, 0⟩ = false) := by
  decide +kernel

/-- A whole WRITE of 8 bytes to gate `g` at epoch 9, and the same once it has been checked; an ACK and a NACK of WTAG 7. -/
def writeMsg (g : Nat) : RxMsg :=
  ⟨2, (⟨Msg.write, 0, 0, g, 8, 9, 0, 7, 0⟩ : MsgHead).bytes, List.replicate 256 1#8, 2, true, none, false, 0⟩
def checkedMsg : RxMsg := { writeMsg 3 with window := some (0, 4096) }
def answerMsg (type reason : Nat) : RxMsg :=
  ⟨0, (⟨type, 0, 0, 3, 0, 9, 0, 7, reason⟩ : MsgHead).bytes, [], 1, true, none, false, 0⟩
/-- Gate 3 is OPEN, rill 0 of die 0 waits for WTAG 7, and port 0 has received a message. -/
def openGate (m : RxMsg) : Dev :=
  ((rillDev { rillRun (desc 0 0 0 0 4096 32 1) with tags := [7] }).setGate 3 ⟨2, 9, gateBytes⟩).setPort 0 { PortSt.start with rx := [m] }

theorem witness_GateWritesComplete :
    (let m := writeMsg 3
     let d := (openGate m).touch 0
     (st (openGate m)).live (.obotil 0) ∧ (d.port 0).firstMsg 2 = some m ∧ m.window = none ∧ d.writeRefusal m.fields = 0 ∧
      m.whole = true) ∧
    ((openGate (writeMsg 4)).writeRefusal (writeMsg 4).fields = 6) ∧
    (let m := checkedMsg
     let d0 := (openGate m).touch 0
     (d0.port 0).firstMsg 2 = some m ∧ m.window = some (0, 4096) ∧ m.whole = true ∧
      locMem 0 (4096 + m.fields.offset) = some (.hbm, 4096)) ∧
    (let m := answerMsg 2 0
     let d0 := (openGate m).touch 0
     (d0.port 0).firstMsg 0 = some m ∧ m.fields.type = 2 ∧
      (d0.modPort 0 (fun x => x.freeMsg m)).writerOf m.fields.wtag = some (0, 0)) ∧
    (let m := answerMsg 3 1
     let d0 := (openGate m).touch 0
     (d0.port 0).firstMsg 0 = some m ∧ m.fields.type = 3 ∧
      ((d0.modPort 0 (fun x => x.freeMsg m)).gateLast m.fields.reason m.fields.gate m.fields.src).writerOf m.fields.wtag = some (0, 0)) ∧
    ((openGate checkedMsg).rill 0 0).trail = [] ∧
    ((st (gateItemDev 4 0)).live (.obotil 0) ∧ 1 < 2 ∧
      ((gateItemDev 4 0).touch 0).arriving 0 [1] (fun c => c.kind == .obotil && c.op == 4) = some (gateItem 4 0)) := by
  decide +kernel

/-- A BARRIER item of group 15, and the tokens and acknowledgements of it. -/
def barItem : Item := item .barrier [15#8]
def barDev : Dev := { portDev 2 .start with items := [barItem] }
def tok : Nat := tokenWord 0 15 0 3
def unsackedDev : Dev := (portDev 2 .start).setBar 15 ⟨[], [], [(0, tok, 0)]⟩

theorem witness_BarriersComplete :
    ((st barDev).live (.obotil 0) ∧
      (barDev.touch 0).arriving 0 [0, 1] (fun c => c.kind == .barrier) = some barItem) ∧
    ((st barDev).live (.obotil 0) ∧ barDev.portUp 0 = true ∧
      (((barDev).touch 0).recvShort 0 1 (wireShort 1 tok 0)).2 = some (padTo 64 (leBytes 8 tok ++ leBytes 8 0)) ∧
      numAt (padTo 64 (leBytes 8 tok ++ leBytes 8 0)) 0 8 = tok ∧ bitsOf tok 39 36 = 0 ∧ bitsOf tok 47 41 = 0 ∧
      bitsOf (numAt (padTo 64 (leBytes 8 tok ++ leBytes 8 0)) 8 8) 63 16 = 0 ∧
      ((padTo 64 (leBytes 8 tok ++ leBytes 8 0)).drop 16).all (fun b => b == 0#8) = true) ∧
    ((((barDev).touch 0).recvShort 0 2 (wireShort 2 tok 0)).2 = some (padTo 64 (leBytes 8 tok)) ∧
      ((padTo 64 (leBytes 8 tok)).drop 8).all (fun b => b == 0#8) = true) ∧
    ((st unsackedDev).live (.obotil 0) ∧ ((unsackedDev.touch 6400).bar 15).unsacked.find? (fun u =>
      decide (u.2.2 + 6400 ≤ (unsackedDev.touch 6400).now) && (unsackedDev.touch 6400).portUp u.1) = some (0, tok, 0)) := by
  decide +kernel

/-- Port 0 with VFs 1 and 2, and the device asleep in DORMANT. -/
def vfDev : Dev := on.setPcie 0 { on.pcie 0 with vfEnable := true, numVfs := 2, vfUp := true }
def dormantDev : Dev := on.setPower 2

theorem witness_PcieCommandsComplete :
    (0 < 2 ∧ (Dev.start.touch 0).portReady 0 = false ∧ (on.touch 0).portReady 0 = true ∧ (dormantDev.touch 0).portReady 0 = true ∧
      (dormantDev.touch 0).asleep = true ∧ (on.touch 0).asleep = false ∧ (on.touch 0).fnHere 0 255 = false) ∧
    ((st on).dev.portReady 0 = true ∧ (st on).dev.asleep = false ∧ (st on).dev.fnHere 0 0 = true ∧ (st vfDev).dev.fnHere 0 2 = true) ∧
    ((st on).dev.portReady 0 = true ∧ (((st on).dev.touch 0).pcie 0).vfEnable = false ∧ 255 ≤ 255 ∧ ((st vfDev).dev.touch 0).fnHere 0 2 = true) ∧
    (4096 < 2 ^ ((st on).dev.pcie 0).barLog2 ∧ 4096 < 0x7FFF00000 ∧ (on.touch 0).hbmPopulated ((on.touch 0).winAddr 0 4096) = true ∧
      (on.touch 0).clockOn (.hbmCtl (((on.touch 0).winAddr 0 4096) / 2 ^ 37) (((on.touch 0).winAddr 0 4096) / 2 ^ 36 % 2)) = true) := by
  decide +kernel

/-- Queue 5: an active host queue of PF 0 with rings of 16 entries, SQ_HEAD 15 and SQ_TAIL 0, with `n` commands outstanding of 4. -/
def hostQ (n : Nat) : BitVec 512 :=
  ctxSet (ctxSet (ctxSet (ctxSet (ctxSet (ctxSet 0#512 Ctx.kind 1) Ctx.limit 4) Ctx.sqLog2 4) Ctx.cqLog2 4) Ctx.sqHead 15) Ctx.outstanding n
def hostDev (cs : List HostCmd) : Dev := { (withBed on).setCtx 5 (hostQ cs.length) with hostCmds := cs }

/-- A command of queue 5: opcode, CID 9, four arguments. -/
def hostBytes (op : Byte) (a0 a1 a2 a3 : Nat) : List Byte :=
  [op, 0, 9, 0, 0, 0, 0, 0] ++ leBytes 8 a0 ++ leBytes 8 a1 ++ leBytes 8 a2 ++ leBytes 8 a3 ++ leBytes 24 0
def hcmd (op : Byte) (a0 a1 a2 a3 : Nat) : HostCmd := ⟨5, hostBytes op a0 a1 a2 a3, false, none, 0, false, 0⟩
def doneCmd : HostCmd := { hcmd 0 0 0 0 0 with outcome := some (0, 0) }

theorem witness_HostQueuesComplete :
    ((st (hostDev [])).live .queue ∧ (hostDev []).asleep = false ∧ (hostDev []).portReady 0 = true ∧ (hostDev []).fnHere 0 0 = true ∧
      (hostDev []).clockOn .queue = true ∧ ((hostDev []).touch 0).doorbell 0 0 5 = some 5 ∧
      ((hostDev []).touch 0).queueInError 5 = false ∧ ((hostDev []).touch 0).doorbell 0 0 6 = none) ∧
    ((hostBytes 0 0 0 0 0).length = 64 ∧ ((hostDev []).touch 0).qfld 5 Ctx.kind = 1 ∧ ((hostDev []).touch 0).qfld 5 Ctx.state = 0 ∧
      ((hostDev []).touch 0).qfld 5 Ctx.sqHead ≠ ((hostDev []).touch 0).qfld 5 Ctx.sqTail ∧
      ((hostDev []).touch 0).qfld 5 Ctx.outstanding < ((hostDev []).touch 0).qfld 5 Ctx.limit) ∧
    ((hostDev [doneCmd]).hostCmd 5 9 (fun c => c.outcome.isSome) = some (0, doneCmd) ∧ CplStatus.abort ≠ .success ∧
      (hostDev []).qfld 5 Ctx.kind = 1) := by
  decide +kernel

/-- Command `c` of queue 5 is found on a device where it is the only one, and FENCE lets it. -/
def found (d : Dev) (c : HostCmd) (p : Nat → Bool) : Prop :=
  (st d).live .queue ∧ (d.touch 0).fenceOk 0 c = true ∧ c.outcome = none ∧
    (d.touch 0).hostCmd 5 9 (fun c => p c.opc && c.outcome.isNone) = some (0, c)
def lone (c : HostCmd) (p : Nat → Bool) : Prop := found (hostDev [c]) c p
def begunTrellis : HostCmd := { hcmd 3 0 0 0 0 with started := true }

def doneTrellis : Dev := (hostDev [begunTrellis]).setFld .trellis Reg.TRELLIS_STS.DONE 1

theorem witness_HostCommandsComplete :
    lone (hcmd 0 0 0 0 0) (fun o => o == 0) ∧
    (lone (hcmd 2 0x100 0 0 0) (fun o => o == 2) ∧ ((hostDev [hcmd 2 0x100 0 0 0]).touch 0).bed (bitsOf ((hcmd 2 0x100 0 0 0).arg 0) 5 0) = some bed0) ∧
    (found doneTrellis begunTrellis (fun o => o == 3) ∧ begunTrellis.started = true ∧
      (doneTrellis.touch 0).fld .trellis Reg.TRELLIS_STS.LSTATE = 0 ∧
      ((doneTrellis.touch 0).isSet .trellis Reg.TRELLIS_STS.ERR || (doneTrellis.touch 0).isSet .trellis Reg.TRELLIS_STS.DONE) = true) ∧
    lone (hcmd 4 7 0 0 0) (fun o => o == 4) ∧
    (lone (hcmd 5 0 1 0 0) (fun o => o == 5) ∧ ((hostDev [hcmd 5 0 1 0 0]).touch 0).bed 0 = some bed0) ∧
    lone (hcmd 0xFF 0 0 0 0) (fun o => decide (0x80 ≤ o)) ∧
    (lone (hcmd 1 0 64 64 5) (fun o => o == 1) ∧ (hcmd 1 0 64 64 5).started = false ∧ bitsOf ((hcmd 1 0 64 64 5).arg 3) 1 0 ≠ 0) := by
  unfold lone found; decide +kernel

theorem witness_QueueWritesComplete :
    (k0.vf = none ∧ (st on).accepts k0 .queue 0x4 ∧ (st on).accepts k0 .queue (0x100 + 4 * 63) ∧ 63 < 64) ∧
    (let d := (st ((hostDev []).setWord .queue 0x0 5)).written 0 k0 .queue
     (st ((hostDev []).setWord .queue 0x0 5)).accepts k0 .queue 0x4 ∧ d.qfld (d.qctxSel k0) Ctx.kind = 1) ∧
    (let b := ((on.setCtx 5 (ctxSet 0#512 Ctx.kind 2)).setWord .queue 0x0 5)
     let d := (st b).written 0 k0 .queue
     (st b).accepts k0 .queue 0x4 ∧ d.qfld (d.qctxSel k0) Ctx.kind = 2) := by
  decide +kernel

/-- Lodge `l` in a role. -/
def roleDev (l r : Nat) : Dev := on.setFld (.warden l) Reg.WARDEN_STS.ROLE r
def hb0 : HbMsg := ⟨3, 1, 0, 0#64, 0#64, true, 0⟩

theorem witness_HeartbeatsComplete :
    (0 < 2 ∧ (st on).live (.warden 0) ∧ on.role 0 = 1 ∧ (on.lodge 0).stopped = false ∧ (on.ward 0).hbT = none) ∧
    (let d := on.modWard 1 (fun w => { w with hb := some hb0 })
     (st d).live (.warden 0) ∧ (d.ward 1).hb = some hb0 ∧ max d.now (200 * 64) ≤ hb0.sentT + 200 * 64) ∧
    ((st (roleDev 1 2)).live (.warden 1) ∧ (roleDev 1 2).role 1 = 2) ∧
    (let d := (roleDev 1 3).modWard 1 (fun w => { w with resyncing := true })
     (st d).live (.warden 1) ∧ (d.ward 1).resyncing = true ∧ d.role (1 - 1) = 1 ∧ (d.role 1 = 2 ∨ d.role 1 = 3)) := by
  decide +kernel

/-- Lodge 1 is STANDBY and has claimed epoch 4 at instant 0, with an answer of die 7 on its way. -/
def claimDev (ack : Bool) : Dev :=
  (roleDev 1 2).modWard 1 (fun w => { w with seen := 3, claim := some (4, 0), answers := [(7, ack, 9, 0)], lastHb := some 0 })
def rejDev : Dev := (claimDev true).modWard 1 (fun w => { w with rej := some (9, 0) })
def wonDev : Dev := (claimDev true).setFld (.warden 1) Reg.WARDEN_CLAIM.ACK 0x1F

theorem witness_ClaimsComplete :
    (let d := (roleDev 1 2).modWard 1 (fun w => { w with lastHb := some 0 })
     (st d).live (.warden 1) ∧ (d.ward 1).claim = none ∧ (d.ward 1).seen < 0xFFFFFFFF ∧ (d.touch 512000).role 1 = 2 ∧
      (d.touch 512000).isSet (.warden 1) Reg.WARDEN_CTL.TAKEOVER_EN = true ∧ ((d.touch 512000).ward 1).lastHb = some 0 ∧
      0 + 512000 ≤ (d.touch 512000).now) ∧
    (let d := (roleDev 1 0).modLodge 1 (fun x => { x with step := 5 })
     (st d).live (.warden 1) ∧ (d.ward 1).claim = none ∧ (d.touch 0).role 1 = 0 ∧ ((d.touch 0).lodge 1).step = 5 ∧
      ((d.touch 0).lodge 1).stopped = false) ∧
    ((st (claimDev true)).live (.warden 1) ∧ 7 < 8 ∧ ((claimDev true).ward 1).claim = some (4, 0) ∧
      ((claimDev true).ward 1).answers.find? (fun a => a.1 == 7) = some (7, true, 9, 0) ∧
      ((claimDev false).ward 1).answers.find? (fun a => a.1 == 7) = some (7, false, 9, 0)) ∧
    ((st rejDev).live (.warden 1) ∧ (rejDev.ward 1).claim = some (4, 0) ∧ ((rejDev.touch 0).ward 1).rej = some (9, 0)) ∧
    ((st wonDev).live (.warden 1) ∧ (wonDev.ward 1).claim = some (4, 0) ∧ ((wonDev.touch 64000).ward 1).rej = none ∧
      5 ≤ popCount8 ((wonDev.touch 64000).fld (.warden 1) Reg.WARDEN_CLAIM.ACK) ∧ 0 + 64000 ≤ (wonDev.touch 64000).now) ∧
    (((claimDev true).touch 256000).now = 0 + 256000 ∧ (((claimDev true).touch 256000).ward 1).rej = none) := by
  decide +kernel

/-- A rill's register of die 0 is written. -/
def dieWrite : WriteAccess := wr 0x1100000

theorem witness_WardensComplete :
    (let d := on.modWard 0 (fun w => { w with outranked := some (5, 1) })
     0 < 2 ∧ (st d).live (.warden 0) ∧ d.lostTo 0 = some (5, 1) ∧ d.role 0 = 1) ∧
    (k0.lodge < 2 ∧ (st on).accepts k0 (.warden k0.lodge) 0x0) ∧
    (let d := (st ((roleDev 1 2).setFld (.warden 1) Reg.WARDEN_STS.SYNC 2)).written 0 k0 (.warden 0)
     d.role 0 = 1 ∧ d.role 1 = 2 ∧ d.sync 1 = 2) ∧
    (target dieWrite.src dieWrite.addr = some (.rill 0 0, false) ∧ dieWrite.src.isVf = false ∧ (Blk.rill 0 0).dieOf = some 0 ∧
      (st on).live (.rill 0 0) ∧ (Blk.rill 0 0).listed (dieWrite.addr % 0x4000) = true ∧ on.clockOn (.rill 0 0) = true ∧
      (Blk.rill 0 0).posted = false ∧ on.diePair 0 = on.lodgePair 0 ∧
      (on.setFld (.dieCtl 0) Reg.DIE_WEPOCH.EPOCH 9).diePair 0 ≠ on.lodgePair 0) := by
  decide +kernel

theorem witness_ReferenceEventsComplete :
    (let d := on.modClk 0 (fun c => { c with oscFrom := some 0 })
     0 < 2 ∧ (st d).live (.clock 0) ∧ (d.clk 0).oscFrom = some 0 ∧
      0 * 27 + 32000000 * 2 ^ (d.lodge 0).straps.osc * 25 ≤ max d.now 32000000 * 27) ∧
    (let d := on.modClk 0 (fun c => { c with test := some (1, [], 0) })
     (st d).live (.clock 0) ∧ (d.clk 0).test ≠ none) ∧
    (let d := (on.setFld (.clock 0) Reg.CLK_STS.SRC_ACT 1).setFld (.clock 0) Reg.SUNDIAL_STS.CAL 1
     (st d).live (.clock 0) ∧ (d.clk 0).test = none ∧ d.switch = none ∧ d.srcAct 0 ≠ 0 ∧ d.isSet (.clock 0) Reg.SUNDIAL_STS.CAL = true) ∧
    (let d : Dev := { on with hold := some ⟨12, 8, true, false⟩ }
     (st d).live (.clock 0) ∧ (d.touch 0).hold = some ⟨12, 8, true, false⟩ ∧ 0 = (d.touch 0).wardenLodge) ∧
    ((st on).live (.clock 0) ∧ (on.touch 0).hold = none ∧ (on.touch 0).phase ≠ 2) ∧
    (let d := on.setFld (.clock 0) Reg.CLK_STEP.CORE 48
     (st d).live (.clock 0) ∧ (d.touch 1000000).rampDue 0 = true ∧ 0 = (d.touch 1000000).wardenLodge) ∧
    ((st on).live (.clock 1) ∧ ((on.setFld (.clock 1) Reg.CLK_STEP.KEEPER 48).touch 1000000).rampDue 1 = true ∧ on.wardenLodge ≠ 1) ∧
    (st on).accepts k0 (.clock k0.lodge) 0x8 := by
  decide +kernel

/-- A switch to the external source is in phase `p`; in phase 1 all domains stand at step 48. -/
def switchDev (p : Nat) (r : Bool) : Dev :=
  { ((on.setFld (.clock 0) Reg.CLK_STS.PHASE p).setFld (.clock 0) Reg.CLK_STEP.CORE 48).setFld (.clock 0) Reg.CLK_STEP.KEEPER 48 with
    switch := some ⟨1, 0, 0, r⟩ }

theorem witness_ClockCommandsComplete :
    (k0.lodge < 2 ∧ (st on).accepts k0 (.clock k0.lodge) 0x0 ∧ (2#2 : BitVec 2) ≠ 3#2) ∧
    (on.fld (.clock 0) Reg.CLK_CTL.SRC = on.fld (.clock 0) Reg.CLK_CTL.SRC) ∧
    ((st (switchDev 1 false)).live (.clock 0) ∧ (switchDev 1 false).switch = some ⟨1, 0, 0, false⟩ ∧ (switchDev 1 false).wardenLodge = 0 ∧
      ((switchDev 1 false).touch 0).phase = 1 ∧ ((switchDev 1 false).touch 0).allAt 48 = true) ∧
    (((switchDev 2 true).touch 0).phase = 2 ∧ (switchDev 2 true).switch = some ⟨1, 0, 0, true⟩) ∧
    (let d : Dev := { (on.setFld (.clock 0) Reg.CLK_STS.PHASE 4) with switch := some ⟨1, 0, 0, false⟩ }
     let e := (d.setFld (.clock 0) Reg.CLK_STEP.CORE (d.targetStep 0)).setFld (.clock 0) Reg.CLK_STEP.KEEPER (d.targetStep 0)
     (e.touch 0).phase = 4 ∧ (e.touch 0).allAt ((e.touch 0).targetStep 0) = true) ∧
    ((st on).accepts k0 (.clock k0.lodge) 0x100 ∧ (st on).accepts k0 (.clock k0.lodge) 0x2EC) := by
  decide +kernel

def entry0 : LogEntry := on.entry (.chime) 1 0
def logDev : Dev := { on with log := [entry0] }
def keeperDev : Dev :=
  (on.setFld (.lodgeCtl 0) Reg.KEEPER_WDOG.TIMEOUT_US 5).setFld (.lodgeCtl 0) Reg.LODGE_STS.KEEPER_UP 0x8000

theorem witness_ReliabilityCommandsComplete :
    ((st on).accepts k0 .fault 0x0 ∧ on.log = [] ∧ (st logDev).accepts k0 .fault 0x0 ∧ logDev.log = entry0 :: []) ∧
    ((st on).live .fault ∧ 15 < 16 ∧ 7 < 8) ∧
    (((withBed on).touch 0).bedOfPlot 0 0 = some 0 ∧ Blk.chime.ofOneBed = false) ∧
    (15 < 16 ∧ (st keeperDev).live (.lodgeCtl 0) ∧ keeperDev.fld (.lodgeCtl 0) Reg.KEEPER_WDOG.TIMEOUT_US ≠ 0 ∧
      (keeperDev.fld (.lodgeCtl 0) Reg.LODGE_STS.KEEPER_UP).testBit 15 = true) := by
  decide +kernel

/-- Lodge 0 is in step `n` of start-up. -/
def stepDev (n : Nat) (boot : Nat) : Dev := on.modLodge 0 (fun x => { x with step := n, straps := { x.straps with boot := boot }, ghVer := some 2 })
/-- An image of 0 bytes of a KIND, with SEC_VERSION 2, KEY_ID 0 and a digest and signature of zeros. -/
def zeroImage (kind : Byte) : List Byte := leBytes 4 0x474E5353 ++ [kind, 0, 0, 0] ++ leBytes 4 2 ++ List.replicate 116 0#8
def media : BootMedia := ⟨some (7, 8), 0, some (1, 2, 0, 0), zeroImage 1, [], 0⟩
def trainDev (bin : Nat) : Dev := (on.setFld (.hbmCtl 7 1) Reg.HBM_STS.STATE 1).setFld (.hbmCtl 7 1) Reg.HBM_STS.BIN_ACT bin

theorem witness_StartupComplete :
    (let d : Dev := { Dev.start with pwr := { PwrSt.start with vaux := true } }
     (st d).live .power ∧ d.pwr.vaux = true ∧ d.pwr.pwrgd = false) ∧
    (15 < 16 ∧ (st (trainDev 1)).live (.hbmCtl (15 / 2) (15 % 2)) ∧ (trainDev 1).fld (.hbmCtl (15 / 2) (15 % 2)) Reg.HBM_STS.STATE = 1 ∧
      ((trainDev 1).touch 0).fld (.hbmCtl (15 / 2) (15 % 2)) Reg.HBM_STS.BIN_ACT < 2 ∧
      2 ≤ ((trainDev 2).touch 0).fld (.hbmCtl (15 / 2) (15 % 2)) Reg.HBM_STS.BIN_ACT) ∧
    ((st (stepDev 3 0)).live (.security 0) ∧ ((stepDev 3 0).lodge 0).stopped = false ∧ (stepDev 3 0).powerState ≠ 5 ∧
      (((stepDev 3 0).touch 0).lodge 0).step = 3 ∧ verifyImage 2 (componentKey [] 0 2) [] = none ∧ ((stepDev 3 0).touch 0).pwr.hotStart = false) ∧
    ((st (stepDev 4 1)).live (.security 0) ∧ (((stepDev 4 1).touch 0).lodge 0).step = 4 ∧ (((stepDev 4 1).touch 0).lodge 0).straps.boot < 2 ∧
      (((stepDev 4 3).touch 0).lodge 0).straps.boot = 3 ∧ media.ident ≠ none ∧ { media with counters := none }.counters = none ∧
      media.counters = some (1, 2, 0, 0)) ∧
    ((st (stepDev 6 0)).live (.security 0) ∧ (((stepDev 6 0).touch 0).lodge 0).step = 6 ∧
      ((stepDev 6 0).touch 0).isSet (.lodgeCtl 0) Reg.LODGE_STS.FW_UP = false) ∧
    ((st (stepDev 8 0)).live (.security 0) ∧ (((stepDev 8 0).touch 0).lodge 0).step = 8 ∧ ((stepDev 8 0).touch 0).isWarden 0 = true) := by
  decide +kernel

/-- Where the digests and the verification so answer, each image verifies, at SEC_VERSION 2. -/
theorem witness_StartupComplete_images (h1 : Config.sm3 = fun _ => 0) (h2 : Config.sm2Verify = fun _ _ _ _ => true) :
    verifyImage 2 (componentKey [] 0 2) (zeroImage 2) = some 2 ∧
    ((if ({ media with rootKey := Config.vendorKey } : BootMedia).rootKey = Config.vendorKey then
      verifyImage 1 vendorOnly media.loader else none) = some 2 ∧ (2 < 3 ∨ (((stepDev 4 1).touch 0).lodge 0).ghVer.getD 0 < 2) ∧
      1 ≤ 2 ∧ 2 ≤ (((stepDev 4 1).touch 0).lodge 0).ghVer.getD 0) ∧
    (verifyImage 3 (componentKey (((stepDev 6 0).touch 0).owners.filter (fun o => o.lodge == 0)) 0 1) (zeroImage 3) = some 2 ∧
      ((stepDev 6 0).touch 0).counter 0 1 ≤ 2 ∧ 2 < (((stepDev 6 0).touch 0).setCounters 0 (0, 3, 0, 0)).counter 0 1) := by
  have key (x : Nat → Option Nat) (hx : x 0 = some Config.vendorKey) (b : Byte) (hb : b = 1 ∨ b = 2 ∨ b = 3) :
      verifyImage b.toNat x (zeroImage b) = some 2 := by
    unfold verifyImage
    rw [show numLe (zeroImage b) 6 2 = 0 from by simp [zeroImage, numLe, bytesAt, leBytes, leNat]]
    simp only [hx, h1, h2]
    rcases hb with rfl | rfl | rfl <;> decide +kernel
  refine ⟨key _ rfl 2 (by simp), ⟨?_, by decide +kernel, by decide, by decide +kernel⟩, key _ rfl 3 (by simp), by decide +kernel, by decide +kernel⟩
  rw [if_pos rfl]; exact key _ rfl 1 (by simp)

theorem witness_SecurityCommandsComplete :
    (k0.lodge < 2 ∧ (st on).accepts k0 (.security k0.lodge) 0x0) ∧
    (let d := (on.modLodge 0 (fun x => { x with loaderVer := some 4 })).setFld (.security 0) Reg.SEC_CTR_ARG.VALUE 4
     d.fld (.security 0) Reg.SEC_CTL.CTR = 0 ∧ d.fld (.security 0) Reg.SEC_CTR_ARG.VALUE = 4 ∧ (d.lodge 0).advance = none ∧
      d.versionInForce 0 0 = some 4 ∧ on.versionInForce 0 0 = none) ∧
    (let d := on.modLodge 0 (fun x => { x with advance := some (3, 9) })
     (st d).live (.security 0) ∧ (d.lodge 0).advance = some (3, 9) ∧ d.fld (.security 0) Reg.SEC_CTL.CTR = 0) ∧
    (let d := (st (on.modLodge 0 (fun x => { x with ident := some 7 }))).written 0 k0 (.security 0)
     (d.lodge 0).ident = some 7 ∧ d.isSet (.lodgeCtl 0) Reg.PARAM_STS.READY = true ∧ (on.lodge 0).ident = none) ∧
    ((st on).live (.security 0) ∧ on.pwr.vaux = true ∧ (on.touch 0).fld (.security 0) Reg.SEC_STS.START_STEP < 4) ∧
    (let d := on.setFld (.security 0) Reg.SEC_STS.START_STEP 4
     4 ≤ (d.touch 0).fld (.security 0) Reg.SEC_STS.START_STEP ∧ (d.touch 0).isSet (.security 0) Reg.SEC_STS.IDENT_OK = false ∧
      ((d.setFld (.security 0) Reg.SEC_STS.IDENT_OK 1).touch 0).isSet (.security 0) Reg.SEC_STS.IDENT_OK = true) := by
  decide +kernel

theorem witness_PowerCommandsComplete :
    ((st on).accepts k0 .power 0x0 ∧ ((st on).written 0 k0 .power).powerState = 0) ∧
    ((st (on.setPower 1)).accepts k0 .power 0x0 ∧ ((st (on.setPower 1)).written 0 k0 .power).powerState = 1) ∧
    ((st (on.setPower 2)).accepts k0 .power 0x0 ∧ 2 ≤ ((st (on.setPower 2)).written 0 k0 .power).powerState) := by
  decide +kernel

theorem witness_DormancyComplete :
    ((st (on.setPower 3)).live .power ∧ (on.setPower 3).powerState = 3 ∧ 1 < 2) ∧
    (let d := (on.setPower 2).setFld .power Reg.POWER_WAKE.EN 1
     (st d).live .power ∧ d.powerState = 2 ∧ d.isSet .power Reg.POWER_WAKE.EN = true ∧
      d.pwr.entered + d.fld .power Reg.POWER_WAKE.TIMER_MS * 64000000 ≤
        max d.now (d.fld .power Reg.POWER_WAKE.TIMER_MS * 64000000)) ∧
    ((st (on.setPower 4)).live .power ∧ (on.setPower 4).powerState = 4) := by
  decide +kernel

theorem witness_PowerEventsComplete :
    ((on.setFld .power Reg.POWER_STS.DUTY 3).fld .power Reg.POWER_STS.DUTY = 3 ∧ on.fld .power Reg.POWER_STS.DUTY = 0) ∧
    ((st on).live .power ∧ 36 ≤ (List.replicate 36 460).length ∧ (∀ x ∈ (List.replicate 36 460).take 36, x ≤ 460) ∧
      ∃ x ∈ (List.replicate 36 461).take 36, 460 < x) := by
  refine ⟨by decide +kernel, by decide +kernel, by decide, by decide, 461, by decide, by decide⟩

theorem witness_SuppliesComplete :
    (on.pwr.pwrgd = true ∧ on.powerState ≠ 5 ∧ 37999 < 38000 ∧ 38000 ≤ 60000) ∧ Dev.start.pwr.vaux = false ∧
    (1 < 2 ∧ 0x3FFF < 0x4000) := by decide +kernel

theorem witness_StepRunsTheFrontCommand :
    (⟨[.chime 0], on⟩ : State).pending = .chime 0 :: [] ∧ (st on).pending = [] := by decide

/-- Neither a register of the table nor one with documented reserved-live bits holds altered ones. -/
theorem safe_of_all (d : Dev) (h : (d.regs.map (fun e => e.1) ++ d.rsvlDoc.map (fun e => e.1)).all (fun a => match Blk.ofAddr a with
    | some b => ((Tbl.get regReset d.regs a ^^^ d.documented a) &&& BitVec.ofNat 32 (b.rsvlAt (a % 0x10000))) == 0#32
    | none => true) = true) : (st d).safe := by
  intro b
  rw [← Bool.not_eq_true]
  simp only [Dev.altered, st, Bool.or_eq_true, List.any_eq_true]
  intro hb
  have key : ∃ a ∈ d.regs.map (fun e => e.1) ++ d.rsvlDoc.map (fun e => e.1), (Blk.ofAddr a == some b &&
      ((Tbl.get regReset d.regs a ^^^ d.documented a) &&& BitVec.ofNat 32 (b.rsvlAt (a % 0x10000))) != 0#32) = true := by
    obtain ⟨e, he, hb⟩ | ⟨e, he, hb⟩ := hb
    · exact ⟨e.1, List.mem_append_left _ (List.mem_map_of_mem he), hb⟩
    · exact ⟨e.1, List.mem_append_right _ (List.mem_map_of_mem he), hb⟩
  obtain ⟨a, ha, hb⟩ := key
  have := List.all_eq_true.mp h a ha
  simp only [Bool.and_eq_true, beq_iff_eq, bne_iff_ne] at hb
  rw [hb.1] at this
  exact hb.2 (by simpa using this)

theorem witness_CommandsStopOnlyOnAlteredBlocks :
    (st on).safe ∧ ((st (on.setPower 2)).safe ∧ (on.setPower 2).powerState = 2) ∧
    ((st (on.setPower 5)).safe ∧ (on.setPower 5).powerState = 5) := by
  exact ⟨safe_of_all _ (by decide +kernel), ⟨safe_of_all _ (by decide +kernel), by decide +kernel⟩,
    safe_of_all _ (by decide +kernel), by decide +kernel⟩

theorem witness_StepsKeepMemoriesCanonical :
    (⟨[], gateDev⟩ : State).dev.memWf = true ∧ step ⟨[], gateDev⟩ = .next ⟨[], gateDev⟩ ∧ gateDev.hbm ≠ [] := by
  refine ⟨by decide +kernel, rfl, by decide +kernel⟩

theorem witness_EarliestWriteErrorDecides :
    (let w : WriteAccess := { wr 0x300000 with size := 8 }
     on.dark w.blk = false ∧ (w.src.isHost && on.asleep) = false ∧ on.answers w.src = true ∧ on.noSuchFn w.src = false ∧
      (w.src.isVf && decide (0x10000 ≤ w.addr ∧ w.addr < 0x20000)) = false ∧
      target w.src w.addr = none) ∧
    (let w : WriteAccess := { wr 0x30000 with enables := 7#4 }
     let d : Dev := { on with clkOn := [] }
     d.dark w.blk = false ∧ d.answers w.src = true ∧ target w.src w.addr = some (.chime, false) ∧ w.enables ≠ 0xF#4) ∧
    (let w : WriteAccess := wr 0x1100000
     let d : Dev := { on with clkOn := [] }
     target w.src w.addr = some (.rill 0 0, false) ∧ ¬(w.size ≠ 4 ∨ w.addr % 4 ≠ 0 ∨ w.enables ≠ 0xF#4 ∨ w.amo = true) ∧
      d.clockOn (.rill 0 0) = false) ∧
    (let w : WriteAccess := { wr 0x30000 with src := .keeper 1 0 }
     target w.src w.addr = some (.chime, false) ∧ on.clockOn .chime = true ∧
      (sharedState .chime (w.addr % 0x4000) = true ∧ on.isWarden w.src.lodge = false)) ∧
    (let w : WriteAccess := wr 0x30000
     let d : Dev := { on with posted := [(0x30000, some ⟨4, 0, 1000#32, k0⟩)] }
     target w.src w.addr = some (.chime, false) ∧ d.clockOn .chime = true ∧ d.isWarden w.src.lodge = true ∧
      Blk.chime.posted = true ∧ d.isBusy .chime = true ∧ Blk.chime.wdrop = some Reg.CHIME_STS.WDROP) := by
  decide +kernel

theorem witness_LogKeepsItsOldestEntry :
    logDev.log = entry0 :: [] ∧ 7 < 8 ∧ 1024 ≤ ({ on with log := List.replicate 1024 entry0 } : Dev).log.length ∧
    (st logDev).accepts k0 .fault 0x0 ∧ (st on).accepts k0 .fault 0x0 ∧ (st on).dev.log = [] := by
  decide +kernel

theorem witness_CheckersFollowTheSyndrome :
    (let d : Dev := { on with synd := [(Mem.hbm.word 4100, 0x85#8)] }
     hedgeCheck (d.syndOf (Mem.hbm.word 4100)) = .corrected 40) ∧
    hedgeCheck (on.syndOf (Mem.gh.word 0)) = .clean ∧ 0 < 71 ∧ hedgeColumns[0]? = some 0x01#8 ∧ hedgeColumns[71]? = some 0x70#8 := by
  decide +kernel

theorem witness_WrittenBytesReadBack :
    on.memWf = true ∧ 4095 + [1#8, 2#8].length ≤ 2 ^ 44 ∧ (4094 < 4095 ∨ 4095 + 2 ≤ 4094) ∧ 4094 < 2 ^ 44 ∧ Mem.gh ≠ .hbm := by decide

theorem witness_CommandsThatStoreNothing : ∃ s', exec (.faultPop 0 k0) (st logDev) = .next s' :=
  ⟨_, rfl⟩

theorem witness_BarrowsAndHeadersDecode :
    (let b : Barrow := ⟨2 ^ 64 - 1, 2 ^ 32 - 1, 255, 7, 3, true, 31#5, false, true, true, 255⟩
     b.addr < 2 ^ 64 ∧ b.length < 2 ^ 32 ∧ b.gen < 256 ∧ b.loc < 8 ∧ b.path < 4 ∧ b.cause < 256) ∧
    (let h : MsgHead := ⟨255, 2 ^ 16 - 1, 2 ^ 16 - 1, 2 ^ 16 - 1, 2 ^ 32 - 1, 2 ^ 32 - 1, 2 ^ 32 - 1, 2 ^ 32 - 1, 255⟩
     h.type < 256 ∧ h.dst < 2 ^ 16 ∧ h.src < 2 ^ 16 ∧ h.gate < 2 ^ 16 ∧ h.length < 2 ^ 32 ∧ h.epoch < 2 ^ 32 ∧ h.offset < 2 ^ 32 ∧
      h.wtag < 2 ^ 32 ∧ h.reason < 256) := by decide

/-- The power ward caps, at a step and duty; the duty has changed since the last chime, or not; the sensors read `temps`. -/
def wardDev (step duty : Nat) (moved : Bool) (temps : List Nat) : Dev :=
  let d := ((on.setFld .power Reg.POWER_CTL.CAP_EN 1).setFld .power Reg.POWER_STS.STEP step).setFld .power Reg.POWER_STS.DUTY duty
  { d with pwr := { d.pwr with dutyMoved := moved, temps := temps } }
/-- A tick of `w` watts is over the cap, and under it, by R451. -/
def isOver (d : Dev) (w : Nat) : Bool :=
  let xs := ((w :: d.pwr.ticks).take 255).take (max 1 (d.fld .power Reg.POWER_WINDOW.WINDOW))
  d.pwr.temps.any (fun x => decide (4 * min 110 (d.fld .power Reg.POWER_THERM.THROTTLE_C) < x)) ||
    (d.fld .power Reg.POWER_CTL.CAP_EN == 1 && decide (d.fld .power Reg.POWER_CAP.CAP_W * xs.length < xs.sum))
def isUnder (d : Dev) (w : Nat) : Bool :=
  let xs := ((w :: d.pwr.ticks).take 255).take (max 1 (d.fld .power Reg.POWER_WINDOW.WINDOW))
  d.pwr.temps.all (fun x => decide (x + 20 ≤ 4 * min 110 (d.fld .power Reg.POWER_THERM.THROTTLE_C))) &&
    decide (xs.sum + d.fld .power Reg.POWER_CAP.HYST_W * xs.length < d.fld .power Reg.POWER_CAP.CAP_W * xs.length)

theorem witness_WardFollowsItsRule :
    ((st (wardDev 15 0 false [])).live .power ∧ (wardDev 15 0 false []).pwr.pwrgd = true ∧ (wardDev 15 0 false []).powerState ≠ 5) ∧
    (isOver (wardDev 15 0 false []) 3201 = true ∧ isOver (wardDev 15 0 false [401]) 0 = true ∧
      min 48 ((wardDev 15 0 false []).fld .power Reg.POWER_CTL.STEP_MAX) = 16) ∧
    ((wardDev 16 7 false []).fld .power Reg.POWER_STS.DUTY < 8 ∧ (wardDev 16 7 false []).pwr.dutyMoved = false ∧
      isOver (wardDev 16 7 false []) 3201 = true) ∧
    (8 ≤ (wardDev 16 8 false []).fld .power Reg.POWER_STS.DUTY ∧ isOver (wardDev 16 8 false []) 3201 = true ∧
      (wardDev 16 1 true []).pwr.dutyMoved = true) ∧
    (isOver (wardDev 16 1 false [380]) 3099 = false ∧ isUnder (wardDev 16 1 false [380]) 3099 = true) ∧
    (isOver (wardDev 1 0 false []) 3099 = false ∧ isUnder (wardDev 1 0 false []) 3099 = true ∧
      0 < (wardDev 1 0 false []).fld .power Reg.POWER_STS.STEP) ∧
    (isUnder (wardDev 0 0 false []) 3099 = true ∧ isUnder (wardDev 0 1 true []) 3099 = true) ∧
    (isOver (wardDev 0 0 false []) 3100 = false ∧ isUnder (wardDev 0 0 false []) 3100 = false ∧
      isOver (wardDev 0 0 false [381]) 0 = false ∧ isUnder (wardDev 0 0 false [381]) 0 = false) := by
  decide +kernel

/-! ### Ill-formed commands: one for each range, with the greatest number that the range takes -/

theorem smoke_die : (Instr.wardTick 0 0 []).wf = true ∧ (Instr.passIssue 0 7 67).wf = true ∧ (Instr.passIssue 0 8 0).wf = false := by decide
theorem smoke_plot : (Instr.passIssue 0 0 68).wf = false := by decide
theorem smoke_lodge : (Instr.election 0 1).wf = true ∧ (Instr.election 0 2).wf = false := by decide
theorem smoke_rill : (Instr.rillDescStart 0 0 15).wf = true ∧ (Instr.rillDescStart 0 0 16).wf = false := by decide
theorem smoke_sieve : (Instr.sieveIssue 0 0 3).wf = true ∧ (Instr.sieveIssue 0 0 4).wf = false := by decide
theorem smoke_slot : (Instr.bedRunSet 0 k0 0 31).wf = true ∧ (Instr.bedRunSet 0 k0 0 32).wf = false := by decide
theorem smoke_bed : (Instr.barrier 0 63).wf = true ∧ (Instr.barrier 0 64).wf = false := by decide
theorem smoke_furrow : (Instr.furrowReset 0 k0 0 0 31).wf = true ∧ (Instr.furrowReset 0 k0 0 0 32).wf = false := by decide
theorem smoke_bank : (Instr.glasshouseRequest 0 0 7 []).wf = true ∧ (Instr.glasshouseRequest 0 0 8 []).wf = false := by decide
theorem smoke_stack : (Instr.hbmRequest 0 15 31 []).wf = true ∧ (Instr.hbmRequest 0 16 0 []).wf = false := by decide
theorem smoke_pseudo : (Instr.hbmRequest 0 0 32 []).wf = false := by decide
theorem smoke_obotil : (Instr.flitTransmit 0 7).wf = true ∧ (Instr.flitTransmit 0 8).wf = false := by decide
theorem smoke_gate : (Instr.gateLoad 0 k0 4095).wf = true ∧ (Instr.gateLoad 0 k0 4096).wf = false := by decide
theorem smoke_group : (Instr.trugPurge 0 k0 15).wf = true ∧ (Instr.trugPurge 0 k0 16).wf = false := by decide
theorem smoke_function : (Instr.vfEnable 0 1 0).wf = true ∧ (Instr.configRequest 0 0 256 (.read 0)).wf = false := by decide
theorem smoke_queue : (Instr.hostNop 0 65535 0).wf = true ∧ (Instr.hostNop 0 65536 0).wf = false := by decide
theorem smoke_core : (Instr.keeperWatchdog 0 0 15).wf = true ∧ (Instr.keeperWatchdog 0 0 16).wf = false := by decide
theorem smoke_source : (Instr.faultPop 0 (.keeper 0 16)).wf = false ∧ (Instr.faultPop 0 (.gatehouse 2)).wf = false ∧
    (Instr.faultPop 0 (.jtag 2)).wf = false ∧ (Instr.faultPop 0 (.pcie 0 256)).wf = false := by decide
theorem smoke_agent : (Instr.barrowTake 0 (.mower 8) 0).wf = false ∧ (Instr.barrowTake 0 (.plot 0 68) 0).wf = false := by decide
theorem smoke_block : (Instr.postedWriteApply 0 (.hbmCtl 0 2)).wf = false ∧ (Instr.postedWriteApply 0 (.dieCtl 8)).wf = false := by decide
theorem smoke_requests : (Instr.hbmRequest 0 0 0 [⟨k0, some (.mower 8), 0, 0, 0, [], false, 0, .read 8, .none⟩]).wf = false := by decide
theorem smoke_others : (Instr.gateOpen 0 (.item 64) 0).wf = false ∧ (Instr.scrubRead 0 (.sram 8)).wf = false ∧
    (Instr.controlStateMismatch 0 (.keeper 2 0)).wf = false ∧ (Instr.pageRequestResponse 0 (.rill 8 0) true).wf = false ∧
    (Instr.benchAccessIssue 0 ⟨.trug, 0, 0, 32, 0, true, 64⟩).wf = false := by decide

/-! ### Worked examples of the spec -/

/-- No word spells a command, for the table gives no row bits. -/
theorem test_no_word : decodeTableWord 32 0xFFFFFFFF = none ∧ (State.reset).withFetchWord 32 1 = State.reset := ⟨rfl, rfl⟩

/-- 05 R128's example: 7.0, -1.25, 2.5, 0.3 and zeros as one MXFP4 block. -/
theorem test_mxfp4_block :
    let vs : List (Val × Nat) := ([.fin false 7 0, .fin true 5 (-2), .fin false 5 (-1), Fmt.binary32.decode 0x3E99999A] ++
      List.replicate 28 Val.zero).map (fun v => (v, 0))
    let r := Fmt.mxE2m1.deliverBlock .nearest vs
    r.1 = 0x80 ∧ r.2.1.take 5 = [0x6, 0x9, 0x2, 0x0, 0x0] ∧ r.2.2 = FlagSet.inx ||| FlagSet.unf ∧
      (Fmt.mxE2m1.pack r.2.1).take 3 = [0x96#8, 0x02#8, 0x00#8] := by decide +kernel

/-- 06's first example: two MXFP8 groups of a dense column, rounded to odd between them. -/
theorem test_dense_two_groups :
    let g0 := (Dense.start).addGroup false [.fin false 1344 0, .fin true 4 0]
    let g1 := g0.addGroup false [.fin true 1 (-46)]
    g0.word = 0x0000002A9E000000#64 ∧ g1.word = 0x0020002A9DFFFFFF#64 ∧
      Fmt.bfloat16.deliver .nearest true 0 (g1.result .nearest) = (0x44A7, FlagSet.inx) := by decide +kernel

/-- 06's second example: a sticky bit makes the defined summation round up, and aligned summation drops it. -/
theorem test_dense_sticky :
    let ps (b : Nat) : Val := (Fmt.bfloat16.decode b).mul (Fmt.bfloat16.decode b)
    let g := (Dense.start).addGroup false [ps 0x4480, ps 0x3581]
    let h := (Dense.start).addGroup true [ps 0x4480, ps 0x3581]
    Fmt.binary32.deliver .nearest true 0 (g.result .nearest) = (0x49800000, FlagSet.inx) ∧
      Fmt.binary32.deliver .up true 0 (g.result .up) = (0x49800001, FlagSet.inx) ∧
      Fmt.binary32.deliver .up true 0 (h.result .up) = (0x49800000, 0#5) := by decide +kernel

/-- 11's example: LNORM of 1, 2, 3, 6 with EPS 0.5. -/
theorem test_lnorm :
    let r : SieveRowIn := ⟨1, 0, true, false, false, .fin false 1 (-1), .one, false, fun _ => false,
      [.fin false 1 0, .fin false 2 0, .fin false 3 0, .fin false 6 0], none, [], [], (.zero, .zero), (.zero, .zero)⟩
    ((sieveRow r).run 0#5).1.y.map (fun v => (Fmt.bfloat16.deliver .nearest true 0 v).1) = [0xBF80, 0xBF00, 0x0000, 0x3FC0] ∧
      ((sieveRow r).run 0#5).1.w1.map (fun w => ((Fmt.binary32.deliver .nearest true 0 w.1).1,
        (Fmt.binary32.deliver .nearest true 0 w.2).1)) = some (0x40400000, 0x3F000000) := by decide +kernel

/-- 12's example of cosine decay with restarts. -/
theorem test_almanac :
    let a : Schedule := ⟨2, false, 2, 1000, 0, 2000, 1, .zero, .fin false 1 (-10), .fin false 1 (-14), .one, .one⟩
    let eta (s : Nat) : Nat := (Fmt.binary64.deliver .nearest true 0 ((a.eta s).run 0#5).1).1
    let code (m : Nat) (e : Int) : Nat := (Fmt.binary64.deliver .nearest true 0 (.fin false m e)).1
    eta 500 = code 1 (-11) ∧ eta 3000 = code 1 (-10) ∧ eta 5000 = code 17 (-15) := by decide +kernel

/-- 18 Table 18.2 and its example. -/
theorem test_hedge :
    hedgeColumns[11]? = some 0x92#8 ∧ hedgeCheck 0x92#8 = .corrected 11 ∧ hedgeCheck (0x58#8 ^^^ 0x51#8 ^^^ 0x32#8) = .bad ∧
      hedgeCheck 0xA9#8 = .bad ∧ hedgeCheck 0x84#8 = .bad ∧ hedgeCheck 0xFF#8 = .bad := by decide

/-- 20's example: the chimes that a duty of 3 holds. -/
theorem test_held_chimes :
    (List.range 16).filter (fun n => (on.setFld .power Reg.POWER_STS.DUTY 3).heldChime (BitVec.ofNat 64 n)) = [0, 6, 11] := by
  decide +kernel

/-- 04's example: CHIME_CTL reads 0x0001_0000; written by the host, CHIME is BUSY, a second write is dropped and sets WDROP. -/
theorem test_busy_chime :
    let host : Source := .pcie 0 0
    let w (a : Nat) (v : Word) : Instr := .registerWrite 0 ⟨host, a, 4, 0xF#4, false, v⟩
    on.readReg .chime 0x0 = 0x00010000#32 ∧
    (match exec (w 0x30000 0x00010F53#32) (st on) with
      | .next s1 => s1.dev.isBusy .chime && (match exec (w 0x30014 0x400#32) s1 with
        | .next s2 => s2.dev.isSet .chime Reg.CHIME_STS.WDROP && s2.dev.word .chime 0x14 == 0x200#32 &&
          (match exec (.postedWriteApply 0 .chime) s2 with
            | .next s3 => !s3.dev.isBusy .chime && s3.dev.readReg .chime 0x0 == 0x00010F53#32
            | _ => false)
        | _ => false)
      | _ => false) = true := by decide +kernel

/-- VAUX3V3 applied to the machine after reset: OFF (21). -/
theorem test_vaux : (match step ⟨[.vauxApply 0], Dev.start⟩ with
    | .next s => s.dev.powerState == 5 && s.pending.isEmpty
    | _ => false) = true := by decide +kernel

end Tests
end Sys2Proof
end

section
/-! PROOFS. The Trug engine takes its items and its commands start (01 R473; 13 R311, R312, R314, R320, R322). -/
namespace Sys2Proof
namespace Machine

theorem exec_trugIssue (t bed : Nat) (s : State) : exec (.trugIssue t bed) s = execTrugIssue t bed s := rfl
theorem exec_trugStart (t bed : Nat) (s : State) : exec (.trugStart t bed) s = execTrugStart t bed s := rfl

theorem Dev.setTrug_getElem?_self {d : Dev} {i : Nat} {x : TrugInst} (h : d.trugs[i]? = some x) (y : TrugInst) :
    (d.setTrug i y).trugs[i]? = some y := by
  obtain ⟨hi, -⟩ := List.getElem?_eq_some_iff.mp h
  simp [Dev.setTrug, hi]

/-- The device once a waiting command has left for its place in `trugs`: the oldest of its bucket without a command, or a new one
(13 R320). -/
def Dev.trugLeave (d : Dev) (r : TrugRun) (c : TrugCmd) : Dev :=
  { d with trugWait := d.trugWait.erase r, trugs := if (d.instFor c).isSome then d.trugs
      else d.trugs ++ [⟨c.grp, c.bucket, none, [], [], false, false⟩] }

/-- `trugLeave` as TRUG_START does it: in two steps, the second only where no place waits. -/
theorem Dev.trugLeave_eq_ite (d : Dev) (r : TrugRun) (c : TrugCmd) :
    (if (d.instFor c).isSome = true then { d with trugWait := d.trugWait.erase r }
      else { d with trugWait := d.trugWait.erase r, trugs := d.trugs ++ [⟨c.grp, c.bucket, none, [], [], false, false⟩] }) =
        d.trugLeave r c := by
  unfold Dev.trugLeave
  split <;> simp only [*]

/-- Whether a taken barrow is fresh lies in memory and in the queue contexts alone. -/
theorem Dev.trugLeave_takenFresh (d : Dev) (r : TrugRun) (c : TrugCmd) (k : TakenBarrow) :
    (d.trugLeave r c).takenFresh k = d.takenFresh k := rfl

/-- A bucket has room for a command: a place waits for one, or one more may open (13 R320). -/
theorem Dev.trugRoom {d : Dev} {c : TrugCmd} (h : (d.instFor c).isSome = true ∨ d.openTrugs (c.bucket % 2) < 4096) :
    ((d.instFor c).isNone && decide (4096 ≤ d.openTrugs (c.bucket % 2))) = false := by
  rcases h with h | h
  · simp [Option.isSome_iff_ne_none.mp h]
  · simp [Nat.not_le.mpr h]

/-- A command that has its input, room, and a source that may be read sends its contributions from its place (13 R314, R322).
The equations name the device on its way: `d` when the command comes, `d2` once the source has met its checkers, `d3` with the command
in its place. -/
theorem exec_trugStart_of_ready {s : State} {t bed i : Nat} {r : TrugRun} {b : Bed} {x : TrugInst} {d d2 d3 : Dev} {c : TrugCmd}
    {sp : Nat × MemSpan} (hlive : s.live .trug) (hd : s.dev.touch t = d) (hc : TrugCmd.ofBytes r.cmd = c)
    (hwait : d.trugWait.find? (fun r => r.bed == bed && ((TrugCmd.ofBytes r.cmd).inQ == 0xFFFF || r.input.isSome)) = some r)
    (hbed : d.bed bed = some b) (hpoison : r.poison = none) (hfresh : ∀ k, r.input = some k → d.takenFresh k = true)
    (hroom : (d.instFor c).isSome = true ∨ d.openTrugs (c.bucket % 2) < 4096)
    (hi : (d.instFor c).getD d.trugs.length = i) (hsp : (d.trugLeave r c).trugSource c = sp)
    (hcause : (d.trugLeave r c).spanCause b.cfg sp.2 false = none)
    (hd2 : (d.trugLeave r c).spanNote (.lodge (c.bucket % 2)) bed sp.2 0 sp.2.n = d2) (hinst : d2.trugs[i]? = some x)
    (hd3 : d2.setTrug i { x with run := some r } = d3) :
    let w := Dev.sendContribs c (d3.members c.grp) (d3.selfOf c.grp) (d3.spanBytes sp.2 0 sp.2.n) sp.1
      (List.range (d3.members c.grp).length) d3 { x with run := some r }
    exec (.trugStart t bed) s = .next ⟨s.pending, (w.1.setTrug i w.2).trugProgress i⟩ := by
  have hself : d3.trugs[i]? = some { x with run := some r } := hd3 ▸ Dev.setTrug_getElem?_self hinst _
  rw [exec_trugStart, execTrugStart, State.run_of_live hlive, hd, hwait, hbed]
  simp only [hc, Dev.trugRoom hroom, hpoison, Dev.trugLeave_eq_ite, hi, hsp, hcause, hd2, Dev.trugLeave_takenFresh,
    Bool.false_eq_true, if_false]
  cases hin : r.input with
  | none => simp only [Bool.false_eq_true, if_false, hinst, hd3, hself]
  | some k => simp only [hfresh k hin, Bool.not_true, Bool.false_eq_true, if_false, hinst, hd3, hself]

/-- Settles O25: TRUG_ISSUE by the code of its first failing check, TRUG_START through `exec_trugStart_of_ready`. -/
theorem trugCommandsStart : Obligations.TrugCommandsStart := by
  unfold Obligations.TrugCommandsStart
  refine ⟨?issue, ?start⟩
  case issue =>
    intro s t bed i hlive d harr code d1
    rw [exec_trugIssue, execTrugIssue, State.run_of_live hlive, harr]
    by_cases hcode : code ≠ 0
    · rw [if_pos hcode]
      exact congrArg _ (congrArg _ (if_pos hcode))
    · rw [if_neg hcode]
      exact congrArg _ (congrArg _ (if_neg hcode))
  case start =>
    intro s t bed r b x hlive d hwait hbed hpoison hfresh c at_ hroom i d1 sp hcause d2 hinst
    exact exec_trugStart_of_ready hlive rfl rfl hwait hbed hpoison hfresh hroom rfl rfl hcause rfl hinst rfl

end Machine
end Sys2Proof
end

section
/-! PROOFS. WRITEs to gates, their answers, and WADVANCE (01 R473; 14 R347 to R349, R351). -/
namespace Sys2Proof
namespace Machine

theorem exec_gateWrite (t p : Nat) (s : State) : exec (.gateWrite t p) s = execGateWrite t p s := rfl
theorem exec_gateWriteAck (t p : Nat) (s : State) : exec (.gateWriteAck t p) s = execGateWriteAck t p s := rfl
theorem exec_gateWriteNack (t p : Nat) (s : State) : exec (.gateWriteNack t p) s = execGateWriteNack t p s := rfl
theorem exec_wadvance (t bed l : Nat) (s : State) : exec (.wadvance t bed l) s = execWadvance t bed l s := rfl

/-- 14 R347, R348: the bytes go to the window of the check, whatever the gate's window is now. -/
theorem Dev.applyGateWrite_of_window {d : Dev} {p loc base : Nat} {m : RxMsg} {a : Mem × Nat}
    (hwin : m.window = some (loc, base)) (ha : locMem loc (base + m.fields.offset) = some a) :
    d.applyGateWrite p m =
      ((d.writeBytes a.1 a.2 (m.body.take m.fields.length)).modPort p (fun x => x.freeMsg m)).answerWrite m.fields 0 := by
  simp only [Dev.applyGateWrite, hwin, Option.bind_some, ha]

/-- With no descriptor still in the trail, an answer meets the one that runs. -/
theorem Dev.onAnswer_of_trail_nil {d : Dev} {die e : Nat} (h : (d.rill die e).trail = []) (tag : Nat) (g : Dev → Dev) :
    d.onAnswer (die, e) tag g = g (d.modRun die e (RillRun.answered tag)) := by
  simp only [Dev.onAnswer, h, List.findIdx?_nil]

theorem Dev.setWepoch_wadvanced (d : Dev) (l bed v : Nat) : (d.setWepoch l bed v).wadvanced = d.wadvanced := by
  unfold Dev.setWepoch
  split <;> rfl

section
variable {s : State} {t p : Nat} {m : RxMsg}

theorem exec_gateWrite_accepted (hlive : s.live (.obotil p)) (hmsg : ((s.dev.touch t).port p).firstMsg 2 = some m)
    (hacc : m.accepted = true) (hwhole : m.whole = true) :
    exec (.gateWrite t p) s = .next ⟨s.pending, (s.dev.touch t).applyGateWrite p m⟩ := by
  rw [exec_gateWrite, execGateWrite, State.run_of_live hlive, hmsg]
  simp only [hacc, hwhole, if_true]

variable {r : Nat × Nat}

theorem exec_gateWriteAck_of_writer (hlive : s.live (.obotil p)) (hmsg : ((s.dev.touch t).port p).firstMsg 0 = some m)
    (htype : m.fields.type = 2) (hwriter : ((s.dev.touch t).modPort p (fun x => x.freeMsg m)).writerOf m.fields.wtag = some r) :
    exec (.gateWriteAck t p) s =
      .next ⟨s.pending, ((s.dev.touch t).modPort p (fun x => x.freeMsg m)).onAnswer r m.fields.wtag id⟩ := by
  rw [exec_gateWriteAck, execGateWriteAck, State.run_of_live hlive, hmsg]
  simp only [htype, Msg.ack, ne_eq, not_true_eq_false, if_false, hwriter]

theorem exec_gateWriteNack_of_writer {d : Dev} (hlive : s.live (.obotil p))
    (hmsg : ((s.dev.touch t).port p).firstMsg 0 = some m) (htype : m.fields.type = 3)
    (hd : ((s.dev.touch t).modPort p (fun x => x.freeMsg m)).gateLast m.fields.reason m.fields.gate m.fields.src = d)
    (hwriter : d.writerOf m.fields.wtag = some r) :
    exec (.gateWriteNack t p) s =
      .next ⟨s.pending, d.onAnswer r m.fields.wtag (fun d => d.rillUnrecov r.1 r.2 0x35)⟩ := by
  rw [exec_gateWriteNack, execGateWriteNack, State.run_of_live hlive, hmsg]
  simp only [htype, Msg.nack, ne_eq, not_true_eq_false, if_false, hd, hwriter, Cause.gateClosed]

end

theorem exec_wadvance_of_arriving {s : State} {t bed l : Nat} {i : Item} {d d1 : Dev} (hlive : s.live (.obotil 0)) (hl : l < 2)
    (hd : s.dev.touch t = d) (harr : d.arriving bed [l] (fun c => c.kind == .obotil && c.op == 4) = some i)
    (hd1 : d.setWepoch l bed ((d.wepoch l bed + 1) % 2 ^ 32) = d1) :
    exec (.wadvance t bed l) s = .next ⟨s.pending,
      if d.wadvanced.contains (i.seq, 1 - l) then
        Dev.retireItem { d1 with wadvanced := d.wadvanced.filter (fun w => w.1 != i.seq) } i.seq
      else { d1 with wadvanced := d.wadvanced ++ [(i.seq, l)] }⟩ := by
  have hkeep : d1.wadvanced = d.wadvanced := hd1 ▸ Dev.setWepoch_wadvanced d l bed _
  rw [exec_wadvance, execWadvance, State.run_of_live hlive, hd, harr]
  simp only [Nat.not_le.mpr hl, if_false, hd1, hkeep]

/-- Settles O32: each clause by the rule of its command. -/
theorem gateWritesComplete : Obligations.GateWritesComplete := by
  unfold Obligations.GateWritesComplete
  refine ⟨?fresh, ?whole, ?answers, ?untrailed, ?wadvance⟩
  case fresh =>
    intro s t p m hlive d hmsg hwin e m' d1
    have hacc : ¬ m.accepted = true := by simp [RxMsg.accepted, hwin]
    rw [exec_gateWrite, execGateWrite, State.run_of_live hlive, hmsg]
    exact congrArg _ (congrArg _ (if_neg hacc))
  case whole =>
    intro s t p loc base m a hlive d0 hmsg hwin hwhole ha d
    have hacc : m.accepted = true := by simp [RxMsg.accepted, hwin]
    rw [exec_gateWrite_accepted hlive hmsg hacc hwhole, Dev.applyGateWrite_of_window hwin ha]
    rfl
  case answers =>
    intro s t p r m hlive d0 hmsg d h
    exact ⟨fun htype hwriter => exec_gateWriteAck_of_writer hlive hmsg htype hwriter,
      fun htype hwriter => exec_gateWriteNack_of_writer hlive hmsg htype rfl hwriter⟩
  case untrailed =>
    intro d die e tag htrail
    exact ⟨Dev.onAnswer_of_trail_nil htrail tag _, Dev.onAnswer_of_trail_nil htrail tag _⟩
  case wadvance =>
    intro s t bed l i hlive hl d harr
    exact exec_wadvance_of_arriving hlive hl rfl harr rfl

end Machine
end Sys2Proof
end

section
/-! SUPPORT. Bits of a word whose lowest bit is set or cleared, and the instant at which an accepted write takes place. -/
namespace Sys2Proof
namespace Machine

/-! ### Bit ranges of a word -/

theorem testBit_toNat_ofNat {n i : Nat} (h : i < 32) : (BitVec.ofNat 32 n).toNat.testBit i = n.testBit i := by
  rw [BitVec.toNat_ofNat, Nat.testBit_mod_two_pow, decide_eq_true h, Bool.true_and]

theorem testBit_bit (b : Bool) : (bit b).testBit 0 = b := by cases b <;> rfl

theorem bitsOf_toNat_ofNat {n hi lo : Nat} (h : hi < 32) : bitsOf (BitVec.ofNat 32 n).toNat hi lo = bitsOf n hi lo := by
  apply Nat.eq_of_testBit_eq
  intro i
  rw [bitsOf_testBit, bitsOf_testBit, BitVec.toNat_ofNat, Nat.testBit_mod_two_pow]
  by_cases hi : i < hi + 1 - lo
  · have h32 : lo + i < 32 := by omega
    simp [h32]
  · simp [hi]

/-- A range of one bit as a truth value. -/
theorem bitsOf_one_bit {n i : Nat} : (bitsOf n i i != 0) = n.testBit i := by
  rw [Nat.testBit, Nat.one_and_eq_mod_two, bitsOf, Nat.add_sub_cancel_left, pow_one]

theorem testBit_or_one {w : Word} {i : Nat} : (w ||| 1#32).toNat.testBit i = (w.toNat.testBit i || decide (i = 0)) := by
  simp only [BitVec.testBit_toNat, BitVec.getLsbD_or, BitVec.getLsbD_one, Nat.zero_lt_succ, decide_true, Bool.true_and]

theorem testBit_and_not_one {w : Word} {i : Nat} :
    (w &&& ~~~1#32).toNat.testBit i = (w.toNat.testBit i && !decide (i = 0)) := by
  simp only [BitVec.testBit_toNat, BitVec.getLsbD_and, BitVec.getLsbD_not, BitVec.getLsbD_one]
  by_cases hi : i < 32
  · by_cases h0 : i = 0 <;> simp [hi, h0]
  · simp [BitVec.getLsbD_of_ge w i (by omega)]

theorem testBit_zero_or_one {w : Word} : (w ||| 1#32).toNat.testBit 0 = true := by
  simp only [testBit_or_one, decide_true, Bool.or_true]

theorem testBit_zero_and_not_one {w : Word} : (w &&& ~~~1#32).toNat.testBit 0 = false := by
  simp only [testBit_and_not_one, decide_true, Bool.not_true, Bool.and_false]

/-- A range above bit 0 does not see what sets or clears bit 0. -/
theorem bitsOf_congr_above_zero {m n hi lo : Nat} (hlo : lo ≠ 0) (h : ∀ i, i ≠ 0 → m.testBit i = n.testBit i) :
    bitsOf m hi lo = bitsOf n hi lo := by
  apply Nat.eq_of_testBit_eq
  intro i
  rw [bitsOf_testBit, bitsOf_testBit, h (lo + i) (by omega)]

theorem bitsOf_or_one {w : Word} {hi lo : Nat} (hlo : lo ≠ 0) : bitsOf (w ||| 1#32).toNat hi lo = bitsOf w.toNat hi lo :=
  bitsOf_congr_above_zero hlo (fun i hi => by rw [testBit_or_one, decide_eq_false hi, Bool.or_false])

theorem bitsOf_and_not_one {w : Word} {hi lo : Nat} (hlo : lo ≠ 0) :
    bitsOf (w &&& ~~~1#32).toNat hi lo = bitsOf w.toNat hi lo :=
  bitsOf_congr_above_zero hlo (fun i hi => by rw [testBit_and_not_one, decide_eq_false hi, Bool.not_false, Bool.and_true])

/-! ### The instant of an accepted write -/

theorem Dev.modWard_now (d : Dev) (l : Nat) (f : WardSt → WardSt) : (d.modWard l f).now = d.now := rfl

theorem Dev.noteFirstWrite_now (d : Dev) (l : Nat) : (d.noteFirstWrite l).now = d.now := by
  unfold Dev.noteFirstWrite
  split
  · rw [Dev.modWard_now, Dev.setFld_now]
  · rfl

theorem Dev.wakeIdle_now (d : Dev) (b : Blk) : (d.wakeIdle b).now = d.now := by
  unfold Dev.wakeIdle
  split
  · exact Dev.setFld_now ..
  · rfl

/-- Acceptance takes place at the instant of the write. -/
theorem State.written_now (s : State) (t : Nat) (src : Source) (b : Blk) : (s.written t src b).now = max s.dev.now t := by
  unfold State.written
  dsimp only
  split
  · rw [Dev.noteFirstWrite_now, Dev.emit_now, Dev.wakeIdle_now, Dev.touch_now]
  · rw [Dev.emit_now, Dev.wakeIdle_now, Dev.touch_now]

end Machine
end Sys2Proof
end

section
/-! PROOFS. Writes of ENABLE, SRC and PERIOD_NS (02 R29, R30, R40, R474). -/
namespace Sys2Proof
namespace Machine

theorem exec_chimeEnableSet (t : Nat) (src : Source) (s : State) :
    exec (.chimeEnableSet t src) s = execChimeEnableSet t src s := rfl
theorem exec_chimeEnableClear (t : Nat) (src : Source) (s : State) :
    exec (.chimeEnableClear t src) s = execChimeEnableClear t src s := rfl
theorem exec_chimeSourceChange (t : Nat) (src : Source) (sel : BitVec 2) (s : State) :
    exec (.chimeSourceChange t src sel) s = execChimeSourceChange t src sel s := rfl
theorem exec_chimePeriodWrite (t : Nat) (src : Source) (p : BitVec 24) (s : State) :
    exec (.chimePeriodWrite t src p) s = execChimePeriodWrite t src p s := rfl

/-! ### CHIME_CTL and CHIME_PERIOD -/

/-- CHIME lies on no die and IDLE leaves its clock running: an accepted write there is answered, and nothing else comes before
its effect. -/
theorem State.written_chime (s : State) (t : Nat) (src : Source) :
    s.written t src .chime = (s.dev.touch t).emit [.answer src .done] := by
  simp [State.written, Dev.wakeIdle, Blk.idleStops, Blk.dieOf]

section
variable (s : State) (t : Nat) (src : Source)
@[simp] theorem State.written_chime_word (b : Blk) (o : Nat) : (s.written t src .chime).word b o = s.dev.word b o := by
  rw [State.written_chime]; rfl
@[simp] theorem State.written_chime_fld (b : Blk) (f : Fld) : (s.written t src .chime).fld b f = s.dev.fld b f := by
  rw [State.written_chime]; rfl
@[simp] theorem State.written_chime_enabled : (s.written t src .chime).chimeEnabled = s.dev.chimeEnabled := by
  rw [State.written_chime]; rfl
@[simp] theorem State.written_chime_chime : (s.written t src .chime).chime = s.dev.chime := by
  rw [State.written_chime]; rfl
@[simp] theorem State.written_chime_period : (s.written t src .chime).period = s.dev.period := by
  rw [State.written_chime]; rfl
end

theorem Dev.chimeEnabled_eq_testBit (d : Dev) : d.chimeEnabled = (d.word .chime 0x0).toNat.testBit 0 := bitsOf_one_bit

@[simp] theorem Dev.period_setWord_ctl (d : Dev) (w : Word) : (d.setWord .chime 0x0 w).period = d.period := by
  simp only [Dev.period, Dev.fld, Dev.fldI]
  rw [Dev.word_setWord_ne (by decide)]

/-- R30: SRC = 3 rejects the write whole. -/
theorem Dev.chimeCtlWritten_of_bad_src {d : Dev} {new : Word} (h : bitsOf new.toNat 2 1 = 3) :
    d.chimeCtlWritten new = d.setFld .chime Reg.CHIME_STS.PREJ 1 := by
  simp only [Dev.chimeCtlWritten, h, if_true]

/-- R474: a write that leaves SRC as it is and sets ENABLE. -/
theorem Dev.chimeCtlWritten_of_on {d : Dev} {new : Word} (h3 : bitsOf new.toNat 2 1 ≠ 3)
    (hsrc : bitsOf new.toNat 2 1 = d.fld .chime Reg.CHIME_CTL.SRC) (hon : new.toNat.testBit 0 = true) :
    d.chimeCtlWritten new =
      if d.chimeEnabled then d.setWord .chime 0x0 new
      else { d.setWord .chime 0x0 new with
        chime := { d.chime with prev := d.now, fromEnable := true, openPeriod := d.period, due := [], emitted := 0,
                                srcFrom := d.now, emitFrom := d.now } } := by
  rw [Dev.chimeCtlWritten, if_neg h3]
  cases hen : d.chimeEnabled <;> simp [hsrc, hon]

/-- R474: a write that leaves SRC as it is and clears ENABLE. -/
theorem Dev.chimeCtlWritten_of_off {d : Dev} {new : Word} (h3 : bitsOf new.toNat 2 1 ≠ 3)
    (hsrc : bitsOf new.toNat 2 1 = d.fld .chime Reg.CHIME_CTL.SRC) (hoff : new.toNat.testBit 0 = false) :
    d.chimeCtlWritten new =
      if d.chimeEnabled then
        { (d.setWord .chime 0x0 new).setFld .chime Reg.CHIME_STS.FREERUN 0 with
          chime := { d.chime with due := [] }, chimeOut := false }
      else d.setWord .chime 0x0 new := by
  rw [Dev.chimeCtlWritten, if_neg h3]
  cases hen : d.chimeEnabled <;> simp [hsrc, hoff]

/-- R40: a write that leaves ENABLE as it is, and may change SRC. -/
theorem Dev.chimeCtlWritten_of_enable_kept {d : Dev} {new : Word} (h3 : bitsOf new.toNat 2 1 ≠ 3)
    (hen : new.toNat.testBit 0 = d.chimeEnabled) :
    d.chimeCtlWritten new =
      if bitsOf new.toNat 2 1 = d.fld .chime Reg.CHIME_CTL.SRC then d.setWord .chime 0x0 new
      else { ((d.setWord .chime 0x0 new).setFld .chime Reg.CHIME_STS.FREERUN 0).setFld .chime Reg.CHIME_STS.SRC_ACT
               (bitsOf new.toNat 2 1) with
             chime := { d.chime with due := [], emitted := 0, srcFrom := d.now, emitFrom := d.now } } := by
  rw [Dev.chimeCtlWritten, if_neg h3]
  cases hb : d.chimeEnabled <;> simp [hen, hb]

theorem Dev.chimePeriodWritten_eq (d : Dev) (new : Word) :
    d.chimePeriodWritten new =
      if 1000 ≤ bitsOf new.toNat 23 0 ∧ bitsOf new.toNat 23 0 ≤ 10000000 then d.setWord .chime 0x4 new
      else d.setFld .chime Reg.CHIME_STS.PREJ 1 := by
  by_cases h : bitsOf new.toNat 23 0 < 1000 ∨ 10000000 < bitsOf new.toNat 23 0
  · rw [Dev.chimePeriodWritten, if_pos h, if_neg (by omega)]
  · rw [Dev.chimePeriodWritten, if_neg h, if_pos (by omega)]

/-- The word of CHIME_CTL with SRC replaced: SRC as given and ENABLE as it was. -/
theorem bitsOf_src_put (w : Word) (sel : BitVec 2) :
    bitsOf (BitVec.ofNat 32 (putBits w.toNat 2 1 sel.toNat)).toNat 2 1 = sel.toNat := by
  rw [bitsOf_toNat_ofNat (by omega), bitsOf_putBits (by omega)]
  exact Nat.mod_eq_of_lt sel.isLt

theorem testBit_enable_put (w : Word) (sel : BitVec 2) :
    (BitVec.ofNat 32 (putBits w.toNat 2 1 sel.toNat)).toNat.testBit 0 = w.toNat.testBit 0 := by
  rw [BitVec.toNat_ofNat, Nat.testBit_mod_two_pow, putBits_testBit (by omega)]
  simp

/-- Settles O4: each write by what its merged word does to SRC and ENABLE. -/
theorem chimeRegisterWritesComplete : Obligations.ChimeRegisterWritesComplete := by
  unfold Obligations.ChimeRegisterWritesComplete
  refine ⟨?set, ?clear, ?change, ?reject, ?period⟩
  case set =>
    intro s t src hacc hsrc d
    have hbits : bitsOf (s.dev.word .chime 0x0 ||| 1#32).toNat 2 1 = s.dev.fld .chime Reg.CHIME_CTL.SRC :=
      bitsOf_or_one (by omega)
    rw [exec_chimeEnableSet, execChimeEnableSet, State.access_accepted hacc, State.written_chime_word,
      Dev.chimeCtlWritten_of_on (hbits ▸ hsrc) (by simpa only [State.written_chime_fld] using hbits)
        testBit_zero_or_one]
    simp only [State.written_chime_enabled, State.written_chime_chime, State.written_now, State.written_chime_period, d]
  case clear =>
    intro s t src hacc hsrc d
    have hbits : bitsOf (s.dev.word .chime 0x0 &&& ~~~1#32).toNat 2 1 = s.dev.fld .chime Reg.CHIME_CTL.SRC :=
      bitsOf_and_not_one (by omega)
    rw [exec_chimeEnableClear, execChimeEnableClear, State.access_accepted hacc, State.written_chime_word,
      Dev.chimeCtlWritten_of_off (hbits ▸ hsrc) (by simpa only [State.written_chime_fld] using hbits)
        testBit_zero_and_not_one]
    simp only [State.written_chime_enabled, State.written_chime_chime, d]
  case change =>
    intro s t src sel hacc hsel d
    have h3 : sel.toNat ≠ 3 := fun h => hsel (BitVec.eq_of_toNat_eq h)
    rw [exec_chimeSourceChange, execChimeSourceChange, State.access_accepted hacc, State.written_chime_word,
      Dev.chimeCtlWritten_of_enable_kept (by rwa [bitsOf_src_put])
        (by rw [testBit_enable_put, State.written_chime_enabled, Dev.chimeEnabled_eq_testBit])]
    simp only [bitsOf_src_put, State.written_chime_fld, State.written_chime_chime, State.written_now, d]
  case reject =>
    intro s t src hacc
    rw [exec_chimeSourceChange, execChimeSourceChange, State.access_accepted hacc,
      Dev.chimeCtlWritten_of_bad_src (bitsOf_src_put _ 3#2)]
  case period =>
    intro s t src p hacc
    have hp : bitsOf (BitVec.ofNat 32 (putBits (s.dev.word .chime 0x4).toNat 23 0 p.toNat)).toNat 23 0 = p.toNat := by
      rw [bitsOf_toNat_ofNat (by omega), bitsOf_putBits (by omega)]
      exact Nat.mod_eq_of_lt p.isLt
    rw [exec_chimePeriodWrite, execChimePeriodWrite, State.access_accepted hacc, Dev.chimePeriodWritten_eq,
      State.written_chime_word, hp]

end Machine
end Sys2Proof
end

section
/-! PROOFS. RUN of a bed, and the items that are held (02 R45, R57, R58). -/
namespace Sys2Proof
namespace Machine

theorem exec_bedRunSet (t : Nat) (src : Source) (die slot : Nat) (s : State) :
    exec (.bedRunSet t src die slot) s = execBedRunSet t src die slot s := rfl
theorem exec_bedRunClear (t : Nat) (src : Source) (die slot : Nat) (s : State) :
    exec (.bedRunClear t src die slot) s = execBedRunClear t src die slot s := rfl
theorem exec_heldItemIssue (t die : Nat) (kind : Kind) (unit : Nat) (s : State) :
    exec (.heldItemIssue t die kind unit) s = execHeldItemIssue t die kind unit s := rfl

/-! ### Bits of BED_CTL as it reads (Table 2.10) -/

section
variable (x : Bed) (b : Nat) (w : Word)

theorem Bed.ctlWord_policy : (x.ctlWord b w).toNat.testBit 8 = x.policyStop := by
  rw [Bed.ctlWord, testBit_toNat_ofNat (by omega), putBits_testBit (by omega), if_neg (by omega), putBits_testBit (by omega),
    if_pos (by omega)]
  exact testBit_bit _

theorem Bed.ctlWord_slipLimit (h : x.slipLimit < 16) : bitsOf (x.ctlWord b w).toNat 15 12 = x.slipLimit := by
  rw [Bed.ctlWord, bitsOf_toNat_ofNat (by omega), bitsOf_putBits_ne (by omega) (by omega),
    bitsOf_putBits_ne (by omega) (by omega), bitsOf_putBits (by omega)]
  exact Nat.mod_eq_of_lt h

end

section
variable {d : Dev} {die slot b : Nat} {x : Bed}

/-- The bed of a slot as the shed sequencer's registers look it up. -/
theorem Dev.slotBed_eq (hslot : d.bedAtSlot die slot = some b) (hbed : d.bed b = some x) :
    (d.bedAtSlot die slot).bind (fun b => (d.bed b).map (fun x => (b, x))) = some (b, x) := by
  rw [hslot, Option.bind_some, hbed, Option.map_some]

theorem Dev.bedCtl_of_bed (hslot : d.bedAtSlot die slot = some b) (hbed : d.bed b = some x) :
    d.bedCtl die slot = x.ctlWord b (d.word (.shed die) (slotOff slot)) := by
  rw [Dev.bedCtl, Dev.slotBed_eq hslot hbed]

/-- A write of BED_CTL that leaves POLICY and SLIP_LIMIT as they read (R57, R58): RUN is taken at the lowest die, and elsewhere
refused where it would change. -/
theorem Dev.bedCtlWritten_of_run {new : Word} (hslot : d.bedAtSlot die slot = some b) (hbed : d.bed b = some x)
    (hpol : new.toNat.testBit 8 = x.policyStop) (hlim : bitsOf new.toNat 15 12 = x.slipLimit) :
    d.bedCtlWritten die slot new =
      if die = x.lowDie then (d.setWord (.shed die) (slotOff slot) new).setBed b (some { x with
        run := new.toNat.testBit 0, runAt := if new.toNat.testBit 0 && !x.run then d.now else x.runAt })
      else if new.toNat.testBit 0 = x.run then d.setWord (.shed die) (slotOff slot) new
      else (d.setWord (.shed die) (slotOff slot) new).setFld (.shed die) Reg.SHED_STS.MIRROR_WR 1 := by
  rw [Dev.bedCtlWritten, Dev.slotBed_eq hslot hbed]
  dsimp only
  by_cases hdie : die = x.lowDie
  · rw [if_pos hdie, if_pos hdie, hpol, hlim]
  · rw [if_neg hdie, if_neg hdie]
    by_cases hrun : new.toNat.testBit 0 = x.run
    · rw [if_pos hrun, if_pos ⟨hrun, hpol, hlim⟩]
    · rw [if_neg hrun, if_neg (fun h => hrun h.1)]

/-- BED_CTL with RUN set or cleared keeps POLICY and SLIP_LIMIT. -/
theorem Dev.bedCtl_run_keeps {new : Word} (hslot : d.bedAtSlot die slot = some b) (hbed : d.bed b = some x)
    (hsl : x.slipLimit < 16) (hnew : ∀ i, i ≠ 0 → new.toNat.testBit i = (d.bedCtl die slot).toNat.testBit i) :
    new.toNat.testBit 8 = x.policyStop ∧ bitsOf new.toNat 15 12 = x.slipLimit := by
  rw [Dev.bedCtl_of_bed hslot hbed] at hnew
  exact ⟨(hnew 8 (by omega)).trans (x.ctlWord_policy b _),
    (bitsOf_congr_above_zero (by omega) hnew).trans (x.ctlWord_slipLimit b _ hsl)⟩

end

/-- Settles O7: RUN through `bedCtlWritten_of_run`, a held item by the engine's limit. -/
theorem shedCommandsComplete : Obligations.ShedCommandsComplete := by
  unfold Obligations.ShedCommandsComplete
  refine ⟨?set, ?clear, ?held⟩
  case set =>
    intro s t src die slot b x hacc d hslot hbed hsl w
    obtain ⟨hpol, hlim⟩ := Dev.bedCtl_run_keeps (new := d.bedCtl die slot ||| 1#32) hslot hbed hsl
      (fun i hi => by rw [testBit_or_one, decide_eq_false hi, Bool.or_false])
    rw [exec_bedRunSet, execBedRunSet, State.access_accepted hacc, Dev.bedCtlWritten_of_run hslot hbed hpol hlim,
      testBit_zero_or_one, State.written_now]
    cases hrun : x.run <;> simp [d, w]
  case clear =>
    intro s t src die slot b x hacc d hslot hbed hsl w
    obtain ⟨hpol, hlim⟩ := Dev.bedCtl_run_keeps (new := d.bedCtl die slot &&& ~~~1#32) hslot hbed hsl
      (fun i hi => by rw [testBit_and_not_one, decide_eq_false hi, Bool.not_false, Bool.and_true])
    rw [exec_bedRunClear, execBedRunClear, State.access_accepted hacc, Dev.bedCtlWritten_of_run hslot hbed hpol hlim,
      testBit_zero_and_not_one]
    cases hrun : x.run <;> simp [d, w]
  case held =>
    intro s t die unit kind i hlive d hheld hlimit
    rw [exec_heldItemIssue, execHeldItemIssue, State.run_of_live hlive, hheld]
    exact congrArg _ (congrArg _ (if_neg (by rw [hlimit]; exact Bool.false_ne_true)))

end Machine
end Sys2Proof
end

section
/-! SUPPORT. What the chime generator keeps, and that nothing a chime makes the units and the beds do changes it: `f_timing` says
that `f` leaves it as it was (02 R33 to R40, R50, R53). -/
namespace Sys2Proof
namespace Machine

/-- What the generator keeps, less the note of the blocks that have logged since the chime (18 R424): cancels change that. -/
def ChimeSt.timing (c : ChimeSt) : ChimeSt := { c with ceLogged := [] }
def Dev.timing (d : Dev) : ChimeSt := d.chime.timing

/-- What every step of a fold keeps, the fold keeps. -/
theorem foldl_keeps {α β : Type} (g : Dev → β) {f : Dev → α → Dev} (h : ∀ d a, g (f d a) = g d) (l : List α) (d : Dev) :
    g (l.foldl f d) = g d := by
  induction l generalizing d with
  | nil => rfl
  | cons a l ih => exact (ih _).trans (h d a)

theorem foldl_timing {α : Type} {f : Dev → α → Dev} (h : ∀ d a, (f d a).timing = d.timing) (l : List α) (d : Dev) :
    (l.foldl f d).timing = d.timing := foldl_keeps Dev.timing h l d

/-! ### The smallest updates -/

theorem Dev.timing_of_chime {d d' : Dev} (h : d'.chime = d.chime) : d'.timing = d.timing := congrArg ChimeSt.timing h

/-- A device given field by field keeps what its generator, the field `chime`, keeps. -/
@[simp] theorem Dev.timing_mk
    {x0} {x1} {x2} {x3} {x4} {x5} {x6} {x7} {x8} {x9} {x10} {x11} {x12} {x13} {x14} {x15} {x16} {x17} {x18} {x19} {x20} {x21}
    {x22} {x23} {x24} {x25} {x26} {x27} {x28} {x29} {x30} {x31} {x32} {x33} {x34} {x35} {x36} {x37} {x38} {x39} {x40} {x41}
    {x42} {x43} {x44} {x45} {x46} {x47} {x48} {x49} {x50} {x51} {x52} {x53} {x54} {x55} {x56} {x57} {x58} {x59} {x60} {x61} :
    (Dev.mk
      x0 x1 x2 x3 x4 x5 x6 x7 x8 x9 x10 x11 x12 x13 x14 x15 x16 x17 x18 x19 x20 x21 x22 x23 x24 x25 x26 x27 x28 x29 x30 x31 x32
      x33 x34 x35 x36 x37 x38 x39 x40 x41 x42 x43 x44 x45 x46 x47 x48 x49 x50 x51 x52 x53 x54 x55 x56 x57 x58 x59 x60 x61
    ).timing = x18.timing := id rfl
@[simp] theorem Dev.timing_eta (d : Dev) : d.chime.timing = d.timing := id rfl

section
variable (d : Dev) (b : Blk) (f : Fld) (v : Nat)
@[simp] theorem Dev.emit_timing (os : List Out) : (d.emit os).timing = d.timing := Dev.timing_of_chime rfl
@[simp] theorem Dev.setFldI_timing (i : Nat) : (d.setFldI b f i v).timing = d.timing := Dev.timing_of_chime rfl
@[simp] theorem Dev.setFld_timing : (d.setFld b f v).timing = d.timing := Dev.timing_of_chime rfl
@[simp] theorem Dev.countSat_timing (n : Nat) : (d.countSat b f n).timing = d.timing := Dev.timing_of_chime rfl
@[simp] theorem Dev.setWord_timing (o : Nat) (w : Word) : (d.setWord b o w).timing = d.timing := Dev.timing_of_chime rfl
@[simp] theorem Dev.setSynd_timing (k : Nat) (s : BitVec 8) : (d.setSynd k s).timing = d.timing := Dev.timing_of_chime rfl
@[simp] theorem Dev.setQfld_timing (q : Nat) (f : CtxFld) : (d.setQfld q f v).timing = d.timing := Dev.timing_of_chime rfl
@[simp] theorem Dev.setRill_timing (die e : Nat) (x : RillSt) : (d.setRill die e x).timing = d.timing :=
  Dev.timing_of_chime rfl
@[simp] theorem Dev.setSieve_timing (die i : Nat) (x : SieveSt) : (d.setSieve die i x).timing = d.timing :=
  Dev.timing_of_chime rfl
@[simp] theorem Dev.setMower_timing (die : Nat) (x : MowerSt) : (d.setMower die x).timing = d.timing :=
  Dev.timing_of_chime rfl
@[simp] theorem Dev.setBed_timing (b : Nat) (x : Option Bed) : (d.setBed b x).timing = d.timing := Dev.timing_of_chime rfl
@[simp] theorem Dev.modWard_timing (l : Nat) (f : WardSt → WardSt) : (d.modWard l f).timing = d.timing :=
  Dev.timing_of_chime rfl
@[simp] theorem Dev.modLodge_timing (l : Nat) (f : LodgeSt → LodgeSt) : (d.modLodge l f).timing = d.timing :=
  Dev.timing_of_chime rfl
@[simp] theorem Dev.issueDue_timing : d.issueDue.timing = d.timing := Dev.timing_of_chime rfl
@[simp] theorem Dev.takeFree_timing : d.takeFree.2.timing = d.timing := Dev.timing_of_chime rfl
end

/-! ### Interrupts and the log -/

@[simp] theorem Dev.raiseVector_timing (d : Dev) (f v : Nat) : (d.raiseVector f v).timing = d.timing := by
  unfold Dev.raiseVector
  split_ifs <;> rfl

@[simp] theorem Dev.raiseBed_timing (d : Dev) (b : Nat) : (d.raiseBed b).timing = d.timing := by
  unfold Dev.raiseBed
  split <;> simp

@[simp] theorem Dev.logIrq_timing (d : Dev) : d.logIrq.timing = d.timing := by simp [Dev.logIrq, Dev.raiseBoth]

@[simp] theorem Dev.logPush_timing (d : Dev) (e : LogEntry) : (d.logPush e).timing = d.timing := by
  unfold Dev.logPush
  split
  · simp
  · dsimp only
    split_ifs <;> simp

/-! ### Memories -/

@[simp] theorem Dev.countCorrected_timing (d : Dev) (k : Nat) : (d.countCorrected k).timing = d.timing := by
  unfold Dev.countCorrected
  split <;> simp

@[simp] theorem Dev.countBad_timing (d : Dev) (k : Nat) : (d.countBad k).timing = d.timing := by
  unfold Dev.countBad
  split <;> simp

@[simp] theorem Dev.logCorrected_timing (d : Dev) (b : Blk) (bed addr : Nat) (s : BitVec 8) :
    (d.logCorrected b bed addr s).timing = d.timing := by
  unfold Dev.logCorrected
  split
  · simp only [Dev.timing_mk]
    rfl
  · rfl

@[simp] theorem Dev.noteWord_timing (d : Dev) (bed k : Nat) : (d.noteWord bed k).timing = d.timing := by
  unfold Dev.noteWord Dev.noteWordAs
  dsimp only
  split <;> simp

@[simp] theorem Dev.setCells_timing (d : Dev) (m : Mem) (c : List Host.Cell) : (d.setCells m c).timing = d.timing := by
  cases m <;> rfl

@[simp] theorem Dev.correctWord_timing (d : Dev) (m : Mem) (a b : Nat) : (d.correctWord m a b).timing = d.timing := by
  unfold Dev.correctWord
  split <;> simp

@[simp] theorem Dev.mergeWord_timing (d : Dev) (m : Mem) (a lo hi : Nat) (s : BitVec 8) :
    (d.mergeWord m a lo hi s).timing = d.timing := by
  unfold Dev.mergeWord
  split
  · simp
  · split <;> simp

@[simp] theorem Dev.mergeWords_timing (d : Dev) (m : Mem) (a n : Nat) (s : BitVec 8) (k : Nat) :
    (d.mergeWords m a n s k).timing = d.timing := by
  induction k with
  | zero => rfl
  | succ k ih => exact (Dev.mergeWord_timing ..).trans ih

@[simp] theorem Dev.writeBytes_timing (d : Dev) (m : Mem) (a : Nat) (bs : List Byte) :
    (d.writeBytes m a bs).timing = d.timing := by
  unfold Dev.writeBytes Dev.writeWith
  split <;> simp [Dev.putBytes]

/-! ### A rill that is cancelled -/

theorem Dev.bumpGens_timing (q : Nat) (n : Nat) : ∀ (d : Dev) (k : Nat), (d.bumpGens q k n).timing = d.timing := by
  induction n with
  | zero => exact fun _ _ => rfl
  | succ n ih => exact fun _ _ => (ih _ _).trans (Dev.writeBytes_timing ..)

@[simp] theorem Dev.recycleQueue_timing (d : Dev) (q : Nat) : (d.recycleQueue q).timing = d.timing := by
  simp [Dev.recycleQueue, Dev.bumpGens_timing]

@[simp] theorem Dev.releaseSlot_timing (d : Dev) (k : TakenBarrow) : (d.releaseSlot k).1.timing = d.timing := by
  unfold Dev.releaseSlot
  dsimp only
  split <;> rfl

@[simp] theorem Dev.releaseAll_timing (d : Dev) (a : Agent) : (d.releaseAll a).timing = d.timing :=
  foldl_timing Dev.releaseSlot_timing _ d

@[simp] theorem Dev.settle_timing (d : Dev) (die p : Nat) : (d.settle die p).timing = d.timing := by
  simp [Dev.settle, Dev.setPlot]

@[simp] theorem Dev.dropRequestsOf_timing (d : Dev) (p : Agent → Bool) : (d.dropRequestsOf p).timing = d.timing := by
  simp [Dev.dropRequestsOf, Dev.settleAll, foldl_timing]

@[simp] theorem Dev.cancelRill_timing (d : Dev) (die e : Nat) : (d.cancelRill die e).timing = d.timing := by
  have hcause (d : Dev) (c : Bool) :
      (if c then d else d.setFld (.rill die e) Reg.RILL_STS.CAUSE Cause.cancelled).timing = d.timing := by
    cases c <;> simp
  simp only [Dev.cancelRill, Dev.setFld_timing, Dev.setRill_timing, Dev.timing_mk, Dev.timing_eta, Dev.dropRequests,
    Dev.dropRequestsOf_timing, Dev.releaseAll_timing, foldl_timing Dev.recycleQueue_timing, hcause]

@[simp] theorem Dev.cancelRills_timing (d : Dev) (c : BedCfg) : (d.cancelRills c).timing = d.timing := by
  refine foldl_timing (fun d i => ?_) _ d
  split <;> simp

/-! ### The halt of a bed -/

@[simp] theorem Dev.idleSieves_timing (gone : List Nat) (d : Dev) : (d.idleSieves gone).timing = d.timing := by
  refine foldl_timing (fun d e => ?_) _ d
  split
  · split <;> simp
  · rfl

@[simp] theorem Dev.idleMowers_timing (gone : List Nat) (d : Dev) : (d.idleMowers gone).timing = d.timing := by
  refine foldl_timing (fun d e => ?_) _ d
  split
  · split <;> simp
  · rfl

@[simp] theorem Dev.endTrugs_timing (b : Nat) (d : Dev) : (d.endTrugs b).timing = d.timing := rfl

@[simp] theorem Dev.dropUnbegun_timing (d : Dev) (b : Nat) : (d.dropUnbegun b).timing = d.timing := by
  simp [Dev.dropUnbegun]

@[simp] theorem Dev.reportHalt_timing (d : Dev) (b cause : Nat) : (d.reportHalt b cause).timing = d.timing := by
  simp [Dev.reportHalt]

@[simp] theorem Dev.haltBed_timing (d : Dev) (b cause : Nat) : (d.haltBed b cause).timing = d.timing := by
  unfold Dev.haltBed
  split
  · rfl
  · dsimp only
    split_ifs <;> simp

/-! ### The units and the beds at a chime -/

@[simp] theorem Dev.takeMirrors_timing (d : Dev) : d.takeMirrors.timing = d.timing :=
  foldl_timing (fun _ _ => (foldl_timing (fun _ _ => Dev.setWord_timing ..) _ _).trans (Dev.setMower_timing ..)) _ d

@[simp] theorem Dev.formDigests_timing (d : Dev) : d.formDigests.timing = d.timing := by
  refine (foldl_timing (fun d l => ?_) _ _).trans ((Dev.takeFree_timing _).trans (Dev.takeFree_timing d))
  split <;> simp

@[simp] theorem Dev.noteCoast_timing (d : Dev) : d.noteCoast.timing = d.timing := by
  unfold Dev.noteCoast
  split
  · rfl
  · refine foldl_timing (fun d k => ?_) _ d
    split <;> simp

@[simp] theorem Dev.unitsAtChime_timing (d : Dev) : d.unitsAtChime.timing = d.timing := by
  unfold Dev.unitsAtChime
  dsimp only
  split <;> simp [Dev.chimeWaits]

@[simp] theorem Dev.noteHeld_timing (d : Dev) (held : Bool) : (d.noteHeld held).timing = d.timing := by cases held <;> rfl

@[simp] theorem Dev.bedChime_timing (d : Dev) (held : Bool) (b T : Nat) :
    (d.bedChime held b T).1.timing = d.timing := by
  unfold Dev.bedChime
  split
  · rfl
  · dsimp only
    split
    · simp
    · split_ifs <;> simp

theorem Dev.bedsChime_timing (held : Bool) (T : Nat) (bs : List Nat) :
    ∀ d : Dev, (d.bedsChime held T bs).1.timing = d.timing := by
  induction bs with
  | nil => exact fun _ => rfl
  | cons b bs ih => exact fun d => (ih _).trans (Dev.bedChime_timing ..)

@[simp] theorem Dev.issueOn_timing (d : Dev) (T die b : Nat) : (d.issueOn T die b).timing = d.timing := by
  unfold Dev.issueOn
  split
  · rfl
  · split <;> rfl

@[simp] theorem Dev.issueAll_timing (d : Dev) (T : Nat) (bs : List Nat) : (d.issueAll T bs).timing = d.timing := by
  refine foldl_timing (fun d die => foldl_timing (fun d s => ?_) _ d) _ d
  split
  · split <;> simp
  · rfl

@[simp] theorem Dev.noteReplantIssue_timing (d : Dev) (T : Nat) (bs : List Nat) :
    (d.noteReplantIssue T bs).timing = d.timing := by
  unfold Dev.noteReplantIssue
  split
  · split <;> rfl
  · rfl

@[simp] theorem Dev.endStep_timing (d : Dev) (l n next : Nat) : (d.endStep l n next).timing = d.timing := by
  unfold Dev.endStep
  dsimp only
  split <;> simp

/-- What the generator keeps once a chime has fired: its number, its instant, and the fire times that have
not come (R33, R39, R40). -/
def ChimeSt.fired (c : ChimeSt) (T : Nat) (num : Option DWord) (period : Nat) : ChimeSt :=
  { c with
    count := num.getD c.nextNumber, started := true, prev := T, fromEnable := false, openPeriod := period,
    due := c.due.filter (fun f => decide (T < f.1)), emitted := c.emitted - 1, ceLogged := [] }

/-- What a chime does to the generator; the beds and the units change none of it. -/
theorem Dev.fireChime_timing (d : Dev) (T : Nat) (num : Option DWord) (own : Bool) :
    ∃ period, (d.fireChime T num own).timing = (d.chime.fired T num period).timing := by
  simp only [Dev.fireChime, Dev.issueDue_timing, Dev.endStep_timing, Dev.noteReplantIssue_timing, Dev.issueAll_timing,
    Dev.bedsChime_timing, Dev.noteHeld_timing, Dev.unitsAtChime_timing]
  exact ⟨_, rfl⟩

end Machine
end Sys2Proof
end

section
/-! PROOFS. Chimes fire at their instant with their number (02 R33, R37, R39, R40, R469). -/
namespace Sys2Proof
namespace Machine

theorem exec_chime (t : Nat) (s : State) : exec (.chime t) s = execChime t s := rfl
theorem exec_markerMiss (t : Nat) (s : State) : exec (.markerMiss t) s = execMarkerMiss t s := rfl
theorem exec_chimeInMiss (t : Nat) (s : State) : exec (.chimeInMiss t) s = execChimeInMiss t s := rfl

/-! ### When a chime is due lies in the registers and the generator alone, so the passing of time does not change it -/

section
variable (d : Dev) (t t' : Nat)
theorem Dev.touch_fld (b : Blk) (f : Fld) : (d.touch t).fld b f = d.fld b f := rfl
theorem Dev.touch_isSet (b : Blk) (f : Fld) : (d.touch t).isSet b f = d.isSet b f := rfl
theorem Dev.touch_chimeOn : (d.touch t).chimeOn = d.chimeOn := rfl
theorem Dev.touch_missAt : (d.touch t).missAt t' = d.missAt t' := rfl
theorem Dev.touch_markedDue : (d.touch t).markedDue t' = d.markedDue t' := rfl
theorem Dev.touch_nextDue : (d.touch t).nextDue t' = d.nextDue t' := rfl
end

/-! ### A chime that fires -/

/-- The chime that is due fires with the number of its marker, or one more than the last (R33, R39). -/
theorem Dev.fireDue_eq_fireChime (d : Dev) (t T : Nat) :
    ∃ own, d.fireDue t T = d.fireChime T ((d.markedDue t).bind (fun f => f.2)) own := by
  unfold Dev.fireDue
  cases d.markedDue t with
  | none => exact ⟨true, rfl⟩
  | some f => exact ⟨false, rfl⟩

/-- What two generators that keep the same have in common. -/
theorem ChimeSt.fields_of_timing {c c' : ChimeSt} (h : c.timing = c'.timing) :
    c.count = c'.count ∧ c.started = c'.started ∧ c.prev = c'.prev ∧ c.fromEnable = c'.fromEnable ∧ c.due = c'.due := by
  obtain ⟨hcount, hstarted, hprev, hfrom, -, hdue, -⟩ := ChimeSt.mk.inj h
  exact ⟨hcount, hstarted, hprev, hfrom, hdue⟩

/-- The fields of the generator that a chime at `T` sets (R33, R37, R39). -/
theorem Dev.fireChime_chime (d : Dev) (T : Nat) (num : Option DWord) (own : Bool) :
    (d.fireChime T num own).chime.count = num.getD d.chime.nextNumber ∧ (d.fireChime T num own).chime.started = true ∧
      (d.fireChime T num own).chime.prev = T ∧ (d.fireChime T num own).chime.fromEnable = false ∧
      (d.fireChime T num own).chime.due = d.chime.due.filter (fun f => decide (T < f.1)) := by
  obtain ⟨period, h⟩ := d.fireChime_timing T num own
  exact ChimeSt.fields_of_timing h

/-- A miss that is decided fires the chime from the own count (R40, R469). -/
theorem Dev.missChime_of_missed {d : Dev} {t mode : Nat} (hon : d.chimeOn = true)
    (hsrc : d.fld .chime Reg.CHIME_CTL.SRC = mode) (hfree : d.isSet .chime Reg.CHIME_STS.FREERUN = false)
    (hdue : d.markedDue t = none) (ht : d.missAt t ≤ t) :
    d.missChime t mode =
      ((d.setFld .chime Reg.CHIME_STS.MMISS 1).setFld .chime Reg.CHIME_STS.FREERUN 1).fireChime (d.missAt t) none true := by
  simp [Dev.missChime, hon, hsrc, hfree, hdue, ht]

/-- What a miss leaves in the generator: the chime has fired at the end of its interval, with the own number. -/
theorem Dev.missChime_chime {d : Dev} {t mode : Nat} (hon : d.chimeOn = true)
    (hsrc : d.fld .chime Reg.CHIME_CTL.SRC = mode) (hfree : d.isSet .chime Reg.CHIME_STS.FREERUN = false)
    (hdue : d.markedDue t = none) (ht : d.missAt t ≤ t) :
    (d.missChime t mode).chime.count = d.chime.nextNumber ∧ (d.missChime t mode).chime.started = true ∧
      (d.missChime t mode).chime.prev = d.missAt t ∧
      (d.missChime t mode).chime.due = d.chime.due.filter (fun f => decide (d.missAt t < f.1)) := by
  have hchime : ((d.setFld .chime Reg.CHIME_STS.MMISS 1).setFld .chime Reg.CHIME_STS.FREERUN 1).chime = d.chime :=
    (Dev.setFld_chime ..).trans (Dev.setFld_chime ..)
  rw [Dev.missChime_of_missed hon hsrc hfree hdue ht]
  obtain ⟨hcount, hstarted, hprev, -, hdue'⟩ := Dev.fireChime_chime
    ((d.setFld .chime Reg.CHIME_STS.MMISS 1).setFld .chime Reg.CHIME_STS.FREERUN 1) (d.missAt t) none true
  rw [hchime] at hcount hdue'
  exact ⟨hcount, hstarted, hprev, hdue'⟩

/-- Settles O5: a chime that is due or missed is `fireChime`, and `fireChime_timing` says what it leaves in the generator. -/
theorem chimesFire : Obligations.ChimesFire := by
  unfold Obligations.ChimesFire
  refine ⟨?due, ?missed⟩
  case due =>
    intro s t T hlive hdue ht
    obtain ⟨own, hfire⟩ := (s.dev.touch t).fireDue_eq_fireChime t T
    rw [Dev.touch_markedDue] at hfire
    refine ⟨(s.dev.touch t).fireDue t T, ?_, ?_⟩
    · rw [exec_chime, execChime, State.run_of_live hlive, Dev.touch_nextDue, hdue]
      exact congrArg _ (congrArg _ (if_pos ht))
    · have h := (s.dev.touch t).fireChime_chime T ((s.dev.markedDue t).bind (fun f => f.2)) own
      rwa [← hfire, Dev.touch_chime] at h
  case missed =>
    intro s t hlive hon hfree hdue ht fired
    have hfired (mode : Nat) (hsrc : s.dev.fld .chime Reg.CHIME_CTL.SRC = mode) : fired ((s.dev.touch t).missChime t mode) := by
      rw [← Dev.touch_chimeOn _ t] at hon
      rw [← Dev.touch_isSet _ t] at hfree
      rw [← Dev.touch_fld _ t] at hsrc
      rw [← Dev.touch_markedDue _ t] at hdue
      rw [← Dev.touch_missAt _ t] at ht
      have h := Dev.missChime_chime hon hsrc hfree hdue ht
      rwa [Dev.touch_chime, Dev.touch_missAt] at h
    exact ⟨fun hsrc => ⟨_, (exec_markerMiss t s).trans (State.run_of_live hlive), hfired 1 hsrc⟩,
      fun hsrc => ⟨_, (exec_chimeInMiss t s).trans (State.run_of_live hlive), hfired 2 hsrc⟩⟩

end Machine
end Sys2Proof
end

section
/-! PROOFS. The closing point, markers, edges of CHIME_IN and the fall of CHIME_OUT (02 R35 to R38, R41, R469). -/
namespace Sys2Proof
namespace Machine

theorem exec_closingPoint (t : Nat) (s : State) : exec (.closingPoint t) s = execClosingPoint t s := rfl
theorem exec_markerEmit (t : Nat) (s : State) : exec (.markerEmit t) s = execMarkerEmit t s := rfl
theorem exec_markerReceive (t port : Nat) (bytes : List Byte) (s : State) :
    exec (.markerReceive t port bytes) s = execMarkerReceive t port bytes s := rfl
theorem exec_chimeInEdge (t : Nat) (s : State) : exec (.chimeInEdge t) s = execChimeInEdge t s := rfl
theorem exec_chimeOutFall (t : Nat) (s : State) : exec (.chimeOutFall t) s = execChimeOutFall t s := rfl

/-! ### Tables in which a value that is not the default is stored -/

section
variable {α : Type} {dflt : Nat → α} {tbl : Tbl α} {k k' : Nat} {v : α}

theorem Tbl.get_set_of_ne_dflt [DecidableEq α] (hv : v ≠ dflt k) :
    Tbl.get dflt (Tbl.set dflt tbl k v) k' = if k' = k then v else Tbl.get dflt tbl k' := by
  rw [Tbl.set, if_neg hv, Tbl.get_insert]

theorem Tbl.mem_keys_of_get_ne_dflt (h : Tbl.get dflt tbl k ≠ dflt k) : k ∈ tbl.map (fun e => e.1) := by
  induction tbl with
  | nil => exact absurd rfl h
  | cons e tbl ih =>
    by_cases hk : k = e.1
    · simp [hk]
    · rw [Tbl.get, if_neg hk] at h
      exact List.mem_cons_of_mem _ (ih h)

end

/-! ### The closing point (R35) -/

theorem Dev.bed_setBed_some (d : Dev) (b b' : Nat) (x : Bed) :
    (d.setBed b (some x)).bed b' = if b' = b then some x else d.bed b' :=
  Tbl.get_set_of_ne_dflt (dflt := fun _ => none) (v := some x) (Option.some_ne_none x)

theorem Dev.mem_bedIds {d : Dev} {b : Nat} {x : Bed} (h : d.bed b = some x) : b ∈ d.bedIds :=
  Tbl.mem_keys_of_get_ne_dflt (dflt := fun _ => (none : Option Bed)) (fun hn => by rw [Dev.bed, hn] at h; cases h)

/-- A bed as the done network samples it, given the items that have not retired. -/
def Dev.sampled (d : Dev) (T b : Nat) (x : Bed) : Bed :=
  if x.openT.isSome then { x with sample := some (T, d.retiredBy b x T) } else x

theorem Dev.sampled_sampled (d : Dev) (T b : Nat) (x : Bed) : d.sampled T b (d.sampled T b x) = d.sampled T b x := by
  unfold Dev.sampled
  cases h : x.openT.isSome <;> simp [h, Dev.retiredBy]

theorem Dev.sampled_congr {d d' : Dev} (hitems : d'.items = d.items) (hissue : d'.toIssue = d.toIssue) :
    d'.sampled = d.sampled := by
  funext T b x
  simp only [Dev.sampled, Dev.retiredBy, hitems, hissue]

section
variable (d : Dev) (T b : Nat)

theorem Dev.sampleBed_eq : d.sampleBed T b = d ∨ ∃ x, d.sampleBed T b = d.setBed b (some x) := by
  unfold Dev.sampleBed
  split
  · exact .inl rfl
  · split
    · exact .inr ⟨_, rfl⟩
    · exact .inl rfl

theorem Dev.sampleBed_items : (d.sampleBed T b).items = d.items := by
  rcases d.sampleBed_eq T b with h | ⟨x, h⟩
  · rw [h]
  · rw [h]; rfl

theorem Dev.sampleBed_toIssue : (d.sampleBed T b).toIssue = d.toIssue := by
  rcases d.sampleBed_eq T b with h | ⟨x, h⟩
  · rw [h]
  · rw [h]; rfl

theorem Dev.sampleBed_regs : (d.sampleBed T b).regs = d.regs := by
  rcases d.sampleBed_eq T b with h | ⟨x, h⟩
  · rw [h]
  · rw [h]; rfl

theorem Dev.sampleBed_bed (b' : Nat) :
    (d.sampleBed T b).bed b' = if b' = b then (d.bed b).map (d.sampled T b) else d.bed b' := by
  cases hx : d.bed b with
  | none =>
    rw [Dev.sampleBed, hx]
    by_cases hb : b' = b
    · rw [if_pos hb, hb]; exact hx
    · rw [if_neg hb]
  | some x =>
    simp only [Dev.sampleBed, hx, Option.map_some, Dev.sampled]
    split
    · exact Dev.bed_setBed_some ..
    · by_cases hb : b' = b
      · rw [if_pos hb, hb, hx]
      · rw [if_neg hb]

end

/-- Every bed of a list is sampled, however often the list names it. -/
theorem Dev.foldl_sampleBed_bed (T b : Nat) (bs : List Nat) (d : Dev) :
    (bs.foldl (fun d b => d.sampleBed T b) d).bed b = if b ∈ bs then (d.bed b).map (d.sampled T b) else d.bed b := by
  induction bs generalizing d with
  | nil => rfl
  | cons c bs ih =>
    have hsame : (d.sampleBed T c).sampled = d.sampled := Dev.sampled_congr (d.sampleBed_items T c) (d.sampleBed_toIssue T c)
    rw [List.foldl_cons, ih, hsame, Dev.sampleBed_bed]
    by_cases hc : b = c
    · subst hc
      by_cases hb : b ∈ bs
      · simp [hb, Function.comp_def, Dev.sampled_sampled]
      · simp [hb]
    · simp [hc]

/-! ### Markers that are queued (R36, 14 R337) -/

section
variable (d : Dev) (p q : Nat) (f : ShortFlit)

theorem Dev.queueShort_chime : (d.queueShort p f).chime = d.chime := by unfold Dev.queueShort; split <;> rfl
theorem Dev.queueShort_regs : (d.queueShort p f).regs = d.regs := by unfold Dev.queueShort; split <;> rfl

theorem Dev.portUp_congr {d d' : Dev} (h : d'.regs = d.regs) (p : Nat) : d'.portUp p = d.portUp p := by
  simp only [Dev.portUp, Dev.portState, Dev.fld, Dev.fldI, Dev.word, h]

/-- A port that is UP holds the flit after those that it held; the others hold what they held. -/
theorem Dev.queueShort_port (hup : d.portUp p = true) : ((d.queueShort p f).port q) =
    if q = p then { d.port p with short := (d.port p).short ++ [f] } else d.port q := by
  rw [Dev.queueShort, if_pos hup]
  refine Tbl.get_set_of_ne_dflt (fun h => ?_)
  have hshort : (d.port p).short ++ [f] = [] := congrArg PortSt.short h
  simp at hshort

theorem Dev.mem_short_queueShort {g : ShortFlit} (h : g ∈ (d.port q).short) : g ∈ ((d.queueShort p f).port q).short := by
  cases hup : d.portUp p with
  | false => simpa [Dev.queueShort, hup] using h
  | true =>
    rw [Dev.queueShort_port d p q f hup]
    split
    · rename_i hq
      exact List.mem_append_left _ (hq ▸ h)
    · exact h

end

/-- A flit queued at each port of a list waits at every one of them that is UP. -/
theorem Dev.mem_short_foldl_queueShort (f : ShortFlit) (p : Nat) (ps : List Nat) (d : Dev)
    (hp : (p ∈ ps ∧ d.portUp p = true) ∨ f ∈ (d.port p).short) :
    f ∈ ((ps.foldl (fun d p => d.queueShort p f) d).port p).short := by
  induction ps generalizing d with
  | nil => exact hp.resolve_left (fun h => absurd h.1 List.not_mem_nil)
  | cons c ps ih =>
    refine ih _ ?_
    rcases hp with ⟨hmem, hup⟩ | hshort
    · rcases List.mem_cons.mp hmem with rfl | hmem
      · exact .inr (by rw [Dev.queueShort_port d p p f hup, if_pos rfl]; simp)
      · exact .inl ⟨hmem, (Dev.portUp_congr (d.queueShort_regs c f) p).trans hup⟩
    · exact .inr (d.mem_short_queueShort c p f hshort)

/-- The marker of the next chime that has none, with a lead (R36). -/
def Dev.nextMarker (d : Dev) (lead : MarkerLead) : ShortFlit :=
  .marker (d.chime.nextNumber + BitVec.ofNat 64 d.chime.emitted) lead d.devId 0

/-- The ports' queues do not enter into a marker, so that every port is sent the same one. -/
theorem Dev.nextMarker_congr {d d' : Dev} (hchime : d'.chime = d.chime) (hregs : d'.regs = d.regs) (lead : MarkerLead) :
    d'.nextMarker lead = d.nextMarker lead := by
  simp only [Dev.nextMarker, Dev.devId, Dev.fld, Dev.fldI, Dev.word, hchime, hregs]

theorem Dev.foldl_queueShort_nextMarker (lead : MarkerLead) (ps : List Nat) (d : Dev) :
    ps.foldl (fun d p => d.queueShort p (d.nextMarker lead)) d =
      ps.foldl (fun d' p => d'.queueShort p (d.nextMarker lead)) d := by
  induction ps generalizing d with
  | nil => rfl
  | cons p ps ih =>
    rw [List.foldl_cons, List.foldl_cons, ih, Dev.nextMarker_congr (d.queueShort_chime p _) (d.queueShort_regs p _)]

/-- MARKER_EMIT when the next marker is due: every port of MKR_EMIT is sent it, and it counts as emitted. -/
theorem exec_markerEmit_of_due {s : State} {t e : Nat} {d : Dev} (hlive : s.live .chime) (hd : s.dev.touch t = d)
    (hon : d.chimeOn = true) (hsrc : d.fld .chime Reg.CHIME_CTL.SRC = 0)
    (he : max d.chime.emitFrom (d.nextUnemitted - d.fld .chime Reg.CHIME_LEAD.LEAD_NS * 64) = e) (ht : e ≤ t) :
    exec (.markerEmit t) s = .next ⟨s.pending,
      { d.markerPorts.foldl (fun d' p => d'.queueShort p (d.nextMarker (.fixed ((d.nextUnemitted - e) / 4)))) d with
        chime := { d.chime with emitted := d.chime.emitted + 1 } }⟩ := by
  rw [← Dev.foldl_queueShort_nextMarker, exec_markerEmit, execMarkerEmit, State.run_of_live hlive, hd]
  dsimp only
  rw [he, if_pos (by simp [hon, hsrc, ht])]
  rfl

/-! ### A marker that arrives (R37, R38) -/

/-- What a short flit that is taken leaves: its corrections are counted, and its buffer is free. -/
theorem Dev.recvShort_of_some {d : Dev} {p kind : Nat} {bytes q : List Byte} (h : (d.recvShort p kind bytes).2 = some q) :
    ∃ n g, (d.recvShort p kind bytes).1 = (d.countSat (.obotil p) Reg.OB_CE_CNT.COUNT n).modPort p g := by
  unfold Dev.recvShort at h ⊢
  cases hq : rxQuarter bytes with
  | none => simp [hq] at h
  | some r =>
    simp only [hq] at h ⊢
    split at h
    · cases h
    · exact ⟨_, _, by rw [if_neg ‹_›]⟩

theorem Dev.modPort_fld (d : Dev) (p : Nat) (g : PortSt → PortSt) (b : Blk) (f : Fld) :
    (d.modPort p g).fld b f = d.fld b f := rfl
theorem Dev.modPort_chime (d : Dev) (p : Nat) (g : PortSt → PortSt) : (d.modPort p g).chime = d.chime := rfl

/-- A counter of a port is no register of CHIME or POWER. -/
theorem Dev.fld_countSat_obotil {d : Dev} {p n : Nat} {b : Blk} {f g : Fld} (hb : b.base ≤ 0x50000) (hg : g.off < 0x10000) :
    (d.countSat (.obotil p) f n).fld b g = d.fld b g :=
  Dev.fld_setFld_ne (by
    have hport : (Blk.obotil p).base = 0x100000 + p * 0x10000 := rfl
    omega)

/-- Whether a fire time is early lies in the generator and in CHIME_TOL and CHIME_PERIOD. -/
theorem Dev.tooEarly_congr {d d' : Dev} (hchime : d'.chime = d.chime)
    (hfld : ∀ f : Fld, f.off < 0x10000 → d'.fld .chime f = d.fld .chime f) (F : Nat) : d'.tooEarly F = d.tooEarly F := by
  have htol : d'.tolerance = d.tolerance := congrArg (· * 64) (hfld Reg.CHIME_TOL.TOL_NS (by decide))
  have hperiod : d'.period = d.period := congrArg (· * 64) (hfld Reg.CHIME_PERIOD.PERIOD_NS (by decide))
  simp only [Dev.tooEarly, hchime, htol, hperiod]

/-- Whether the generator runs lies in CHIME_CTL and POWER_STS. -/
theorem Dev.chimeOn_congr {d d' : Dev} (hchime : ∀ f : Fld, f.off < 0x10000 → d'.fld .chime f = d.fld .chime f)
    (hpower : ∀ f : Fld, f.off < 0x10000 → d'.fld .power f = d.fld .power f) : d'.chimeOn = d.chimeOn := by
  unfold Dev.chimeOn Dev.chimeEnabled Dev.isSet Dev.powerState
  rw [hchime Reg.CHIME_CTL.ENABLE (by decide), hpower Reg.POWER_STS.STATE (by decide)]

/-- A short flit that is taken leaves the generator, its registers and the memories as they were. -/
theorem Dev.recvShort_keeps {d : Dev} {p kind : Nat} {bytes q : List Byte} (h : (d.recvShort p kind bytes).2 = some q) :
    let d1 := (d.recvShort p kind bytes).1
    d1.chime = d.chime ∧ (∀ f : Fld, f.off < 0x10000 → d1.fld .chime f = d.fld .chime f) ∧ d1.chimeOn = d.chimeOn := by
  obtain ⟨n, g, hd1⟩ := Dev.recvShort_of_some h
  have hfld (b : Blk) (hb : b.base ≤ 0x50000) (f : Fld) (hf : f.off < 0x10000) :
      (d.recvShort p kind bytes).1.fld b f = d.fld b f := by
    rw [hd1, Dev.modPort_fld]
    exact Dev.fld_countSat_obotil hb hf
  refine ⟨?_, hfld .chime (by decide), Dev.chimeOn_congr (hfld .chime (by decide)) (hfld .power (by decide))⟩
  rw [hd1, Dev.modPort_chime]
  exact Dev.countSat_chime ..

/-- A marker of positive lead on the port that is followed sets its chime's instant and number, unless it is early. -/
theorem Dev.markerArrives_of_lead_pos {d : Dev} {t port src hops : Nat} {num : DWord} {lead : Int} (hlead : 0 < lead)
    (hon : d.chimeOn = true) (hsrc : d.fld .chime Reg.CHIME_CTL.SRC = 1) (hport : d.fld .chime Reg.CHIME_CTL.MKR_PORT = port)
    (hearly : d.tooEarly (Int.ofNat t + lead * 4).toNat = false) :
    (d.markerArrives t port num lead src hops).chime =
        { d.chime with due := insertBy ((Int.ofNat t + lead * 4).toNat, some num) d.chime.due } ∧
      (d.markerArrives t port num lead src hops).mems = d.mems := by
  have hmax : max (Int.ofNat t + lead * 4).toNat t = (Int.ofNat t + lead * 4).toNat := by
    have : t ≤ (Int.ofNat t + lead * 4).toNat := by rw [Int.ofNat_eq_natCast]; omega
    omega
  have hcond : (d.chimeOn && d.fld .chime Reg.CHIME_CTL.SRC == 1 && d.fld .chime Reg.CHIME_CTL.MKR_PORT == port) = true := by
    simp [hon, hsrc, hport]
  have hchime (f : ShortFlit) : (d.markerPorts.foldl (fun d p => d.queueShort p f) d).chime = d.chime :=
    foldl_keeps Dev.chime (fun d p => d.queueShort_chime p f) _ d
  rw [Dev.markerArrives, if_pos hcond]
  simp only [hmax, hearly, Bool.false_eq_true, if_false, if_neg (not_le.mpr hlead), Dev.setDue, hchime]
  exact ⟨trivial, foldl_mems (fun d p => d.queueShort_mems p _) _ d⟩

/-- MARKER_RECEIVE of a well-formed marker: the flit is taken and its marker arrives. -/
theorem exec_markerReceive_of_marker {s : State} {t port : Nat} {bytes q : List Byte} (hlive : s.live .chime)
    (hup : s.dev.portUp port = true) (hrecv : ((s.dev.touch t).recvShort port 0 bytes).2 = some q)
    (hhigh : bitsOf (numAt q 8 8) 63 56 = 0) (hzero : (q.drop 16).all (fun b => b == 0#8) = true) :
    exec (.markerReceive t port bytes) s = .next ⟨s.pending,
      ((s.dev.touch t).recvShort port 0 bytes).1.markerArrives t port (BitVec.ofNat 64 (numAt q 0 8))
        (BitVec.ofNat 32 (numAt q 8 8)).toInt (bitsOf (numAt q 8 8) 47 32) (bitsOf (numAt q 8 8) 55 48)⟩ := by
  have hup' : (s.dev.touch t).portUp port = true := (Dev.portUp_congr (Dev.touch_regs ..) port).trans hup
  have hbad : ((q.drop 16).any (fun b => b != 0#8)) = false := by
    rw [List.any_eq_not_all_not]
    simpa using hzero
  rw [exec_markerReceive, execMarkerReceive, State.run_of_live hlive]
  rw [← Prod.mk.eta (p := (s.dev.touch t).recvShort port 0 bytes), hrecv]
  simp only [hup', Bool.not_true, Bool.false_eq_true, if_false, hhigh, hbad, ne_eq, not_true_eq_false, decide_false, Bool.or_self]

/-- Settles O6: the closing point by `foldl_sampleBed_bed`, markers by `mem_short_foldl_queueShort` and
`markerArrives_of_lead_pos`. -/
theorem chimeEventsComplete : Obligations.ChimeEventsComplete := by
  unfold Obligations.ChimeEventsComplete
  refine ⟨?closing, ?emit, ?receive, ?edge, ?fall⟩
  case closing =>
    intro s t T b x hlive hdue ht d0 hbed
    refine ⟨d0.bedIds.foldl (fun d b => d.sampleBed T b) d0, ?_, ?_, ?_, ?_, ?_, ?_⟩
    · rw [exec_closingPoint, execClosingPoint, State.run_of_live hlive, Dev.touch_nextDue, hdue]
      exact congrArg _ (congrArg _ (if_pos ht))
    · rw [Dev.foldl_sampleBed_bed, if_pos (Dev.mem_bedIds hbed), hbed]
      rfl
    · exact foldl_keeps Dev.items (fun d b => d.sampleBed_items T b) _ d0
    · exact foldl_keeps Dev.toIssue (fun d b => d.sampleBed_toIssue T b) _ d0
    · exact (foldl_mems (fun d b => d.sampleBed_mems T b) _ d0).trans (Dev.touch_mems ..)
    · exact (foldl_keeps Dev.regs (fun d b => d.sampleBed_regs T b) _ d0).trans (Dev.touch_regs ..)
  case emit =>
    intro s t hlive hon hsrc T e ht
    refine ⟨_, exec_markerEmit_of_due hlive rfl hon hsrc rfl ht, rfl, ?_, ?_, fun p hp hup => ?_⟩
    · exact (foldl_keeps Dev.regs (fun d p => d.queueShort_regs p _) _ _).trans (Dev.touch_regs ..)
    · exact (foldl_mems (fun d p => d.queueShort_mems p _) _ _).trans (Dev.touch_mems ..)
    · exact Dev.mem_short_foldl_queueShort _ p _ _ (.inl ⟨hp, hup⟩)
  case receive =>
    intro s t port bytes q hlive hup hrecv hhigh hzero lead F hlead hon hsrc hport hearly
    obtain ⟨hchime, hfld, hrun⟩ := Dev.recvShort_keeps hrecv
    have harr := Dev.markerArrives_of_lead_pos (d := ((s.dev.touch t).recvShort port 0 bytes).1) (t := t)
      (num := BitVec.ofNat 64 (numAt q 0 8)) (src := bitsOf (numAt q 8 8) 47 32) (hops := bitsOf (numAt q 8 8) 55 48) hlead
      (hrun.trans hon) ((hfld Reg.CHIME_CTL.SRC (by decide)).trans hsrc) ((hfld Reg.CHIME_CTL.MKR_PORT (by decide)).trans hport)
      ((Dev.tooEarly_congr hchime hfld F).trans hearly)
    rw [hchime, Dev.recvShort_mems, Dev.touch_mems] at harr
    exact ⟨_, exec_markerReceive_of_marker hlive hup hrecv hhigh hzero, harr⟩
  case edge =>
    intro s t hlive hon hsrc F
    rw [exec_chimeInEdge, execChimeInEdge, State.run_of_live hlive]
    exact congrArg _ (congrArg _ (if_pos (by simp [Dev.touch_chimeOn, Dev.touch_fld, hon, hsrc])))
  case fall =>
    intro s t hlive ht
    rw [exec_chimeOutFall, execChimeOutFall, State.run_of_live hlive]
    exact congrArg _ (congrArg _ (if_pos ht))

end Machine
end Sys2Proof
end

section
/-! PROOFS. Resets of furrows and writes of FUR_CFG (03 R74; 09 R227, Tables 9.5, 9.9, 9.10). -/
namespace Sys2Proof
namespace Machine

theorem exec_furrowReset (t : Nat) (src : Source) (die plot f : Nat) (s : State) :
    exec (.furrowReset t src die plot f) s = execFurrowReset t src die plot f s := rfl
theorem exec_furCfgWrite (t : Nat) (src : Source) (die plot f : Nat) (w : Word) (s : State) :
    exec (.furCfgWrite t src die plot f w) s = execFurCfgWrite t src die plot f w s := rfl

/-- What a cycle finds in a furrow is TAIL and the fill bits: a reset of the furrow does not see it. -/
theorem Furrow.resetPointers_atCycle (c : Nat) (f : Furrow) : (f.atCycle c).resetPointers = f.resetPointers := by
  unfold Furrow.atCycle
  split <;> rfl

section
variable (d : Dev) (die p f : Nat)

theorem Dev.modFur_resetPointers : d.modFur die p f Furrow.resetPointers = d.setFur die p f (d.fur die p f).resetPointers := by
  rw [Dev.modFur, Dev.furNow, Furrow.resetPointers_atCycle]

theorem Dev.furReset_eq :
    d.furReset die p f = if d.furOpen die p then d.setFur die p f (d.fur die p f).resetPointers
      else d.setFld (.plot die p) Reg.BENCH_STS.FUR_WR_IGN 1 := by
  rw [Dev.furReset, Dev.modFur_resetPointers]

/-- Table 9.9: a write of FUR_CFG is ignored while its bed runs, refused where its range does not fit, else in force. -/
theorem Dev.furCfgWritten_eq (w : Word) :
    d.furCfgWritten die p f w =
      if d.furOpen die p = false then d.setFld (.plot die p) Reg.BENCH_STS.FUR_WR_IGN 1
      else if d.furFits die p f (bitsOf w.toNat 12 0) (bitsOf w.toNat 28 16) then
        (d.setWord (.plot die p) (0x200 + 32 * f) w).setFur die p f
          { Furrow.start with base := bitsOf w.toNat 12 0, size := bitsOf w.toNat 28 16 }
      else d.setFld (.plot die p) Reg.BENCH_STS.FUR_CFG_BAD 1 := by
  simp only [Dev.furCfgWritten, Dev.modFur]
  cases d.furOpen die p
  · simp only [Bool.not_false, if_true]
  · cases d.furFits die p f (bitsOf w.toNat 12 0) (bitsOf w.toNat 28 16) <;>
      simp only [Bool.not_true, Bool.not_false, Bool.true_eq_false, Bool.false_eq_true, if_false, if_true]

end

/-- Settles O15: the reset by `furReset_eq`, the write of FUR_CFG by `furCfgWritten_eq`. -/
theorem furrowWritesComplete : Obligations.FurrowWritesComplete := by
  unfold Obligations.FurrowWritesComplete
  refine ⟨?reset, ?cfg⟩
  case reset =>
    intro s t src die plot f hf hacc d
    rw [exec_furrowReset, execFurrowReset]
    simp only [if_neg (not_le.mpr hf), Dev.cmdRow]
    rw [State.access_accepted hacc, Dev.furReset_eq]
    rfl
  case cfg =>
    intro s t src die plot f w hf hacc d base size
    rw [exec_furCfgWrite, execFurCfgWrite]
    simp only [if_neg (not_le.mpr hf)]
    rw [State.access_accepted hacc, Dev.furCfgWritten_eq]

end Machine
end Sys2Proof
end

section
/-! PROOFS. The loader's commands LOAD, REPLANT and ABORT (03 R77, R84, R88). -/
namespace Sys2Proof
namespace Machine

theorem exec_trellisLoad (t : Nat) (src : Source) (s : State) : exec (.trellisLoad t src) s = execTrellisLoad t src s := rfl
theorem exec_trellisReplant (t : Nat) (src : Source) (bed : BitVec 6) (s : State) :
    exec (.trellisReplant t src bed) s = execTrellisReplant t src bed s := rfl
theorem exec_trellisAbort (t : Nat) (src : Source) (s : State) : exec (.trellisAbort t src) s = execTrellisAbort t src s := rfl

/-! ### The device as a write of TRELLIS_CTL finds it -/

/-- TRELLIS lies on no die and IDLE leaves its clock running: an accepted write there is answered, and nothing else comes before
its effect. -/
theorem State.written_trellis (s : State) (t : Nat) (src : Source) :
    s.written t src .trellis = (s.dev.touch t).emit [.answer src .done] := by
  simp [State.written, Dev.wakeIdle, Blk.idleStops, Blk.dieOf]

theorem State.written_trellis_word (s : State) (t : Nat) (src : Source) (b : Blk) (o : Nat) :
    (s.written t src .trellis).word b o = s.dev.word b o := by
  rw [State.written_trellis]; rfl

section
variable (s : State) (t : Nat) (src : Source) (w : Word)

/-- The device with TRELLIS_CTL written, before its command starts. -/
def State.trellisCtl : Dev := (s.written t src .trellis).setWord .trellis 0x0 w

theorem State.trellisCtl_lstate : (s.trellisCtl t src w).lstate = s.dev.lstate := by
  unfold State.trellisCtl Dev.lstate Dev.fld Dev.fldI
  rw [Dev.word_setWord_ne (by decide), State.written_trellis_word]

/-- The counters lie in the registers of the lodges, not in those of TRELLIS. -/
theorem State.trellisCtl_counter : (s.trellisCtl t src w).trellisCounter = s.dev.trellisCounter := by
  unfold State.trellisCtl Dev.trellisCounter Dev.fldI
  rw [Dev.word_setWord_ne (by decide), Dev.word_setWord_ne (by decide), State.written_trellis_word, State.written_trellis_word]

theorem State.trellisCtl_loader : (s.trellisCtl t src w).loader = s.dev.loader := by
  unfold State.trellisCtl
  rw [State.written_trellis]
  rfl

end

/-! ### The commands (Tables 3.9 and 3.10) -/

section
variable {d : Dev}

theorem Dev.startLoad_of_idle (h : d.lstate = 0) :
    d.startLoad = if d.bedsRunning then d.loaderErr ⟨noSec, LCode.bedsRunning, 0⟩
      else { d.setLstate 1 with loader := { LoaderSt.start with
        op := some .load, counter := d.trellisCounter, awaiting := d.loader.awaiting } } :=
  if_neg (not_not.mpr h)

theorem Dev.startLoad_of_busy (h : d.lstate ≠ 0) : d.startLoad = d.loaderErr ⟨noSec, LCode.loaderBusy, 0⟩ := if_pos h

theorem Dev.startReplant_of_idle (b : Nat) (h : d.lstate = 0) :
    d.startReplant b = { (d.setLstate 1).setFld .trellis Reg.TRELLIS_STS.LBED b with loader := { LoaderSt.start with
      op := some .replant, bed := b, counter := d.trellisCounter, awaiting := d.loader.awaiting } } :=
  if_neg (not_not.mpr h)

/-- R88: an operation may be abandoned in VERIFY and in ARMED. -/
theorem Dev.abandonLoad_of_early (code : Nat) (h : d.lstate = 1 ∨ d.lstate = 2) :
    d.abandonLoad code = (d.loaderErr ⟨noSec, code, 0⟩).loaderIdle := if_pos h

end

theorem Dev.trellisCtlWritten_load (d : Dev) (new : Word) :
    d.trellisCtlWritten new 1#32 = (d.setWord .trellis 0x0 new).startLoad := rfl
theorem Dev.trellisCtlWritten_replant (d : Dev) (new : Word) :
    d.trellisCtlWritten new 2#32 = (d.setWord .trellis 0x0 new).startReplant (bitsOf new.toNat 21 16) := rfl
theorem Dev.trellisCtlWritten_abort (d : Dev) (new : Word) :
    d.trellisCtlWritten new 3#32 = (d.setWord .trellis 0x0 new).abandonLoad LCode.aborted := rfl

section
variable {s : State} {t : Nat} {src : Source} (h : s.accepts src .trellis 0x0)
include h

theorem exec_trellisLoad_accepted :
    exec (.trellisLoad t src) s = .next ⟨s.pending, (s.trellisCtl t src (s.dev.word .trellis 0x0)).startLoad⟩ := by
  rw [exec_trellisLoad, execTrellisLoad, State.access_accepted h, Dev.trellisCtlWritten_load, State.written_trellis_word,
    State.trellisCtl]

/-- The bed of a REPLANT is what its write puts into BED. -/
theorem exec_trellisReplant_accepted (bed : BitVec 6) :
    exec (.trellisReplant t src bed) s = .next ⟨s.pending,
      (s.trellisCtl t src (BitVec.ofNat 32 (putBits (s.dev.word .trellis 0x0).toNat 21 16 bed.toNat))).startReplant bed.toNat⟩ := by
  have hbed (n : Nat) : bitsOf (BitVec.ofNat 32 (putBits n 21 16 bed.toNat)).toNat 21 16 = bed.toNat := by
    rw [bitsOf_toNat_ofNat (by omega), bitsOf_putBits (by omega)]
    exact Nat.mod_eq_of_lt bed.isLt
  rw [exec_trellisReplant, execTrellisReplant, State.access_accepted h, Dev.trellisCtlWritten_replant, State.written_trellis_word,
    hbed, State.trellisCtl]

theorem exec_trellisAbort_accepted :
    exec (.trellisAbort t src) s =
      .next ⟨s.pending, (s.trellisCtl t src (s.dev.word .trellis 0x0)).abandonLoad LCode.aborted⟩ := by
  rw [exec_trellisAbort, execTrellisAbort, State.access_accepted h, Dev.trellisCtlWritten_abort, State.written_trellis_word,
    State.trellisCtl]

end

/-- Settles O8: each command by the LSTATE that it finds. -/
theorem loaderCommandsComplete : Obligations.LoaderCommandsComplete := by
  unfold Obligations.LoaderCommandsComplete
  refine ⟨?load, ?replant, ?abort, ?busy⟩
  case load =>
    intro s t src hacc hidle d
    rw [exec_trellisLoad_accepted hacc, Dev.startLoad_of_idle ((State.trellisCtl_lstate ..).trans hidle),
      State.trellisCtl_counter, State.trellisCtl_loader]
    rfl
  case replant =>
    intro s t src bed hacc hidle d
    rw [exec_trellisReplant_accepted hacc, Dev.startReplant_of_idle _ ((State.trellisCtl_lstate ..).trans hidle),
      State.trellisCtl_counter, State.trellisCtl_loader]
    rfl
  case abort =>
    intro s t src hacc hearly d
    rw [exec_trellisAbort_accepted hacc, Dev.abandonLoad_of_early _ (by rwa [State.trellisCtl_lstate])]
    rfl
  case busy =>
    intro s t src hacc hbusy d
    rw [exec_trellisLoad_accepted hacc, Dev.startLoad_of_busy (by rwa [State.trellisCtl_lstate])]
    rfl

end Machine
end Sys2Proof
end

section
/-! SUPPORT. What the loader and its bookkeeping leave as it was: `f_loadFrame` says that `f` changes nothing of it. -/
namespace Sys2Proof
namespace Machine

/-- Of a device, what the effects of a load or a replant name: the time, the generator, the beds and their items, the loader and
the arrays that failed. -/
structure LoadFrame where
  now     : Nat
  chime   : ChimeSt
  beds    : Tbl (Option Bed)
  items   : List Item
  toIssue : List Issue
  loader  : LoaderSt
  arrFail : List Nat
  arrNew  : List Nat

def Dev.loadFrame (d : Dev) : LoadFrame := ⟨d.now, d.chime, d.beds, d.items, d.toIssue, d.loader, d.arrFail, d.arrNew⟩

/-- The fields of a device, read off its frame. -/
theorem Dev.fields_of_loadFrame {d : Dev} {x : LoadFrame} (h : d.loadFrame = x) :
    d.now = x.now ∧ d.chime = x.chime ∧ d.beds = x.beds ∧ d.items = x.items ∧ d.toIssue = x.toIssue ∧ d.loader = x.loader ∧
      d.arrFail = x.arrFail := by
  subst h
  exact ⟨rfl, rfl, rfl, rfl, rfl, rfl, rfl⟩

/-! ### The smallest updates

Each holds by unfolding; `id` keeps `simp` from unfolding the device again where it chains them. -/

section
variable (d : Dev) (b : Blk) (f : Fld) (o v : Nat)
@[simp] theorem Dev.setWord_loadFrame (w : Word) : (d.setWord b o w).loadFrame = d.loadFrame := id rfl
@[simp] theorem Dev.setFldI_loadFrame (i : Nat) : (d.setFldI b f i v).loadFrame = d.loadFrame := id rfl
@[simp] theorem Dev.setFld_loadFrame : (d.setFld b f v).loadFrame = d.loadFrame := id rfl
@[simp] theorem Dev.countSat_loadFrame : (d.countSat b f v).loadFrame = d.loadFrame := id rfl
@[simp] theorem Dev.setFur_loadFrame (die p g : Nat) (x : Furrow) : (d.setFur die p g x).loadFrame = d.loadFrame := id rfl
@[simp] theorem Dev.setPlot_loadFrame (die p : Nat) (x : PlotSt) : (d.setPlot die p x).loadFrame = d.loadFrame := id rfl
@[simp] theorem Dev.setMower_loadFrame (die : Nat) (x : MowerSt) : (d.setMower die x).loadFrame = d.loadFrame := id rfl
@[simp] theorem Dev.modWard_loadFrame (l : Nat) (g : WardSt → WardSt) : (d.modWard l g).loadFrame = d.loadFrame := id rfl
@[simp] theorem Dev.modLodge_loadFrame (l : Nat) (g : LodgeSt → LodgeSt) : (d.modLodge l g).loadFrame = d.loadFrame := id rfl
@[simp] theorem Dev.renewTray_loadFrame (k n : Nat) : (d.renewTray k n).loadFrame = d.loadFrame := id rfl
@[simp] theorem Dev.takeFree_loadFrame : d.takeFree.2.loadFrame = d.loadFrame := id rfl
@[simp] theorem Dev.setBed_loadFrame (k : Nat) (x : Option Bed) :
    (d.setBed k x).loadFrame = { d.loadFrame with beds := Tbl.set (fun _ => none) d.loadFrame.beds k x } := id rfl

theorem foldl_loadFrame {α : Type} {f : Dev → α → Dev} (h : ∀ d a, (f d a).loadFrame = d.loadFrame) (l : List α) (d : Dev) :
    (l.foldl f d).loadFrame = d.loadFrame := foldl_keeps Dev.loadFrame h l d
end

/-! ### What a load and a replant do beside the beds -/

section
variable (d : Dev)

@[simp] theorem Dev.settle_loadFrame (die p : Nat) : (d.settle die p).loadFrame = d.loadFrame := by simp [Dev.settle]

@[simp] theorem Dev.settleAll_loadFrame : d.settleAll.loadFrame = d.loadFrame :=
  foldl_loadFrame (fun d _ => d.settle_loadFrame ..) _ d

@[simp] theorem Dev.noteFirstWrite_loadFrame (l : Nat) : (d.noteFirstWrite l).loadFrame = d.loadFrame := by
  unfold Dev.noteFirstWrite
  split <;> simp

@[simp] theorem Dev.endStep_loadFrame (l n next : Nat) : (d.endStep l n next).loadFrame = d.loadFrame := by
  unfold Dev.endStep
  dsimp only
  split <;> simp

@[simp] theorem Dev.setFurs_loadFrame (c : BedCfg) : (d.setFurs c).loadFrame = d.loadFrame :=
  foldl_loadFrame (fun d f => by split <;> simp) _ d

@[simp] theorem Dev.undefineFurs_loadFrame (c : BedCfg) : (d.undefineFurs c).loadFrame = d.loadFrame := by
  refine (foldl_loadFrame (fun d L => ?_) _ _).trans d.takeFree_loadFrame
  split
  · exact foldl_loadFrame (fun d f => by split <;> simp) _ d
  · rfl

@[simp] theorem Dev.undefineTrays_loadFrame (old new : Nat) : (d.undefineTrays old new).loadFrame = d.loadFrame :=
  (foldl_loadFrame (fun d k => by split <;> simp) _ _).trans d.takeFree_loadFrame

@[simp] theorem Dev.clearPlots_loadFrame (Ls : List Nat) : (d.clearPlots Ls).loadFrame = d.loadFrame :=
  foldl_loadFrame (fun d L => by split <;> simp) _ d

@[simp] theorem Dev.copyMirrors_loadFrame (c : BedCfg) : (d.copyMirrors c).loadFrame = d.loadFrame := by
  unfold Dev.copyMirrors
  split
  · rfl
  · exact foldl_loadFrame
      (fun d m => (foldl_loadFrame (fun d o => d.setWord_loadFrame ..) _ _).trans (d.setMower_loadFrame ..)) _ d

@[simp] theorem Dev.noteBeds_loadFrame : d.noteBeds.loadFrame = d.loadFrame := by simp [Dev.noteBeds]

@[simp] theorem Dev.setClken_loadFrame (o w : Nat) : (d.setClken o w).loadFrame = d.loadFrame := by
  unfold Dev.setClken
  dsimp only
  split <;> simp

@[simp] theorem Dev.writeClken_loadFrame : d.writeClken.loadFrame = d.loadFrame :=
  foldl_loadFrame (fun d _ => foldl_loadFrame (fun d _ => d.setClken_loadFrame ..) _ d) _ d

@[simp] theorem Dev.setMeas5_loadFrame (v : Nat) : (d.setMeas5 v).loadFrame = d.loadFrame :=
  foldl_loadFrame (fun d w => by simp) _ d

@[simp] theorem Dev.loaderErr_loadFrame (e : LErr) : (d.loaderErr e).loadFrame = d.loadFrame := by simp [Dev.loaderErr]
@[simp] theorem Dev.loaderDone_loadFrame : d.loaderDone.loadFrame = d.loadFrame := by simp [Dev.loaderDone]
@[simp] theorem Dev.loaderIdle_loadFrame : d.loaderIdle.loadFrame =
    { d.loadFrame with loader := { LoaderSt.start with awaiting := d.loadFrame.loader.awaiting } } := rfl
end

end Machine
end Sys2Proof
end

section
/-! PROOFS. The ends of loads and replants (03 R79, R80, R84 to R87, R89; 16 R384). -/
namespace Sys2Proof
namespace Machine

theorem exec_trellisLoadDone (t : Nat) (s : State) : exec (.trellisLoadDone t) s = execTrellisLoadDone t s := rfl
theorem exec_replantArmed (t : Nat) (s : State) : exec (.replantArmed t) s = execReplantArmed t s := rfl
theorem exec_replantDrainEnd (t : Nat) (s : State) : exec (.replantDrainEnd t) s = execReplantDrainEnd t s := rfl
theorem exec_replantConfigEnd (t : Nat) (s : State) : exec (.replantConfigEnd t) s = execReplantConfigEnd t s := rfl

/-! ### Writes of the loader to the dies (R89, 16 R384) -/

/-- Where every die holds the warden's pair, the loader's writes have their effect. -/
theorem Dev.loaderWrites_of_pairs {d : Dev} {dies : List Nat} {f : Dev → Dev} (hdies : ∀ k ∈ dies, k < 8)
    (h : ∀ k, k < 8 → d.diePair k = d.lodgePair d.wardenLodge) :
    d.loaderWrites dies f = f (d.noteFirstWrite d.wardenLodge) := by
  have hnone : dies.filter (fun k => d.diePair k != d.lodgePair d.wardenLodge) = [] :=
    List.filter_eq_nil_iff.mpr (fun k hk => by rw [h k (hdies k hk), bne_self_eq_false]; exact Bool.false_ne_true)
  simp only [Dev.loaderWrites, hnone]

theorem BedCfg.lt_of_mem_touchedDies {c : BedCfg} {k : Nat} (h : k ∈ c.touchedDies) : k < 8 :=
  List.mem_range.mp (List.mem_of_mem_filter h)

/-! ### A full load (R80) -/

/-- The beds of a full image, as a load puts them into an empty table. -/
def freshBeds (bs : List (Nat × BedCfg)) : Tbl (Option Bed) :=
  bs.foldl (fun t x => Tbl.set (fun _ => none) t x.1 (some (Bed.fresh x.2 (fullSlots bs x.1 x.2)))) []

section
variable {α β : Type} [DecidableEq α] {dflt : Nat → α} {v : Nat × β → α} {l : List (Nat × β)} {k : Nat}

theorem Tbl.get_foldl_set_of_not_mem (h : ∀ x ∈ l, k ≠ x.1) (t : Tbl α) :
    Tbl.get dflt (l.foldl (fun t x => Tbl.set dflt t x.1 (v x)) t) k = Tbl.get dflt t k := by
  induction l generalizing t with
  | nil => rfl
  | cons x l ih =>
    exact (ih (fun y hy => h y (List.mem_cons_of_mem _ hy)) _).trans (Tbl.get_set_ne (h x List.mem_cons_self))

/-- Writes under distinct keys are all found again. -/
theorem Tbl.get_foldl_set (hl : l.Pairwise (fun x y => x.1 ≠ y.1)) {x : Nat × β} (hx : x ∈ l) (hv : v x ≠ dflt x.1)
    (t : Tbl α) :
    Tbl.get dflt (l.foldl (fun t x => Tbl.set dflt t x.1 (v x)) t) x.1 = v x := by
  induction l generalizing t with
  | nil => cases hx
  | cons y l ih =>
    obtain ⟨hy, hrest⟩ := List.pairwise_cons.mp hl
    rcases List.mem_cons.mp hx with rfl | hmem
    · exact (Tbl.get_foldl_set_of_not_mem hy _).trans ((Tbl.get_set_of_ne_dflt hv).trans (if_pos rfl))
    · exact ih hrest hmem _

end

theorem get_freshBeds {bs : List (Nat × BedCfg)} (hbs : bs.Pairwise (fun x y => x.1 ≠ y.1)) {x : Nat × BedCfg} (hx : x ∈ bs) :
    Tbl.get (fun _ => none) (freshBeds bs) x.1 = some (Bed.fresh x.2 (fullSlots bs x.1 x.2)) :=
  Tbl.get_foldl_set (v := fun x => some (Bed.fresh x.2 (fullSlots bs x.1 x.2))) hbs hx (Option.some_ne_none _) []

/-- Setting the beds one by one, each with its furrows and mirrors, changes only the table of beds. -/
theorem foldl_setBed_loadFrame (bed : Nat × BedCfg → Bed) (bs : List (Nat × BedCfg)) (d : Dev) :
    (bs.foldl (fun d x => ((d.setBed x.1 (some (bed x))).setFurs x.2).copyMirrors x.2) d).loadFrame =
      { d.loadFrame with
        beds := bs.foldl (fun t x => Tbl.set (fun _ => none) t x.1 (some (bed x))) d.loadFrame.beds } := by
  induction bs generalizing d with
  | nil => rfl
  | cons x bs ih =>
    rw [List.foldl_cons, ih, Dev.copyMirrors_loadFrame, Dev.setFurs_loadFrame, Dev.setBed_loadFrame]
    rfl

/-- The device of a full load before its beds are set: nothing of the old image is left, and the failures are merged. -/
def Dev.unplanted (d : Dev) : Dev :=
  { d with
    arrFail := d.mergedArr, defFail := d.mergedDef, arrNew := [], defNew := [],
    beds := [], items := [], toIssue := [], furs := [], plots := [],
    sieves := (d.sieves.map (fun (e : Nat × SieveSt) => (e.1, { e.2 with run := none }))).filter (fun e => e.2 != SieveSt.start)
    mowers := (d.mowers.map (fun (e : Nat × MowerSt) => (e.1, { e.2 with run := none }))).filter (fun e => e.2 != MowerSt.start) }

theorem Dev.unplanted_loadFrame (d : Dev) : d.unplanted.loadFrame =
    { d.loadFrame with beds := [], items := [], toIssue := [],
                       arrFail := (d.loadFrame.arrFail ++ d.loadFrame.arrNew).eraseDups, arrNew := [] } := rfl

section
variable (d : Dev) (h : Header) (bs : List (Nat × BedCfg)) (dig : Nat)

/-- After the beds a full load writes registers and clears plots: what else it leaves is what setting the beds leaves. -/
theorem Dev.applyFull_keeps {β : Type} (g : Dev → β) (hmeas : ∀ d v, g (Dev.setMeas5 d v) = g d)
    (hfld : ∀ d b f v, g (Dev.setFld d b f v) = g d) (hclken : ∀ d, g (Dev.writeClken d) = g d)
    (hbeds : ∀ d, g (Dev.noteBeds d) = g d) (hplots : ∀ d Ls, g (Dev.clearPlots d Ls) = g d) :
    g (d.applyFull h bs dig) = g (bs.foldl (fun d x =>
      ((d.setBed x.1 (some (Bed.fresh x.2 (fullSlots bs x.1 x.2)))).setFurs x.2).copyMirrors x.2) d.settleAll.unplanted) := by
  simp only [Dev.applyFull, hmeas, hfld, hclken, hbeds, hplots]
  rfl

theorem Dev.applyFull_loadFrame : (d.applyFull h bs dig).loadFrame =
    { d.loadFrame with beds := freshBeds bs, items := [], toIssue := [], arrFail := d.mergedArr, arrNew := [] } := by
  rw [d.applyFull_keeps h bs dig Dev.loadFrame Dev.setMeas5_loadFrame Dev.setFld_loadFrame Dev.writeClken_loadFrame
      Dev.noteBeds_loadFrame Dev.clearPlots_loadFrame,
    foldl_setBed_loadFrame (fun x => Bed.fresh x.2 (fullSlots bs x.1 x.2)), Dev.unplanted_loadFrame, Dev.settleAll_loadFrame]
  rfl

theorem Dev.applyFull_mems : (d.applyFull h bs dig).mems = d.mems := by
  rw [d.applyFull_keeps h bs dig Dev.mems Dev.setMeas5_mems Dev.setFld_mems Dev.writeClken_mems Dev.noteBeds_mems
    Dev.clearPlots_mems]
  exact (foldl_mems (fun d x => by simp) _ _).trans d.settleAll_mems

end

theorem Dev.touch_mergedArr (d : Dev) (t : Nat) : (d.touch t).mergedArr = d.mergedArr := rfl

theorem Dev.mergedArr_of_loadFrame {d d' : Dev} (h : d'.loadFrame = d.loadFrame) : d'.mergedArr = d.mergedArr :=
  congrArg (fun x : LoadFrame => (x.arrFail ++ x.arrNew).eraseDups) h

/-- A full load ends: the loader is idle, and step 9 of start-up ends with the first one (19 R428). -/
def Dev.loadEnds (d : Dev) : Dev := d.loaderIdle.endStep d.wardenLodge 9 10

section
variable (d : Dev)

theorem Dev.loadEnds_loadFrame :
    d.loadEnds.loadFrame = { d.loadFrame with loader := { LoaderSt.start with awaiting := d.loadFrame.loader.awaiting } } :=
  (Dev.endStep_loadFrame ..).trans d.loaderIdle_loadFrame

theorem Dev.loadEnds_mems : d.loadEnds.mems = d.mems := (Dev.endStep_mems ..).trans d.loaderIdle_mems

theorem Dev.modLodge_plots (l : Nat) (f : LodgeSt → LodgeSt) : (d.modLodge l f).plots = d.plots := rfl

theorem Dev.endStep_plots (l n next : Nat) : (d.endStep l n next).plots = d.plots := by
  unfold Dev.endStep
  dsimp only
  split
  · rw [Dev.modLodge_plots, Dev.setFldI_plots, Dev.setFld_plots]
  · rfl

theorem Dev.loadEnds_plots : d.loadEnds.plots = d.plots := Dev.endStep_plots ..

theorem Dev.loaderErr_plots (e : LErr) : (d.loaderErr e).plots = d.plots := by
  rw [Dev.loaderErr, Dev.setFld_plots, Dev.setFld_plots, Dev.setFld_plots, Dev.setFld_plots]
end

/-- What a full load that passes leaves (R80). -/
theorem Dev.loaded_loadFrame (d : Dev) (h : Header) (bs : List (Nat × BedCfg)) (dig : Nat) :
    (d.applyFull h bs dig).loaderDone.loadEnds.loadFrame =
      { d.loadFrame with beds := freshBeds bs, items := [], toIssue := [], arrFail := d.mergedArr, arrNew := [],
                         loader := { LoaderSt.start with awaiting := d.loadFrame.loader.awaiting } } := by
  rw [Dev.loadEnds_loadFrame, Dev.loaderDone_loadFrame, Dev.applyFull_loadFrame]

section
variable {s : State} {t : Nat} (hlive : s.live .trellis) (hverify : s.dev.lstate = 1) (hload : s.dev.loader.op = some .load)
  (hidle : (s.dev.touch t).bedsRunning = false)
include hlive hverify hload hidle

/-- R80: an image that passes takes effect once the dies have taken the loader's writes. -/
theorem exec_trellisLoadDone_of_passed {h : Header} {es : List DirEntry} {bs : List (Nat × BedCfg)} {dig : Nat}
    (hpairs : ∀ k, k < 8 → s.dev.diePair k = s.dev.lodgePair s.dev.wardenLodge)
    (hstaged : (s.dev.touch t).checkStaged false = .ok (h, es, bs, dig))
    (hfull : checkFull (s.dev.touch t).staged ((s.dev.touch t).loadView true) es bs = .ok ()) :
    exec (.trellisLoadDone t) s = .next ⟨s.pending,
      (((s.dev.touch t).noteFirstWrite s.dev.wardenLodge).applyFull h bs dig).loaderDone.loadEnds⟩ := by
  rw [exec_trellisLoadDone, execTrellisLoadDone, State.run_of_live hlive, if_pos ⟨hverify, hload⟩]
  simp only [hidle, Bool.false_eq_true, if_false, hstaged, hfull]
  exact congrArg _ (congrArg _ (Dev.loaderWrites_of_pairs (d := s.dev.touch t) (fun k => List.mem_range.mp) hpairs))

/-- R79: an image that a check refuses ends the load with the error. -/
theorem exec_trellisLoadDone_of_refused {e : LErr} (hstaged : (s.dev.touch t).checkStaged false = .error e) :
    exec (.trellisLoadDone t) s = .next ⟨s.pending, ((s.dev.touch t).loaderErr e).loadEnds⟩ := by
  rw [exec_trellisLoadDone, execTrellisLoadDone, State.run_of_live hlive, if_pos ⟨hverify, hload⟩]
  simp only [hidle, Bool.false_eq_true, if_false, hstaged]
  rfl

end

/-! ### A replant (R84 to R87) -/

/-- What CONFIG gives the bed lies in the table of beds and the time. -/
theorem Dev.replanted_of_loadFrame {d d' : Dev} (h : d'.loadFrame = d.loadFrame) : d'.replanted = d.replanted := by
  obtain ⟨hnow, -, hbeds, -⟩ := Dev.fields_of_loadFrame h
  rw [Dev.loadFrame] at hnow hbeds
  funext b c
  simp only [Dev.replanted, Dev.replantSlots, Dev.freeSlot, Dev.bedAtSlot, Dev.bed, hbeds, hnow]

/-- The device of a replant of bed `b` with the old bed gone: its plots are cleared, its items have left, and the trays that
change hands are undefined. -/
def Dev.unplantBed (d : Dev) (b : Nat) : Dev :=
  let old := match d.bed b with | some x => x.cfg.plots | none => []
  let sieves := match d.bed b with | some x => x.cfg.sieveMask | none => 0
  let kept := match d.loader.cfg with | some c => c.sieveMask | none => 0
  { (d.undefineTrays sieves kept).clearPlots old with
    items := d.items.filter (fun i => i.bed != b), toIssue := d.toIssue.filter (fun q => q.bed != b) }

/-- The device with the new bed in place of it, or none. -/
def Dev.replantBed (d : Dev) (b : Nat) : Dev :=
  match d.loader.cfg with
  | none => (d.unplantBed b).setBed b none
  | some c => (((((d.unplantBed b).setBed b (some (d.replanted b c))).clearPlots c.plots).undefineFurs c).setFurs c).copyMirrors c

theorem Dev.withItems_loadFrame (d : Dev) (is : List Item) (qs : List Issue) :
    ({ d with items := is, toIssue := qs } : Dev).loadFrame = { d.loadFrame with items := is, toIssue := qs } := rfl

theorem Dev.unplantBed_loadFrame (d : Dev) (b : Nat) : (d.unplantBed b).loadFrame =
    { d.loadFrame with
      items := d.items.filter (fun i => i.bed != b), toIssue := d.toIssue.filter (fun q => q.bed != b) } := by
  rw [Dev.unplantBed, Dev.withItems_loadFrame, Dev.clearPlots_loadFrame, Dev.undefineTrays_loadFrame]

/-- A replant changes, of what a load changes, its bed and the bed's items alone (R84, R85). -/
theorem Dev.replantBed_loadFrame (d : Dev) (b : Nat) : (d.replantBed b).loadFrame =
    { d.loadFrame with
      beds := Tbl.set (fun _ => none) d.beds b (d.loader.cfg.map (d.replanted b))
      items := d.items.filter (fun i => i.bed != b)
      toIssue := d.toIssue.filter (fun q => q.bed != b) } := by
  have hframe := d.unplantBed_loadFrame b
  unfold Dev.replantBed
  cases d.loader.cfg with
  | none =>
    simp only [Dev.setBed_loadFrame, hframe, Option.map_none]
    rfl
  | some c =>
    simp only [Dev.copyMirrors_loadFrame, Dev.setFurs_loadFrame, Dev.undefineFurs_loadFrame, Dev.clearPlots_loadFrame,
      Dev.setBed_loadFrame, hframe, Option.map_some]
    rfl

theorem Dev.unplantBed_mems (d : Dev) (b : Nat) : (d.unplantBed b).mems = d.mems := by simp [Dev.unplantBed]

theorem Dev.replantBed_mems (d : Dev) (b : Nat) : (d.replantBed b).mems = d.mems := by
  unfold Dev.replantBed
  cases d.loader.cfg <;> simp [Dev.unplantBed_mems]

/-- CONFIG puts the bed in place and ends the replant; the rest that it writes are registers. -/
theorem Dev.configBed_eq (d : Dev) (b : Nat) : ∃ v a, d.configBed b =
    ({ (((d.settleAll.replantBed b).noteBeds.writeClken).setMeas5 v).setFld .trellis Reg.TRELLIS_REPLANT_LAT.LAT_NS 0 with
       loader := a } : Dev).loaderDone.loaderIdle :=
  ⟨_, _, rfl⟩

theorem Dev.withLoader_loadFrame (d : Dev) (x : LoaderSt) :
    ({ d with loader := x } : Dev).loadFrame = { d.loadFrame with loader := x } := rfl

/-- What CONFIG leaves: the bed, its items and the loader's record have changed (R84, R85). -/
theorem Dev.configBed_loadFrame (d : Dev) (b : Nat) : ∃ a, (d.configBed b).loadFrame =
    { d.loadFrame with
      beds := Tbl.set (fun _ => none) d.beds b (d.loader.cfg.map (d.replanted b))
      items := d.items.filter (fun i => i.bed != b)
      toIssue := d.toIssue.filter (fun q => q.bed != b)
      loader := { LoaderSt.start with awaiting := a } } := by
  obtain ⟨v, a, hconfig⟩ := d.configBed_eq b
  refine ⟨a.awaiting, ?_⟩
  have hd := d.settleAll_loadFrame
  obtain ⟨-, -, hbeds, hitems, hissue, hloader, -⟩ := Dev.fields_of_loadFrame hd
  rw [hconfig, Dev.loaderIdle_loadFrame, Dev.loaderDone_loadFrame, Dev.withLoader_loadFrame, Dev.setFld_loadFrame,
    Dev.setMeas5_loadFrame, Dev.writeClken_loadFrame, Dev.noteBeds_loadFrame, Dev.replantBed_loadFrame, hd, hbeds, hitems,
    hissue, hloader, Dev.replanted_of_loadFrame hd]
  rfl

theorem Dev.configBed_mems (d : Dev) (b : Nat) : (d.configBed b).mems = d.mems := by
  obtain ⟨v, a, hconfig⟩ := d.configBed_eq b
  rw [hconfig]
  simp [Dev.replantBed_mems]

section
variable {s : State} {t : Nat} (hlive : s.live .trellis)
include hlive

/-- R83, R84: a replant image that passes arms the loader, which goes straight to CONFIG where its bed does not run. -/
theorem exec_replantArmed_of_passed {h : Header} {es : List DirEntry} {n dig : Nat} {c : BedCfg} {x : Bed} {d d1 : Dev}
    (hd : s.dev.touch t = d) (hverify : d.lstate = 1) (hreplant : d.loader.op = some .replant)
    (hregion : d.stagingOk d.loader.bed = true) (hstaged : d.checkStaged true = .ok (h, es, [(n, c)], dig))
    (hcheck : d.checkReplant es d.loader.bed c = .ok ()) (hbed : d.bed d.loader.bed = some x)
    (hd1 : { d.setLstate 2 with loader := { d.loader with
      cfg := some c, digest := dig, armT := d.now, drained := false } } = d1) :
    exec (.replantArmed t) s = .next ⟨s.pending,
      if x.state = .idle ∨ x.state = .halted then d1.beginConfig d.loader.bed else d1⟩ := by
  have hbeds : d1.beds = (d.setLstate 2).beds := by rw [← hd1]
  have hbed1 : d1.bed d.loader.bed = some x := by rw [Dev.bed, hbeds, Dev.setLstate, Dev.setFld_beds]; exact hbed
  rw [exec_replantArmed, execReplantArmed, State.run_of_live hlive, hd, if_pos ⟨hverify, hreplant⟩]
  simp only [hregion, Bool.not_true, Bool.false_eq_true, if_false, hstaged, hcheck, hd1, hbed1]

/-- R84: the drain of a bed without items, or with the chime after it begun, ends in CONFIG. -/
theorem exec_replantDrainEnd_of_drained {d : Dev} (hd : s.dev.touch t = d) (hdrain : d.lstate = 3)
    (hend : d.loader.drained = true ∨ d.items.any (fun i => i.bed == d.loader.bed) = false) :
    exec (.replantDrainEnd t) s = .next ⟨s.pending, d.beginConfig d.loader.bed⟩ := by
  rw [exec_replantDrainEnd, execReplantDrainEnd, State.run_of_live hlive, hd, if_pos ⟨hdrain, hend⟩]

/-- R84, R89: CONFIG ends with the bed reconfigured once the dies have taken the loader's writes. -/
theorem exec_replantConfigEnd_of_pairs {d : Dev} (hd : s.dev.touch t = d) (hconfig : d.lstate = 4)
    (hpairs : ∀ k, k < 8 → d.diePair k = d.lodgePair d.wardenLodge) (hleft : d.commandsLeft d.loader.bed = false) :
    exec (.replantConfigEnd t) s = .next ⟨s.pending, (d.noteFirstWrite d.wardenLodge).configBed d.loader.bed⟩ := by
  rw [exec_replantConfigEnd, execReplantConfigEnd, State.run_of_live hlive, hd, if_pos ⟨hconfig, hleft⟩]
  refine congrArg _ (congrArg _ (Dev.loaderWrites_of_pairs (fun k hk => ?_) hpairs))
  rcases List.mem_append.mp (List.mem_eraseDups.mp hk) with hold | hnew
  · cases hb : d.bed d.loader.bed with
    | none => rw [hb] at hold; cases hold
    | some x => rw [hb] at hold; exact BedCfg.lt_of_mem_touchedDies hold
  · cases hc : d.loader.cfg with
    | none => rw [hc] at hnew; cases hnew
    | some c => rw [hc] at hnew; exact BedCfg.lt_of_mem_touchedDies hnew

end

/-- Settles O9: a load by `applyFull_loadFrame`, a replant's CONFIG by `configBed_loadFrame`. -/
theorem loaderOperationsComplete : Obligations.LoaderOperationsComplete := by
  unfold Obligations.LoaderOperationsComplete
  refine ⟨?load, ?refused, ?armed, ?drained, ?config⟩
  case load =>
    intro s t h es bs dig hlive d0 hverify hload hidle hpairs hstaged hfull hbs
    refine ⟨((d0.noteFirstWrite s.dev.wardenLodge).applyFull h bs dig).loaderDone.loadEnds,
      exec_trellisLoadDone_of_passed hlive hverify hload hidle hpairs hstaged hfull, ?_⟩
    have hnote := d0.noteFirstWrite_loadFrame s.dev.wardenLodge
    obtain ⟨-, hchime0, -⟩ := Dev.fields_of_loadFrame hnote
    obtain ⟨-, hchime, hbeds, hitems, hissue, hloader, harr⟩ :=
      Dev.fields_of_loadFrame ((d0.noteFirstWrite s.dev.wardenLodge).loaded_loadFrame h bs dig)
    refine ⟨fun x hx => ?_, hitems, hissue, congrArg LoaderSt.op hloader, ?_, ?_, ?_⟩
    · rw [Dev.bed, hbeds]
      exact get_freshBeds hbs hx
    · exact harr.trans ((Dev.mergedArr_of_loadFrame hnote).trans (s.dev.touch_mergedArr t))
    · rw [Dev.loadEnds_mems, Dev.loaderDone_mems, Dev.applyFull_mems, Dev.noteFirstWrite_mems, Dev.touch_mems]
    · exact hchime.trans hchime0
  case refused =>
    intro s t e hlive d0 hverify hload hidle hstaged
    obtain ⟨-, -, hbeds, hitems, -, hloader, -⟩ := Dev.fields_of_loadFrame (Dev.loadEnds_loadFrame (d0.loaderErr e))
    rw [Dev.loaderErr_loadFrame] at hbeds hitems
    refine ⟨_, exec_trellisLoadDone_of_refused hlive hverify hload hidle hstaged, hbeds, hitems, ?_, ?_,
      congrArg LoaderSt.op hloader⟩
    · rw [Dev.loadEnds_plots, Dev.loaderErr_plots, Dev.touch_plots]
    · rw [Dev.loadEnds_mems, Dev.loaderErr_mems, Dev.touch_mems]
  case armed =>
    intro s t n h es c dig x hlive d hverify hreplant hregion hstaged hcheck hbed d1
    exact exec_replantArmed_of_passed hlive (d := d) rfl hverify hreplant hregion hstaged hcheck hbed rfl
  case drained =>
    intro s t hlive hdrain d hend
    exact exec_replantDrainEnd_of_drained hlive (d := d) rfl hdrain hend
  case config =>
    intro s t hlive hconfig d0 hpairs hleft
    have hnote := d0.noteFirstWrite_loadFrame s.dev.wardenLodge
    obtain ⟨-, -, hbeds0, hitems0, hissue0, hloader0, -⟩ := Dev.fields_of_loadFrame hnote
    obtain ⟨a, hframe⟩ := (d0.noteFirstWrite s.dev.wardenLodge).configBed_loadFrame s.dev.loader.bed
    rw [hbeds0, hitems0, hissue0, hloader0, Dev.replanted_of_loadFrame hnote] at hframe
    obtain ⟨-, -, hbeds, hitems, hissue, hloader, -⟩ := Dev.fields_of_loadFrame hframe
    refine ⟨_, exec_replantConfigEnd_of_pairs hlive (d := d0) rfl hconfig hpairs hleft, hbeds, hitems, hissue,
      congrArg LoaderSt.op hloader, ?_⟩
    rw [Dev.configBed_mems, Dev.noteFirstWrite_mems, Dev.touch_mems]

end Machine
end Sys2Proof
end

section
/-! SUPPORT. Register accesses as they reach the device: the first error of Table 4.4 decides a write (04 R108), an accepted write
is answered and goes to its block (R98, R101), and a read answers the register's value with its side effect (R92, R93). -/
namespace Sys2Proof
namespace Machine

theorem exec_registerWrite (t : Nat) (w : WriteAccess) (s : State) : exec (.registerWrite t w) s = execRegisterWrite t w s := rfl

/-! ### Where an access goes -/

/-- A VF reaches no block past its own register block (15 R361). -/
theorem isVf_eq_false_of_target {src : Source} {a : Nat} {x : Blk × Bool} (h : target src a = some x) (ha : 0x10000 ≤ a) :
    src.isVf = false := by
  cases src with
  | pcie p fn =>
    by_cases hfn : fn = 0
    · simp [Source.isVf, hfn]
    · simp [target, hfn, Nat.not_lt.mpr ha] at h
  | _ => rfl

/-- An access that reaches a block is none of a VF's MSI-X table (15 R361). -/
theorem tableAccess_eq_false_of_target {src : Source} {a : Nat} {x : Blk × Bool} (h : target src a = some x) :
    (src.isVf && decide (0x10000 ≤ a ∧ a < 0x20000)) = false := by
  by_cases ha : 0x10000 ≤ a
  · rw [isVf_eq_false_of_target h ha, Bool.false_and]
  · simp [ha]

theorem WriteAccess.blk_of_target {w : WriteAccess} {b : Blk} {p : Bool} (h : target w.src w.addr = some (b, p)) : w.blk = b := by
  rw [WriteAccess.blk, h]

/-! ### The errors of Table 4.4 -/

section
variable {d : Dev} {w : WriteAccess} {b : Blk} {peer : Bool}

theorem Dev.writeErr_of_unmapped (ht : target w.src w.addr = none) : d.writeErr w = some .unmapped := by
  rw [Dev.writeErr, ht]

variable (ht : target w.src w.addr = some (b, peer))
include ht

theorem Dev.writeErr_of_size (hsize : w.size ≠ 4 ∨ w.addr % 4 ≠ 0 ∨ w.enables ≠ 0xF#4 ∨ w.amo = true) :
    d.writeErr w = some .size := by
  rw [Dev.writeErr, ht]
  exact if_pos hsize

variable (hsize : ¬(w.size ≠ 4 ∨ w.addr % 4 ≠ 0 ∨ w.enables ≠ 0xF#4 ∨ w.amo = true))
include hsize

theorem Dev.writeErr_of_gated (hclk : d.clockOn b = false) : d.writeErr w = some .gated := by
  simp only [Dev.writeErr, ht, if_neg hsize, hclk, Bool.not_false, if_true]

theorem Dev.writeErr_of_fenced (hclk : d.clockOn b = true)
    (hf : peer = true ∨ sharedState b (w.addr % 0x4000) = true ∧ d.isWarden w.src.lodge = false) :
    d.writeErr w = some .fenced := by
  have hf' : (peer || (sharedState b (w.addr % 0x4000) && !d.isWarden w.src.lodge)) = true := by simpa using hf
  simp only [Dev.writeErr, ht, if_neg hsize, hclk, hf', Bool.not_true, Bool.false_eq_true, if_false, if_true]

theorem Dev.writeErr_of_busy (hclk : d.clockOn b = true)
    (hf : ¬(peer = true ∨ sharedState b (w.addr % 0x4000) = true ∧ d.isWarden w.src.lodge = false))
    (hposted : b.posted = true) (hbusy : d.isBusy b = true) : d.writeErr w = some .busy := by
  have hf' : (peer || (sharedState b (w.addr % 0x4000) && !d.isWarden w.src.lodge)) = false := by
    rw [← Bool.not_eq_true]
    simpa using hf
  simp only [Dev.writeErr, ht, if_neg hsize, hclk, hf', hposted, hbusy, Bool.not_true, Bool.false_eq_true, Bool.and_self, if_false,
    if_true]

end

/-- An error that has a cause of Table 4.5 makes one log entry. -/
theorem Dev.refuseWrite_of_cause {d : Dev} {src : Source} {a c : Nat} {e : AccErr} (hc : e.cause = some c) :
    d.refuseWrite src a e = (d.logPush (d.accessEntry src a true c)).emit [.answer src (e.writeAnswer src)] := by
  rw [Dev.refuseWrite, hc]

/-- BUSY sets WDROP and is not logged (R101, Table 4.4). -/
theorem Dev.refuseWrite_of_busy {d : Dev} {src : Source} {a : Nat} {b : Blk} {peer : Bool} {f : Fld}
    (ht : target src a = some (b, peer)) (hf : b.wdrop = some f) :
    d.refuseWrite src a .busy = (d.setFld b f 1).emit [.answer src .dropped] := by
  simp only [Dev.refuseWrite, AccErr.cause, AccErr.writeAnswer, ht, hf]

/-- What the log keeps of a refused access (R109, Table 18.7). -/
theorem Dev.accessEntry_spec (d : Dev) (src : Source) (a c : Nat) (wr : Bool) :
    (d.accessEntry src a wr c).event = 1 ∧ (d.accessEntry src a wr c).addr = a ∧ (d.accessEntry src a wr c).cause = c ∧
      (d.accessEntry src a wr c).instNo = src.code ∧
      (d.accessEntry src a wr c).detail = a % 0x10000 / 0x4000 + bit wr * 4 + src.func * 8 := by
  unfold Dev.accessEntry
  cases target src a with
  | none => exact ⟨rfl, rfl, rfl, rfl, rfl⟩
  | some x => cases hvf : src.isVf <;> simp [Dev.entry, Ev.access]

/-! ### Writes -/

/-- A write that the device hears, and that is not of a VF's MSI-X table, meets its first error. -/
theorem Dev.writeAt_of_error {d : Dev} {w : WriteAccess} {e : AccErr} (hans : d.answers w.src = true)
    (hawake : (w.src.isHost && d.asleep) = false) (hfn : d.noSuchFn w.src = false)
    (htab : (w.src.isVf && decide (0x10000 ≤ w.addr ∧ w.addr < 0x20000)) = false) (he : d.writeErr w = some e) :
    d.writeAt w = d.refuseWrite w.src w.addr e := by
  simp only [Dev.writeAt, hans, hawake, hfn, htab, he, Bool.not_true, Bool.false_eq_true, if_false]

section
variable {s : State} {w : WriteAccess} {b : Blk} {t : Nat}

/-- A write in order is answered, and goes to its block as a control write (16 R387). -/
theorem Dev.writeAt_of_noError {d : Dev} (hans : d.answers w.src = true) (hawake : (w.src.isHost && d.asleep) = false)
    (hfn : d.noSuchFn w.src = false) (he : d.writeErr w = none) (ht : target w.src w.addr = some (b, false))
    (hlist : w.src.lists b (w.addr % 0x4000) = true) (hcopy : d.lostCopy w.src b (w.addr % 0x4000) = false) :
    d.writeAt w = ((d.wakeIdle b).emit [.answer w.src .done]).controlWrite (d.lodgePair w.src.lodge) b
      (fun d => d.acceptWrite w.src b (w.addr % 0x4000) (aliasOf w.addr) w.data) := by
  have htab := tableAccess_eq_false_of_target ht
  simp only [Dev.writeAt, hans, hawake, hfn, htab, he, ht, hlist, hcopy, Bool.not_true, Bool.not_false, Bool.and_self,
    Bool.false_eq_true, if_false, if_true]

/-- An accepted write reaches its block on the device as acceptance leaves it. -/
theorem Dev.writeAt_of_accepted (h : s.acceptsWrite w b) :
    (s.dev.touch t).writeAt w =
      (s.written t w.src b).acceptWrite w.src b (w.addr % 0x4000) (aliasOf w.addr) w.data := by
  obtain ⟨-, hr, ht, hw⟩ := State.acceptsWrite_split h
  obtain ⟨hawake, hans, hfn⟩ := State.reached_split hr
  obtain ⟨he, hlist, hcopy, hpair⟩ := State.writable_split hw
  rw [Dev.writeAt_of_noError (d := s.dev.touch t) hans hawake hfn he ht hlist hcopy]
  exact Dev.controlWrite_of_pairHeld (f := fun d => d.acceptWrite w.src b (w.addr % 0x4000) (aliasOf w.addr) w.data) hpair

theorem Dev.acceptWrite_of_not_posted {d : Dev} {src : Source} {o : Nat} {al : Alias} {data : Word} (h : b.posted = false) :
    d.acceptWrite src b o al data = d.regWritten src b o al data := by
  rw [Dev.acceptWrite, if_neg (Bool.eq_false_iff.mp h)]

theorem Dev.acceptWrite_of_posted {d : Dev} {src : Source} {o : Nat} {al : Alias} {data : Word} (h : b.posted = true) :
    d.acceptWrite src b o al data = { d with
      posted := Tbl.set (fun _ => none) d.posted b.base (some ⟨o, al.code, data, src⟩) } := by
  rw [Dev.acceptWrite, if_pos h]

theorem Dev.modWard_posted (d : Dev) (l : Nat) (f : WardSt → WardSt) : (d.modWard l f).posted = d.posted := rfl

theorem Dev.noteFirstWrite_posted (d : Dev) (l : Nat) : (d.noteFirstWrite l).posted = d.posted := by
  unfold Dev.noteFirstWrite
  split
  · rw [Dev.modWard_posted, Dev.setFld_posted]
  · rfl

theorem Dev.wakeIdle_posted (d : Dev) (b : Blk) : (d.wakeIdle b).posted = d.posted := by
  unfold Dev.wakeIdle
  split
  · exact Dev.setFld_posted ..
  · rfl

/-- Acceptance by itself posts nothing. -/
theorem State.written_posted (s : State) (t : Nat) (src : Source) (b : Blk) : (s.written t src b).posted = s.dev.posted := by
  unfold State.written
  dsimp only
  split
  · rw [Dev.noteFirstWrite_posted, Dev.emit_posted, Dev.wakeIdle_posted, Dev.touch_posted]
  · rw [Dev.emit_posted, Dev.wakeIdle_posted, Dev.touch_posted]

/-- REGISTER_WRITE at a block with power, which runs whether or not its reserved-live bits are altered (R100). -/
theorem exec_registerWrite_of_powered (h : s.dev.dark w.blk = false) :
    exec (.registerWrite t w) s = .next ⟨s.pending, (s.dev.touch t).writeAt w⟩ := by
  have h' : (s.dev.touch t).dark w.blk = false := h
  rw [exec_registerWrite, execRegisterWrite, State.go_eq, h', Bool.false_and, if_neg Bool.false_ne_true]

/-- REGISTER_WRITE of a write that its block accepts. -/
theorem exec_registerWrite_of_accepted (h : s.acceptsWrite w b) :
    exec (.registerWrite t w) s = .next ⟨s.pending,
      (s.written t w.src b).acceptWrite w.src b (w.addr % 0x4000) (aliasOf w.addr) w.data⟩ := by
  obtain ⟨hd, -, ht, -⟩ := State.acceptsWrite_split h
  rw [exec_registerWrite_of_powered (by rw [WriteAccess.blk_of_target ht]; exact hd), Dev.writeAt_of_accepted h]

end

/-! ### Blocks that IDLE stops -/

/-- They lie on dies, take writes at once, and have no register whose read has an effect (20 Table 20.1, Table 4.3, R93). -/
theorem Blk.idleStops_spec {b : Blk} (h : b.idleStops = true) :
    b.posted = false ∧ b.dieOf.isSome = true ∧ ∀ (d : Dev) (o : Nat), d.readEffect b o = d := by
  cases b with
  | plot | rill | sieve | mower | shed | gh => exact ⟨rfl, rfl, fun _ _ => rfl⟩
  | _ => cases h

theorem Dev.wakeIdle_of_idle {d : Dev} {b : Blk} (hb : b.idleStops = true) (hp : d.powerState = 1) :
    d.wakeIdle b = d.setPower 0 := by
  rw [Dev.wakeIdle, if_pos ⟨hp, hb⟩, Dev.setPower]

theorem Dev.wakeIdle_of_running {d : Dev} {b : Blk} (hb : b.idleStops = false) : d.wakeIdle b = d := by
  rw [Dev.wakeIdle, if_neg (fun h => Bool.false_ne_true (hb.symm.trans h.2))]

/-! ### Reads -/

/-- A read within one register, in order and not of a VF, answers the register's bytes, with the side effect of the read. -/
theorem Dev.readAt_of_register {d : Dev} {src : Source} {a size : Nat} {b : Blk} {peer : Bool} (hans : d.answers src = true)
    (hawake : (src.isHost && d.asleep) = false) (hfn : d.noSuchFn src = false) (hvf : src.isVf = false) (hsize : size ≠ 8)
    (he : d.readErr src a size = none) (ht : target src a = some (b, peer)) :
    d.readAt src a size = ((d.wakeIdle b).readEffect b (a % 0x4000 / 4 * 4)).emit
      [.answer src (.value (readPart (d.readReg b (a % 0x4000 / 4 * 4)).toNat a size))] := by
  have h8 : (src.isHost && size == 8) = false := by rw [beq_eq_false_iff_ne.mpr hsize, Bool.and_false]
  simp only [Dev.readAt, hans, hawake, hfn, hvf, he, ht, h8, Dev.readFor, Bool.not_true, Bool.not_false, Bool.false_and,
    Bool.false_eq_true, if_false, if_true]

/-- A register read whole. -/
theorem readPart_word (w : Word) {a : Nat} (ha : a % 4 = 0) : readPart w.toNat a 4 = w.toNat := by
  rw [readPart, ha, Nat.mul_zero, pow_zero, Nat.div_one]
  exact Nat.mod_eq_of_lt w.isLt

/-- A read of 4 bytes as a command, of an offset past a VF's register block. -/
theorem State.read_of_accepted {s : State} {t : Nat} {src : Source} {b : Blk} {a : Nat} (h : s.acceptsRead src b a)
    (ha : 0x10000 ≤ a) (h4 : a % 4 = 0) :
    s.read t src b a = .next ⟨s.pending, (((s.dev.touch t).wakeIdle b).readEffect b (a % 0x4000 / 4 * 4)).emit
      [.answer src (.value ((s.dev.touch t).readReg b (a % 0x4000 / 4 * 4)).toNat)]⟩ := by
  obtain ⟨hlive, hr, ht, he⟩ := State.acceptsRead_split h
  obtain ⟨hawake, hans, hfn⟩ := State.reached_split hr
  rw [State.read, if_neg (Bool.eq_false_iff.mp hawake), State.run_of_live hlive,
    Dev.readAt_of_register (d := s.dev.touch t) hans hawake hfn (isVf_eq_false_of_target ht ha) (by omega) he ht,
    readPart_word _ h4]

end Machine
end Sys2Proof
end

section
/-! PROOFS. Register writes: when they take effect, what each of their aliases leaves in every bit, and which error refuses them
(04 R98 to R101, R108, R109). -/
namespace Sys2Proof
namespace Machine

theorem exec_postedWriteApply (t : Nat) (b : Blk) (s : State) :
    exec (.postedWriteApply t b) s = execPostedWriteApply t b s := rfl

/-- Settles O1: an accepted write by `exec_registerWrite_of_accepted`, at once or posted as `acceptWrite` has it. -/
theorem registerWritesComplete : Obligations.RegisterWritesComplete := by
  unfold Obligations.RegisterWritesComplete
  refine ⟨?atOnce, ?held, ?applied⟩
  case atOnce =>
    intro s t w b hacc hposted
    rw [exec_registerWrite_of_accepted hacc, Dev.acceptWrite_of_not_posted hposted]
  case held =>
    intro s t w b hacc hposted
    rw [exec_registerWrite_of_accepted hacc, Dev.acceptWrite_of_posted hposted, State.written_posted]
  case applied =>
    intro s t b p hp
    have hp' : Tbl.get (fun _ => none) (s.dev.touch t).posted b.base = some p := hp
    rw [exec_postedWriteApply, execPostedWriteApply, State.go_eq, hp', Dev.touch_posted]

/-! ### Aliases, bit by bit (Tables 4.1, 4.2) -/

section
variable (b : Blk) (o : Nat) (data old : Word) {i : Nat}

theorem getLsbD_ofNat_word (m : Nat) (hi : i < 32) : (BitVec.ofNat 32 m).getLsbD i = m.testBit i := by
  rw [BitVec.getLsbD_ofNat, decide_eq_true hi, Bool.true_and]

theorem writeMerge_base_bit (hi : i < 32) : (writeMerge b o .base data old).getLsbD i =
    (if (b.storedMask o).testBit i then data.getLsbD i
      else if (b.w1cMask o).testBit i && data.getLsbD i then false else old.getLsbD i) := by
  simp only [writeMerge, BitVec.getLsbD_or, BitVec.getLsbD_and, BitVec.getLsbD_not, getLsbD_ofNat_word _ hi, hi, decide_true,
    Bool.true_and]
  cases (b.storedMask o).testBit i <;> cases (b.w1cMask o).testBit i <;> cases data.getLsbD i <;> simp

theorem writeMerge_set_bit (hi : i < 32) : (writeMerge b o .set data old).getLsbD i =
    (if (b.storedMask o).testBit i && data.getLsbD i then true else old.getLsbD i) := by
  simp only [writeMerge, BitVec.getLsbD_or, BitVec.getLsbD_and, getLsbD_ofNat_word _ hi]
  cases (b.storedMask o).testBit i <;> cases data.getLsbD i <;> simp

theorem writeMerge_clr_bit (hi : i < 32) : (writeMerge b o .clr data old).getLsbD i =
    (if ((b.storedMask o).testBit i || (b.w1cMask o).testBit i) && data.getLsbD i then false else old.getLsbD i) := by
  simp only [writeMerge, BitVec.getLsbD_or, BitVec.getLsbD_and, BitVec.getLsbD_not, getLsbD_ofNat_word _ hi, hi, decide_true,
    Bool.true_and]
  cases (b.storedMask o).testBit i || (b.w1cMask o).testBit i <;> cases data.getLsbD i <;> simp

theorem writeMerge_tog_bit (hi : i < 32) : (writeMerge b o .tog data old).getLsbD i =
    (if (b.storedMask o).testBit i && data.getLsbD i then !old.getLsbD i else old.getLsbD i) := by
  simp only [writeMerge, BitVec.getLsbD_xor, BitVec.getLsbD_and, getLsbD_ofNat_word _ hi]
  cases (b.storedMask o).testBit i <;> cases data.getLsbD i <;> simp

theorem writeCmd_base_bit (hi : i < 32) :
    (writeCmd b o .base data).getLsbD i = ((b.cmdMask o).testBit i && data.getLsbD i) := by
  rw [writeCmd, BitVec.getLsbD_and, getLsbD_ofNat_word _ hi, Bool.and_comm]

end

/-- Settles O2: aliases by the bits that `writeMerge` leaves, commands by `writeCmd`. -/
theorem aliasesFollowTable42 : Obligations.AliasesFollowTable42 := by
  unfold Obligations.AliasesFollowTable42
  intro b o data old i hi
  exact ⟨writeMerge_base_bit b o data old hi, writeMerge_set_bit b o data old hi, writeMerge_clr_bit b o data old hi,
    writeMerge_tog_bit b o data old hi, writeCmd_base_bit b o data hi, rfl, rfl, rfl⟩

/-! ### Refused writes (Table 4.4) -/

/-- Settles O54: each row of Table 4.4 by the error that `writeErr` finds first. -/
theorem earliestWriteErrorDecides : Obligations.EarliestWriteErrorDecides := by
  unfold Obligations.EarliestWriteErrorDecides
  refine ⟨?refused, ?entry⟩
  case refused =>
    intro s t w hpowered hawake hans hfn htab d answer logged badSize
    have hrefused (e : AccErr) (he : s.dev.writeErr w = some e) :
        exec (.registerWrite t w) s = .next ⟨s.pending, d.refuseWrite w.src w.addr e⟩ := by
      rw [exec_registerWrite_of_powered hpowered]
      exact congrArg (fun x => Host.Outcome.next (State.mk s.pending x)) (Dev.writeAt_of_error hans hawake hfn htab he)
    have hlogged (e : AccErr) (c : Nat) (hc : e.cause = some c) (he : s.dev.writeErr w = some e) :
        exec (.registerWrite t w) s = .next ⟨s.pending, logged c⟩ := by
      have hanswer : e.writeAnswer w.src = answer := by
        cases e with
        | busy => cases hc
        | _ => cases hsrc : w.src <;> simp only [answer, hsrc] <;> rfl
      rw [hrefused e he, Dev.refuseWrite_of_cause hc, hanswer]
    refine ⟨fun ht => hlogged .unmapped 1 rfl (Dev.writeErr_of_unmapped ht), fun b peer ht => ⟨?_, ?_, ?_, ?_⟩⟩
    · exact fun hsize => hlogged .size 2 rfl (Dev.writeErr_of_size ht hsize)
    · exact fun hsize hclk => hlogged .gated 4 rfl (Dev.writeErr_of_gated ht hsize hclk)
    · exact fun hsize hclk hf => hlogged .fenced 5 rfl (Dev.writeErr_of_fenced ht hsize hclk hf)
    · intro hsize hclk hf hposted hbusy f hwdrop
      rw [hrefused .busy (Dev.writeErr_of_busy ht hsize hclk hf hposted hbusy), Dev.refuseWrite_of_busy ht hwdrop]
  case entry =>
    intro d src a c wr
    obtain ⟨hev, haddr, hcause, hinst, hdetail⟩ := d.accessEntry_spec src a c wr
    refine ⟨hev, haddr, hcause, hinst, hdetail.trans ?_⟩
    cases wr <;> rfl

end Machine
end Sys2Proof
end

section
/-! PROOFS. Reads with effects, and accesses to blocks that IDLE has stopped (04 R93, 20 R444). -/
namespace Sys2Proof
namespace Machine

theorem exec_chimeCountLoRead (t : Nat) (src : Source) (s : State) :
    exec (.chimeCountLoRead t src) s = execChimeCountLoRead t src s := rfl
theorem exec_powerMeasRead (t : Nat) (src : Source) (s : State) :
    exec (.powerMeasRead t src) s = execPowerMeasRead t src s := rfl
theorem exec_idleBlockAccess (t : Nat) (write : Bool) (w : WriteAccess) (s : State) :
    exec (.idleBlockAccess t write w) s = execIdleBlockAccess t write w s := rfl

theorem exec_idleBlockAccess_of_idle {s : State} {t : Nat} {write : Bool} {w : WriteAccess} {b : Blk} {p : Bool}
    (ht : target w.src w.addr = some (b, p)) (hlive : s.live b) (hb : b.idleStops = true) (hp : s.dev.powerState = 1) :
    exec (.idleBlockAccess t write w) s = .next ⟨s.pending,
      if write then (s.dev.touch t).writeAt w else (s.dev.touch t).readAt w.src w.addr w.size⟩ := by
  rw [exec_idleBlockAccess, execIdleBlockAccess, WriteAccess.blk_of_target ht, State.run_of_live hlive, if_pos ⟨hp, hb⟩]

/-- An accepted write to a block that IDLE has stopped first makes the device ACTIVE; the block lies on a die. -/
theorem State.written_of_idle {s : State} {t : Nat} {src : Source} {b : Blk} (hb : b.idleStops = true)
    (hp : s.dev.powerState = 1) :
    s.written t src b = ((((s.dev.touch t).setPower 0).emit [.answer src .done]).noteFirstWrite src.lodge) := by
  obtain ⟨-, hdie, -⟩ := Blk.idleStops_spec hb
  rw [State.written, Dev.wakeIdle_of_idle hb (d := s.dev.touch t) hp, if_pos hdie]

theorem Dev.readReg_chimeCountLo (d : Dev) : (d.readReg .chime 0xC).toNat = d.chime.count.toNat % 2 ^ 32 := by
  rw [Dev.readReg, if_neg (by decide), if_neg (fun h => absurd h.1 (by decide))]
  exact BitVec.toNat_setWidth 32 d.chime.count

theorem Dev.readReg_powerMeas (d : Dev) : d.readReg .power 0x10 = d.word .power 0x10 := by
  rw [Dev.readReg, if_neg (by decide), if_neg (fun h => absurd h.1 (by decide))]
  rfl

/-- Settles O3: the two registers by what they read as, an IDLE device by `wakeIdle_of_idle`. -/
theorem readsComplete : Obligations.ReadsComplete := by
  unfold Obligations.ReadsComplete
  refine ⟨?chime, ?power, ?idleRead, ?idleWrite⟩
  case chime =>
    intro s t src hacc
    rw [exec_chimeCountLoRead, execChimeCountLoRead, State.read_of_accepted hacc (by decide) (by decide),
      Dev.wakeIdle_of_running rfl]
    exact congrArg (fun v => Host.Outcome.next (State.mk s.pending (Dev.emit _ [.answer src (.value v)])))
      (s.dev.touch t).readReg_chimeCountLo
  case power =>
    intro s t src hacc
    rw [exec_powerMeasRead, execPowerMeasRead, State.read_of_accepted hacc (by decide) (by decide),
      Dev.wakeIdle_of_running rfl]
    exact congrArg (fun v => Host.Outcome.next (State.mk s.pending (Dev.emit _ [.answer src (.value v.toNat)])))
      (s.dev.touch t).readReg_powerMeas
  case idleRead =>
    intro s t w b hlive hr hvf hsize he ht hb hp
    obtain ⟨hawake, hans, hfn⟩ := State.reached_split hr
    obtain ⟨-, -, hread⟩ := Blk.idleStops_spec hb
    rw [exec_idleBlockAccess_of_idle ht hlive hb hp, if_neg Bool.false_ne_true,
      Dev.readAt_of_register (d := s.dev.touch t) hans hawake hfn hvf hsize he ht, hread,
      Dev.wakeIdle_of_idle hb (d := s.dev.touch t) hp]
  case idleWrite =>
    intro s t w b hacc halt hb hp
    obtain ⟨hpowered, -, ht, -⟩ := State.acceptsWrite_split hacc
    obtain ⟨hposted, -, -⟩ := Blk.idleStops_spec hb
    have hlive : s.live b := by simp [State.live, halt, hpowered]
    rw [exec_idleBlockAccess_of_idle ht hlive hb hp, if_pos rfl, Dev.writeAt_of_accepted hacc,
      Dev.acceptWrite_of_not_posted hposted, State.written_of_idle hb hp]

end Machine
end Sys2Proof
end

section
/-! PROOFS. Fence, yield, resync and control writes to dies (04 R92, R102, R107, 16 R384, R387, R388, R391, R392). -/
namespace Sys2Proof
namespace Machine

theorem exec_wardenFence (t l : Nat) (s : State) : exec (.wardenFence t l) s = execWardenFence t l s := rfl
theorem exec_wardenYield (t : Nat) (src : Source) (s : State) : exec (.wardenYield t src) s = execWardenYield t src s := rfl
theorem exec_wardenResync (t : Nat) (src : Source) (s : State) : exec (.wardenResync t src) s = execWardenResync t src s := rfl
theorem exec_dieControlWrite (t l e : Nat) (w : WriteAccess) (s : State) :
    exec (.dieControlWrite t l e w) s = execDieControlWrite t l e w s := rfl

theorem otherLodge_of_lt {l : Nat} (h : l < 2) : otherLodge l = 1 - l := by
  rw [otherLodge, Nat.mod_eq_of_lt h]

/-! ### WARDEN_CTL (16 Table 16.3) -/

theorem Dev.wardenCtlWritten_yield (d : Dev) (l : Nat) (new : Word) :
    d.wardenCtlWritten l new 1#32 = (d.setWord (.warden l) 0x0 new).yieldRole l := by
  have hcmd : bitsOf (1#32).toNat 3 0 = 1 := by decide
  simp only [Dev.wardenCtlWritten, hcmd]

theorem Dev.wardenCtlWritten_resync (d : Dev) (l : Nat) (new : Word) :
    d.wardenCtlWritten l new 2#32 = (d.setWord (.warden l) 0x0 new).commandResync l := by
  have hcmd : bitsOf (2#32).toNat 3 0 = 2 := by decide
  simp only [Dev.wardenCtlWritten, hcmd]

/-! ### Control writes to dies -/

section
variable {s : State} {t l e k : Nat} {w : WriteAccess} {b : Blk}

/-- What a control write of the pair (`e`, `l`) does at its die's block `b` once neither size nor clock refuses it: judged by its
pair, then by BUSY, then accepted; a hole ignores it (04 R92, R102, 16 R387). -/
def Dev.dieWritten (d : Dev) (e l k : Nat) (w : WriteAccess) (b : Blk) : Dev :=
  let d1 := d.wakeIdle b
  let d2 := d1.noteFirstWrite l
  if d1.diePair k ≠ (e, l) then d1.refuseStale k l
  else if b.posted = true ∧ d2.isBusy b = true then d2.refuseWrite w.src w.addr .busy
  else if b.listed (w.addr % 0x4000) then d2.acceptWrite w.src b (w.addr % 0x4000) (aliasOf w.addr) w.data
  else d2

/-- The control write that DIE_CONTROL_WRITE makes is `dieWritten`. -/
theorem Dev.controlWrite_eq_dieWritten (d : Dev) (hk : b.dieOf = some k) :
    (d.wakeIdle b).controlWrite (e, l) b (fun d =>
      if b.posted && d.isBusy b then d.refuseWrite w.src w.addr .busy
      else if b.listed (w.addr % 0x4000) then d.acceptWrite w.src b (w.addr % 0x4000) (aliasOf w.addr) w.data
      else d) = d.dieWritten e l k w b := by
  simp only [Dev.controlWrite, hk, Dev.dieWritten, ite_not, Bool.and_eq_true]

/-- DIE_CONTROL_WRITE: an error of size or of a gated block comes first, and no other error of Table 4.4 counts (04 R92, R107). -/
theorem exec_dieControlWrite_of_die (hl : l < 2) (ht : target w.src w.addr = some (b, false)) (hvf : w.src.isVf = false)
    (hk : b.dieOf = some k) (hlive : s.live b) :
    exec (.dieControlWrite t l e w) s = .next ⟨s.pending,
      if (s.dev.touch t).writeErr w = some .size then (s.dev.touch t).refuseWrite w.src w.addr .size
      else if (s.dev.touch t).writeErr w = some .gated then (s.dev.touch t).refuseWrite w.src w.addr .gated
      else (s.dev.touch t).dieWritten e l k w b⟩ := by
  have hguard : (b.dieOf.isNone || (target w.src w.addr).isNone || w.src.isVf) = false := by rw [hk, ht, hvf]; rfl
  rw [exec_dieControlWrite, execDieControlWrite, WriteAccess.blk_of_target ht, State.run_of_live hlive]
  dsimp only
  rw [hguard, if_neg Bool.false_ne_true, Nat.mod_eq_of_lt hl, Dev.controlWrite_eq_dieWritten _ hk]
  cases (s.dev.touch t).writeErr w with
  | none => rfl
  | some err => cases err <;> rfl

end

/-- Settles O40: a fence by its pair, YIELD and RESYNC through WARDEN_CTL, a control write by `exec_dieControlWrite_of_die`. -/
theorem wardensComplete : Obligations.WardensComplete := by
  unfold Obligations.WardensComplete
  refine ⟨?fence, ?commands, ?control⟩
  case fence =>
    intro s t l p hl hlive hlost hrole
    have hlost' : (s.dev.touch t).lostTo l = some p := hlost
    have hrole' : (s.dev.touch t).role l = 1 := hrole
    rw [exec_wardenFence, execWardenFence, Nat.mod_eq_of_lt hl, State.run_of_live hlive]
    dsimp only
    rw [hlost']
    dsimp only
    rw [if_pos hrole']
  case commands =>
    intro s t src hl hacc
    refine ⟨?_, ?_⟩
    · rw [exec_wardenYield, execWardenYield, State.access_accepted hacc, Dev.wardenCtlWritten_yield, Dev.yieldRole,
        otherLodge_of_lt hl]
    · rw [exec_wardenResync, execWardenResync, State.access_accepted hacc, Dev.wardenCtlWritten_resync, Dev.commandResync,
        otherLodge_of_lt hl]
  case control =>
    intro s t l e k w b hl ht hvf hk hlive
    exact exec_dieControlWrite_of_die hl ht hvf hk hlive

end Machine
end Sys2Proof
end

section
/-! PROOFS. How commands end: with a next state, or stopped by an altered block (04 R100); in OFF and in DORMANT only POWER and
SECURITY run (20 Table 20.1). -/
namespace Sys2Proof
namespace Machine

/-- The outcome is a next state with the queue as it was, or the stop on a block whose reserved-live bits are altered (04 R100). -/
def State.NextOrStop (s : State) (r : Host.Outcome State Fault Refusal) : Prop :=
  (∃ d : Dev, r = .next ⟨s.pending, d⟩) ∨ (r = .fault .reservedLive ∧ ∃ b : Blk, s.dev.altered b = true)

/-! ### Each form that a command has -/

section
variable (s : State) (t : Nat) (b : Blk) (src : Source) (f : Dev → Dev)

theorem State.go_nextOrStop : s.NextOrStop (s.go t f) := .inl ⟨_, State.go_eq⟩

theorem State.run_nextOrStop : s.NextOrStop (s.run t b f) := by
  rcases State.run_cases (s := s) (t := t) (b := b) (f := f) with ⟨ha, h⟩ | h | h
  · exact .inr ⟨h, b, ha⟩
  · exact .inl ⟨_, h⟩
  · exact .inl ⟨_, h⟩

theorem State.runPlot_nextOrStop (die plot : Nat) : s.NextOrStop (s.runPlot t die plot f) := s.run_nextOrStop ..

theorem State.access_nextOrStop : s.NextOrStop (s.access t src b f) := by
  rcases State.access_cases (s := s) (t := t) (src := src) (b := b) (f := f) with ⟨ha, h⟩ | h | h | h
  · exact .inr ⟨h, b, ha⟩
  · exact .inl ⟨_, h⟩
  · exact .inl ⟨_, h⟩
  · exact .inl ⟨_, h⟩

theorem State.read_nextOrStop (a : Nat) : s.NextOrStop (s.read t src b a) := by
  unfold State.read
  split
  · exact s.go_nextOrStop ..
  · exact s.run_nextOrStop ..

theorem State.doorbell_nextOrStop (sq : Bool) (port fn page value : Nat) :
    s.NextOrStop (s.doorbell t sq port fn page value) := by
  unfold State.doorbell
  split
  · exact s.go_nextOrStop ..
  · exact s.run_nextOrStop ..

theorem State.gateBy_nextOrStop (by_ : GateBy) (g cmd : Nat) : s.NextOrStop (s.gateBy t by_ g cmd) := by
  unfold State.gateBy
  cases by_ with
  | item => exact s.run_nextOrStop ..
  | reg => exact s.access_nextOrStop ..

end

/-! ### Every command -/

theorem execPageRequestResponse_nextOrStop (t : Nat) (req : Requester) (success : Bool) (s : State) :
    s.NextOrStop (execPageRequestResponse t req success s) := by
  unfold execPageRequestResponse
  cases req <;> exact s.run_nextOrStop ..

theorem execPcieCompletionReceive_nextOrStop (t : Nat) (req : Requester) (st : CplStatus) (bytes : List Byte) (ep : Bool)
    (s : State) : s.NextOrStop (execPcieCompletionReceive t req st bytes ep s) := by
  unfold execPcieCompletionReceive
  cases req <;> exact s.run_nextOrStop ..

/-- Every command has one of the forms above: an event of the outside (`go`), of a block (`run`), or an access. -/
theorem exec_nextOrStop (c : Instr) (s : State) : s.NextOrStop (exec c s) := by
  unfold exec
  cases c with
  | registerWrite | postedWriteApply | ceRewrite | configRequest | bar4Access | vfEnable | functionLevelReset | perst
  | intOscLoss | clkenApply | controlStateMismatch | emergencyStop | thermTripInput | vin48Fault | regulatorFault | vauxLoss
  | pwrgdFall | vauxApply => exact s.go_nextOrStop ..
  | idleBlockAccess | chime | closingPoint | markerEmit | markerReceive | markerMiss | chimeInEdge | chimeInMiss
  | heldItemIssue | trellisLoadDone | replantArmed | replantDrainEnd | replantConfigEnd | transposeBlockEmit
  | benchAccessIssue | latticeBenchRequest | benchRequestResend | glasshouseRequest | hbmRequest | rillDescStart
  | barrowClaim | barrowPost | barrowTake | barrowRelease | rillFault | cancelDone | sieveIssue | sieveStart | sieveRetire
  | trayClearDone | mowerIssue | mowerNorm | mowerUpdate | mowerCopy | mowerRetire | trugIssue | trugStart
  | trugPacketReceive | trugInstanceClose | linkTrainDone | flitTransmit | dataFlitReceive | linkFlitReceive | replayTimeout
  | gateWrite | gateWriteAck | gateWriteNack | gateCmdComplete | wadvance | barrier | barrierTokenReceive | sackReceive
  | tokenRetransmit | commandFetch | hostNop | hostCopy | hostBedRun | hostTrellis | hostWaitChime | hostWaitWindows
  | hostFirmware | completionWrite | heartbeatSend | heartbeatReceive | echoRecord | resyncDone | heartbeatTimeout
  | election | claimReceive | claimAnswer | claimResolve | claimRepeat | dieControlWrite | wardenFence | oscWaitEnd
  | sundialWindow | pllLockDone | switchPhaseEnd | rampStep | scrubRead | pwrgdRise | hbmAttemptEnd | advanceCtrDone
  | spdmRequest | dormantEntryDone | powerWake | wakeTimer | dormantExitDone | wardTick | thermalRead | startStepEnd
  | linkTrainFail | keeperWatchdog | chimeOutFall => exact s.run_nextOrStop ..
  | chimeEnableSet | chimeEnableClear | chimeSourceChange | chimePeriodWrite | bedRunSet | bedRunClear | trellisLoad
  | trellisReplant | trellisAbort | preempt | resume | retest | furrowReset | furCfgWrite | rillResume | rillFail | rillCancel
  | inval | trayClear | sieveTrayWrite | mowerAdopt | mowerDiscard | mowerMirrorWrite | trugPurge | groupValidate | linkEnable
  | portRetrain | portDown | portClear | gateLoad | gateUnload | qctxRead | qctxWrite | qctxAbortAll | qctxReset
  | queueBedVecWrite | wardenYield | wardenResync | clkSelect | frostClear | clkenWrite | faultPop | faultClear | advanceCtr
  | hintWrite | powerActive | powerIdle | powerDormant => exact s.access_nextOrStop ..
  | passIssue | stationaryLoad | stationaryLoadDone | passStart | movingVectorArrive | passRetire | passAbandon | retestEnd
  | preemptBoundary | accSpillDone | accRestoreDone => exact s.runPlot_nextOrStop ..
  | chimeCountLoRead | powerMeasRead => exact s.read_nextOrStop ..
  | sqTailDoorbell | cqHeadDoorbell => exact s.doorbell_nextOrStop ..
  | gateOpen | gateLatch | gateAdvance => exact s.gateBy_nextOrStop ..
  | pageRequestResponse => exact execPageRequestResponse_nextOrStop ..
  | pcieCompletionReceive => exact execPcieCompletionReceive_nextOrStop ..

/-- Where no block is altered, a command does not stop. -/
theorem exec_next_of_safe {s : State} (hsafe : s.safe) (c : Instr) : ∃ d : Dev, exec c s = .next ⟨s.pending, d⟩ := by
  rcases exec_nextOrStop c s with h | ⟨-, b, hb⟩
  · exact h
  · exact absurd hb (Bool.eq_false_iff.mp (hsafe b))

/-! ### OFF and DORMANT (20 Table 20.1) -/

/-- The blocks that run without the supplies of OFF and DORMANT. -/
def Blk.runsInOff : Blk → Bool
  | .power | .security _ => true
  | _ => false

theorem Dev.dark_of_off {d : Dev} {b : Blk} (hp : d.powerState = 2 ∨ d.powerState = 5) (hb : b.runsInOff = false) :
    d.dark b = true := by
  have hoff : (d.powerState == 5 || d.powerState == 2) = true := by simpa [or_comm] using hp
  cases b with
  | power | security => cases hb
  | _ => simp only [Dev.dark, hoff, Bool.and_self, Bool.or_true]

/-- An event of a block that lies dark changes nothing but the time. -/
theorem State.run_of_off {s : State} {t : Nat} {b : Blk} {f : Dev → Dev} (hsafe : s.safe)
    (hp : s.dev.powerState = 2 ∨ s.dev.powerState = 5) (hb : b.runsInOff = false) :
    s.run t b f = .next ⟨s.pending, s.dev.touch t⟩ :=
  State.run_of_dark (hsafe b) (Dev.dark_of_off hp hb)

theorem State.runPlot_of_off {s : State} {t die plot : Nat} {f : Dev → Dev} (hsafe : s.safe)
    (hp : s.dev.powerState = 2 ∨ s.dev.powerState = 5) : s.runPlot t die plot f = .next ⟨s.pending, s.dev.touch t⟩ :=
  State.run_of_off hsafe hp rfl

/-- Settles O51: each command by its form, and the events of OFF and DORMANT by their blocks, none of which runs there. -/
theorem commandsStopOnlyOnAlteredBlocks : Obligations.CommandsStopOnlyOnAlteredBlocks := by
  unfold Obligations.CommandsStopOnlyOnAlteredBlocks
  refine ⟨exec_nextOrStop, fun c s hsafe => exec_next_of_safe hsafe c, ?off⟩
  case off =>
    intro s t hsafe hp c hc
    unfold exec
    rcases hc with rfl | rfl | rfl | rfl | ⟨die, kind, unit, rfl⟩ | ⟨die, plot, hpass⟩ | ⟨die, e, rfl | rfl | rfl⟩ |
      ⟨die, rfl⟩ | ⟨bed, rfl | rfl⟩ | ⟨port, rfl | rfl⟩
    pick_goal 6
    · rcases hpass with rfl | rfl | rfl <;> exact State.runPlot_of_off hsafe hp
    all_goals exact State.run_of_off hsafe hp rfl

end Machine
end Sys2Proof
end

section
/-! SUPPORT. How a command of a plot runs, and what a pass's bed gives it (07 R171, R181). -/
namespace Sys2Proof
namespace Machine

/-- A command of a plot acts once the plot's cycle counters have counted up to its instant. -/
theorem State.runPlot_of_live {s : State} {t die plot : Nat} {d : Dev} {f : Dev → Dev} (hlive : s.live (.plot die plot))
    (hd : (s.dev.touch t).settle die plot = d) : s.runPlot t die plot f = .next ⟨s.pending, f d⟩ := by
  rw [State.runPlot, State.run_of_live hlive, hd]

/-- An accepted command of PLOT_CTL has its effect on the device as acceptance leaves it. -/
theorem State.plotCmd_accepted {s : State} {t die plot : Nat} {src : Source} {f : Dev → Dev}
    (h : s.accepts src (.plot die plot) 0x0) :
    s.access t src (.plot die plot) (fun d => d.cmdRow src (.plot die plot) 0x0 f) =
      .next ⟨s.pending, f (s.written t src (.plot die plot))⟩ := State.access_accepted h

theorem Dev.passCfg_of_bed {d : Dev} {x : Pass} {b : Bed} (h : d.bed x.bed = some b) : d.passCfg x = some b.cfg := by
  rw [Dev.passCfg, h, Option.map_some]

end Machine
end Sys2Proof
end

section
/-! PROOFS. A plot takes its PASS items and loads their tiles (07 R175, R177, R181, R182). -/
namespace Sys2Proof
namespace Machine

theorem exec_passIssue (t die plot : Nat) (s : State) : exec (.passIssue t die plot) s = execPassIssue t die plot s := rfl
theorem exec_stationaryLoad (t die plot : Nat) (s : State) :
    exec (.stationaryLoad t die plot) s = execStationaryLoad t die plot s := rfl
theorem exec_stationaryLoadDone (t die plot : Nat) (s : State) :
    exec (.stationaryLoadDone t die plot) s = execStationaryLoadDone t die plot s := rfl

section
variable {s : State} {t die plot : Nat} (hlive : s.live (.plot die plot)) {d : Dev} (hd : (s.dev.touch t).settle die plot = d)
include hlive hd

/-- R175, R177: the tile of the next LOAD = 1 pass, not read before, is loaded from the range that its request claims. -/
theorem exec_stationaryLoad_of_claim {x : Pass} {c : BedCfg} {a : BenchAccess} {base : Nat}
    (hstate : d.fld (.plot die plot) Reg.PLOT_STS.STATE ≠ 4) (hfree : (d.plot die plot).shadowFree coreCycle d.now = true)
    (hx : (d.plot die plot).passes.find? (fun x => x.loads && x.stage == .accepted) = some x) (hbase : x.sBase = none)
    (hc : d.passCfg x = some c) (ha : d.passAccess die plot x.fields.furS false (x.fields.tileBytes c.exact) = some a)
    (hclaim : (d.request a).2 = some base) :
    exec (.stationaryLoad t die plot) s = .next ⟨s.pending, (d.request a).1.beginLoad die plot x c.exact base⟩ := by
  rw [exec_stationaryLoad, execStationaryLoad, State.runPlot_of_live hlive hd]
  simp only [hx, hstate, hfree, decide_false, Bool.not_true, Bool.or_self, Bool.false_eq_true, if_false, hc,
    Option.elim_some, hbase, ha, hclaim]

/-- R175: the tile that was being read stands in the shadow bank; a load of the plot's own bench waited for no link. -/
theorem exec_stationaryLoadDone_of_loading {x : Pass} {c : BedCfg} {rd rp rf rb rn : Nat}
    (hx : (d.plot die plot).passes.find? (fun x => x.stage == .loading) = some x) (hc : d.passCfg x = some c)
    (hr : d.tileRange die plot x c.exact = some (rd, rp, rf, rb, rn)) (hlink : x.linkMark = none) :
    exec (.stationaryLoadDone t die plot) s = .next ⟨s.pending,
      ((((d.noteWords x.bed (d.furWords rd rp rf rb rn)).modPass die plot x.seq (fun y => { y with stage := .ready })).modPlot
        die plot (fun p => { p with shadowTile := d.furLanes rd rp rf rb rn })).setFld (.plot die plot)
          Reg.PLOT_STS.SHADOW_VALID 1).countSat (.plot die plot) Reg.PLOT_NBR_WAIT.CYCLES 0⟩ := by
  rw [exec_stationaryLoadDone, execStationaryLoadDone, State.runPlot_of_live hlive hd]
  simp only [hx, hc, Option.elim_some, hr, hlink]

end

/-- Settles O10: an item by the code of its first failing check, a load by `exec_stationaryLoad_of_claim`, its end by
`exec_stationaryLoadDone_of_loading`. -/
theorem passesIssueAndLoad : Obligations.PassesIssueAndLoad := by
  unfold Obligations.PassesIssueAndLoad
  refine ⟨?issue, ?load, ?done⟩
  case issue =>
    intro s t die plot L i b hlive d hL hi hb c code
    rw [exec_passIssue, execPassIssue, State.runPlot_of_live hlive (d := d) rfl, hL, Option.bind_some, hi]
    dsimp only
    rw [hb]
    by_cases hcode : code = 0
    · rw [if_pos hcode]
      exact congrArg _ (congrArg _ (if_neg (not_not_intro hcode)))
    · rw [if_neg hcode]
      exact congrArg _ (congrArg _ (if_pos hcode))
  case load =>
    intro s t die plot base x c a hlive d hstate hfree hx hbase hc ha hclaim
    exact exec_stationaryLoad_of_claim hlive rfl hstate hfree hx hbase hc ha hclaim
  case done =>
    intro s t die plot rd rp rf rb rn x c hlive d hx hc hr hlink
    exact exec_stationaryLoadDone_of_loading hlive rfl hx hc hr hlink

end Machine
end Sys2Proof
end

section
/-! PROOFS. Passes start, take their vectors and retire (07 R171 to R176, R210). -/
namespace Sys2Proof
namespace Machine

theorem exec_passStart (t die plot : Nat) (s : State) : exec (.passStart t die plot) s = execPassStart t die plot s := rfl
theorem exec_movingVectorArrive (t die plot : Nat) (s : State) :
    exec (.movingVectorArrive t die plot) s = execMovingVectorArrive t die plot s := rfl
theorem exec_passRetire (t die plot : Nat) (s : State) : exec (.passRetire t die plot) s = execPassRetire t die plot s := rfl

/-- R183, R184: PREEMPTING holds up every start but that of a replay; IDLE and RUN hold up none. -/
theorem startHeld_eq_false {st : Nat} {replay : Bool} (h : st < 2 ∨ st = 2 ∧ replay = true) :
    (decide (3 ≤ st) || (st == 2 && !replay)) = false := by
  rcases h with h | ⟨rfl, rfl⟩
  · simp [show ¬ 3 ≤ st by omega, show st ≠ 2 by omega]
  · rfl

section
variable {s : State} {t die plot : Nat} (hlive : s.live (.plot die plot)) {d : Dev} (hd : (s.dev.touch t).settle die plot = d)
  {x : Pass} {c : BedCfg}
include hlive hd

/-- R171, R175, R176: a pass that nothing holds up claims its barrow slot and its output range, takes the tile, and its vector 0
enters. The equations name the device on its way: `d1` with the slot claimed, `d2` with the output, `d4` with the pass running, and
`y` and `z` are the pass as `d2` and `d4` hold it. -/
theorem exec_passStart_of_ready {y z : Pass} {d1 d2 d4 d5 : Dev} (hx : (d.plot die plot).nextPass = some x)
    (hc : d.passCfg x = some c)
    (hstate : d.fld (.plot die plot) Reg.PLOT_STS.STATE < 2 ∨ d.fld (.plot die plot) Reg.PLOT_STS.STATE = 2 ∧ x.replay = true)
    (hmay : (d.plot die plot).mayStart x c.exact d.now = true) (hcode : d.startRefusal die plot x c.exact = 0)
    (hslot : d.passSlot die plot x = (d1, true)) (hout : d1.passOutput die plot x = (d2, true))
    (hy : (d2.plot die plot).passes.find? (fun y => y.seq == x.seq) = some y)
    (hneed : y.entered = y.fed → d2.vectorNeeds die plot y y.fields c.exact 0 = none)
    (hd4 : ((d2.passImages die plot y c.exact).takeTile die plot y c.exact).modPass die plot x.seq (fun z => { z with
      stage := .running, startT := d.now }) = d4)
    (hz : (d4.plot die plot).passes.find? (fun z => z.seq == x.seq) = some z)
    (hd5 : d4.enterVector die plot z c.exact = d5)
    (hentered : (d5.plot die plot).passes.any (fun q => q.seq == x.seq && q.entered != 0) = true) :
    exec (.passStart t die plot) s = .next ⟨s.pending, d5⟩ := by
  have hneed' : (if y.entered = y.fed then d2.vectorNeeds die plot y y.fields c.exact 0 else none) = none := by
    split
    · exact hneed ‹_›
    · rfl
  rw [exec_passStart, execPassStart, State.runPlot_of_live hlive hd]
  simp only [hx, hc, startHeld_eq_false hstate, hmay, hcode, hslot, hout, hy, hneed', hd4, hz, hd5, hentered, Bool.not_true,
    Bool.or_self, Bool.false_eq_true, Option.isSome_none, ne_eq, not_true_eq_false, if_false, if_true]

/-- R172, R174: the next vector of the pass that is entering comes in time, and no abandoned pass has vectors to forward. -/
theorem exec_movingVectorArrive_of_due {d1 : Dev}
    (hx : (d.plot die plot).passes.find? (fun x => x.running && decide (x.entered < x.fields.k)) = some x)
    (hc : d.passCfg x = some c) (hdue : x.startT + x.fields.cyc c.exact * x.entered * coreCycle ≤ d.now)
    (hd1 : d.enterVector die plot x c.exact = d1) (hreplay : (d1.plot die plot).passes.any (fun x => x.replay) = false) :
    exec (.movingVectorArrive t die plot) s = .next ⟨s.pending, d1⟩ := by
  have hnone : (d1.plot die plot).passes.find? (fun x => x.replay && decide (x.fed < x.fields.k) &&
      !(x.running && x.entered == x.fed)) = none := by
    refine List.find?_eq_none.mpr fun q hq => ?_
    simp [List.any_eq_false.mp hreplay q hq]
  rw [exec_movingVectorArrive, execMovingVectorArrive, State.runPlot_of_live hlive hd]
  simp only [hx, hc, Option.elim_some, hdue, if_true, hd1, hnone]

/-- R171, R173: the oldest pass retires once all its vectors have entered, its last result is written, and no word or image that it
read was bad. -/
theorem exec_passRetire_of_done {xs : List Pass} (hpasses : (d.plot die plot).passes = x :: xs) (hc : d.passCfg x = some c)
    (hrun : x.running = true) (hall : x.entered = x.fields.k)
    (hdone : x.startT + (x.fields.cyc c.exact * x.fields.k + 86) * coreCycle ≤ (d.plot die plot).advanced d.now)
    (hopnd : d.passOperandBad die plot x c.exact = false) (hacc : d.passAccBad die plot x c.exact = false)
    (himg : d.passImageBad die plot x c.exact = false) :
    exec (.passRetire t die plot) s = .next ⟨s.pending, d.retirePass die plot x c⟩ := by
  rw [exec_passRetire, execPassRetire, State.runPlot_of_live hlive hd]
  simp only [hpasses, hc, hrun, hall, hdone, hopnd, hacc, himg, beq_self_eq_true, decide_true, Bool.not_false,
    Bool.and_self, if_true]

end

/-- Settles O11: a start by `exec_passStart_of_ready`, a vector by `exec_movingVectorArrive_of_due`, the end of a pass by
`exec_passRetire_of_done`. -/
theorem passesRun : Obligations.PassesRun := by
  unfold Obligations.PassesRun
  refine ⟨?start, ?vector, ?retire⟩
  case start =>
    intro s t die plot x y z c hlive d d1 d2 d4 d5 hx hc hstate hmay hcode hslot hout hy hneed hz hentered
    exact exec_passStart_of_ready hlive (d := d) rfl hx hc hstate hmay hcode (Prod.ext (y := (d1, true)) rfl hslot)
      (Prod.ext (y := (d2, true)) rfl hout) hy hneed rfl hz rfl hentered
  case vector =>
    intro s t die plot x c hlive d d1 hx hc hdue hreplay
    exact exec_movingVectorArrive_of_due hlive (d := d) rfl hx hc hdue rfl hreplay
  case retire =>
    intro s t die plot x xs b hlive d hpasses hb hrun hall hdone hopnd hacc himg
    exact exec_passRetire_of_done hlive rfl hpasses (Dev.passCfg_of_bed hb) hrun hall hdone hopnd hacc himg

end Machine
end Sys2Proof
end

section
/-! PROOFS. Detections abandon passes, and retests end (07 R187 to R189, R194 to R196, R481). -/
namespace Sys2Proof
namespace Machine

theorem exec_passAbandon (t die plot : Nat) (what : Detect) (s : State) :
    exec (.passAbandon t die plot what) s = execPassAbandon t die plot what s := rfl
theorem exec_retestEnd (t die plot : Nat) (result : RetestResult) (s : State) :
    exec (.retestEnd t die plot result) s = execRetestEnd t die plot result s := rfl

section
variable {s : State} {t die plot : Nat} (hlive : s.live (.plot die plot)) {d : Dev} (hd : (s.dev.touch t).settle die plot = d)
include hlive hd

section
variable {n : Nat} {x : Pass} {y : BedCfg} (hx : ((d.plot die plot).passes.filter (fun x => x.running))[n]? = some x)
  (hy : d.passCfg x = some y) (hchecked : y.unchecked = false)
include hx hy hchecked

/-- R194: the checksum lane's mismatch is placed in PLOT_LANE_LOC, in a pass of a checked bed whose vector has entered. -/
theorem exec_passAbandon_of_lane {v r c g : Nat} (hv : v < x.entered) :
    exec (.passAbandon t die plot (.lane n v r c g)) s = .next ⟨s.pending,
      ((((d.setFld (.plot die plot) Reg.PLOT_LANE_LOC.VECTOR v).setFld (.plot die plot) Reg.PLOT_LANE_LOC.ROW r).setFld
        (.plot die plot) Reg.PLOT_LANE_LOC.COL c).setFld (.plot die plot) Reg.PLOT_LANE_LOC.GROUP g).laneAbandon die plot x
          y.exact 0x01⟩ := by
  rw [exec_passAbandon, execPassAbandon, State.runPlot_of_live hlive hd]
  simp only [hx, Option.filter_some, hy, Option.elim_some, hchecked, Bool.not_false, if_true, hv, decide_true]

/-- R195: the finish comparison has no place to name; some vector of the pass has entered. -/
theorem exec_passAbandon_of_finish (hv : 0 < x.entered) :
    exec (.passAbandon t die plot (.finish n)) s = .next ⟨s.pending, d.laneAbandon die plot x y.exact 0x04⟩ := by
  rw [exec_passAbandon, execPassAbandon, State.runPlot_of_live hlive hd]
  simp only [hx, Option.filter_some, hy, Option.elim_some, hchecked, Bool.not_false, if_true, hv, decide_true]

end

end

/-- Settles O12: a mismatch by the pass that it names, a word or an image by the oldest pass that has read one, a retest by its
result. -/
theorem passesAbandonAndRetest : Obligations.PassesAbandonAndRetest := by
  unfold Obligations.PassesAbandonAndRetest
  refine ⟨?mismatch, ?read, ?retest⟩
  case mismatch =>
    intro s t die plot n v r c g x y hlive d b hx hy hchecked
    exact ⟨exec_passAbandon_of_lane hlive rfl hx hy hchecked, exec_passAbandon_of_finish hlive rfl hx hy hchecked⟩
  case read =>
    intro s t die plot x hlive d ex
    refine ⟨?operand, ?accumulator, ?image⟩
    all_goals
      intro hx
      rw [exec_passAbandon, execPassAbandon, State.runPlot_of_live hlive (d := d) rfl]
      dsimp only
      rw [hx]
  case retest =>
    intro s t die plot hlive d p d1 hstate hlimit
    have hlimit' : ¬ p.exhausted = true := Bool.eq_false_iff.mp hlimit
    refine ⟨?clean, ?summation, ?array⟩
    case clean =>
      rw [exec_retestEnd, execRetestEnd, State.runPlot_of_live hlive (d := d) rfl, if_neg (not_not_intro hstate)]
      exact congrArg _ (congrArg _ (if_neg hlimit'))
    case summation =>
      intro x bed hbed hx
      rw [exec_retestEnd, execRetestEnd, State.runPlot_of_live hlive (d := d) rfl, if_neg (not_not_intro hstate)]
      dsimp only
      rw [hbed, Option.bind_some, hx]
      dsimp only
      rw [if_neg hlimit']
    case array =>
      rw [exec_retestEnd, execRetestEnd, State.runPlot_of_live hlive (d := d) rfl, if_neg (not_not_intro hstate)]

end Machine
end Sys2Proof
end

section
/-! PROOFS. Preemption, the spill of the kept accumulators and their return, and RETEST (07 R184 to R186, R189). -/
namespace Sys2Proof
namespace Machine

theorem exec_preempt (t : Nat) (src : Source) (die plot : Nat) (s : State) :
    exec (.preempt t src die plot) s = execPreempt t src die plot s := rfl
theorem exec_resume (t : Nat) (src : Source) (die plot : Nat) (s : State) :
    exec (.resume t src die plot) s = execResume t src die plot s := rfl
theorem exec_retest (t : Nat) (src : Source) (die plot : Nat) (s : State) :
    exec (.retest t src die plot) s = execRetest t src die plot s := rfl
theorem exec_preemptBoundary (t die plot : Nat) (s : State) :
    exec (.preemptBoundary t die plot) s = execPreemptBoundary t die plot s := rfl
theorem exec_accSpillDone (t die plot : Nat) (s : State) :
    exec (.accSpillDone t die plot) s = execAccSpillDone t die plot s := rfl
theorem exec_accRestoreDone (t die plot : Nat) (s : State) :
    exec (.accRestoreDone t die plot) s = execAccRestoreDone t die plot s := rfl

/-- R189: a retest begins in IDLE and in PREEMPTED. -/
theorem Dev.plotRetest_eq (d : Dev) (die p : Nat) : d.plotRetest die p =
    if d.plotState die p = 0 ∨ d.plotState die p = 3 then
      ((d.startRetest die p false false).modPlot die p (fun s => { s with
        file := [], fileOther := [], record := (0, 0, 0, 0) })).setFld (.plot die p) Reg.PLOT_STS.ACC_VALID 0
    else d.setFld (.plot die p) Reg.PLOT_STS.CMD_IGN 1 := by
  simp only [Dev.plotRetest, Bool.or_eq_true, decide_eq_true_eq]

section
variable {s : State} {t die plot : Nat} (hlive : s.live (.plot die plot)) {d : Dev} (hd : (s.dev.touch t).settle die plot = d)
include hlive hd

section
variable (hstate : d.fld (.plot die plot) Reg.PLOT_STS.STATE = 2)
  (hpasses : (d.plot die plot).passes.any (fun x => x.running || x.replay) = false)
include hstate hpasses

/-- R184: without kept accumulators the plot is PREEMPTED at once. -/
theorem exec_preemptBoundary_of_none_kept (hacc : d.isSet (.plot die plot) Reg.PLOT_STS.ACC_VALID = false) :
    exec (.preemptBoundary t die plot) s = .next ⟨s.pending,
      (d.setFld (.plot die plot) Reg.PLOT_STS.STATE 3).modPlot die plot (fun p => { p with spill := none })⟩ := by
  rw [exec_preemptBoundary, execPreemptBoundary, State.runPlot_of_live hlive hd]
  simp [hstate, hpasses, hacc]

/-- R184, R185: kept accumulators claim their range of the spill furrow, or stay in the file where it is short of room. -/
theorem exec_preemptBoundary_of_kept {f : Nat} {x : Furrow} {a : BenchAccess}
    (hf : d.fld (.plot die plot) Reg.PLOT_CTL.SPILL_FUR = f) (hx : d.furNow die plot f = x)
    (ha : a = ⟨.plot die plot, die, plot, f, 0, true, 32768⟩)
    (hacc : d.isSet (.plot die plot) Reg.PLOT_STS.ACC_VALID = true) (hspill : (d.plot die plot).spill = none)
    (hport : x.portFree 0 = true) :
    exec (.preemptBoundary t die plot) s = .next ⟨s.pending,
      if x.clear a then
        (d.setFur die plot f (x.claim a)).modPlot die plot (fun p => { p with spill := some (x.head, f) })
      else ((d.setFld (.plot die plot) Reg.PLOT_STS.SPILL_SHORT 1).setFld (.plot die plot) Reg.PLOT_STS.STATE 3).modPlot die plot
        (fun p => { p with spill := none })⟩ := by
  subst ha
  rw [exec_preemptBoundary, execPreemptBoundary, State.runPlot_of_live hlive hd]
  simp [hstate, hpasses, hacc, hf, hx, hspill, hport, spillBytes]

end

end

/-- Settles O13: the commands by the state that they find, the boundary by whether accumulators are kept, a spill and its
return by the range that the spill holds. -/
theorem plotsPreempt : Obligations.PlotsPreempt := by
  unfold Obligations.PlotsPreempt
  refine ⟨?commands, ?boundary, ?spill⟩
  case commands =>
    intro s t src die plot hacc d st ign
    refine ⟨?preempt, ?resume, ?retest⟩
    case preempt => rw [exec_preempt, execPreempt, State.plotCmd_accepted hacc, Dev.plotPreempt]
    case resume => rw [exec_resume, execResume, State.plotCmd_accepted hacc, Dev.plotResume]
    case retest => rw [exec_retest, execRetest, State.plotCmd_accepted hacc, Dev.plotRetest_eq]
  case boundary =>
    intro s t die plot hlive d b f x a hstate hpasses
    exact ⟨exec_preemptBoundary_of_none_kept hlive rfl hstate hpasses,
      exec_preemptBoundary_of_kept hlive rfl hstate hpasses rfl rfl rfl⟩
  case spill =>
    intro s t die plot c f hlive d a hspill
    refine ⟨?done, ?restored⟩
    case done =>
      intro hstate
      rw [exec_accSpillDone, execAccSpillDone, State.runPlot_of_live hlive (d := d) rfl]
      dsimp only
      rw [hspill]
      exact congrArg _ (congrArg _ (if_neg (not_not_intro hstate)))
    case restored =>
      intro hrestoring hstate hissue ls
      have hguard : (!(d.plot die plot).restoring || d.fld (.plot die plot) Reg.PLOT_STS.STATE != 3 ||
          !(d.furNow die plot f).mayIssue a) = false := by simp [hrestoring, hstate, hissue]
      rw [exec_accRestoreDone, execAccRestoreDone, State.runPlot_of_live hlive (d := d) rfl]
      dsimp only
      rw [hspill]
      exact congrArg _ (congrArg _ (if_neg (Bool.eq_false_iff.mp hguard)))

end Machine
end Sys2Proof
end

section
/-! PROOFS. What checkers deliver once bytes are written: the bytes in their words, and every other byte as before (09 R216;
18 R415, R416, R421). -/
namespace Sys2Proof
namespace Machine

/-! ### What a read depends on -/

theorem Dev.memWf_of_mems {d d' : Dev} (h : d'.mems = d.mems) (hd : d.memWf = true) : d'.memWf = true := by
  rwa [Dev.memWf, h]

theorem Dev.wf_cells {d : Dev} (hd : d.memWf = true) (m : Mem) : Tbl.wf cell0 (d.cells m) = true := by
  simp only [Dev.memWf, Mems.wf, Bool.and_eq_true] at hd
  obtain ⟨⟨⟨hhbm, hgh⟩, hbench⟩, -⟩ := hd
  cases m
  · exact hhbm
  · exact hgh
  · exact hbench

theorem Dev.wf_synd {d : Dev} (hd : d.memWf = true) : Tbl.wf (fun _ => 0#8) d.synd = true := by
  simp only [Dev.memWf, Mems.wf, Bool.and_eq_true] at hd
  exact hd.2

theorem Dev.byte_of_mems {d d' : Dev} (h : d'.mems = d.mems) (m : Mem) (a : Nat) : d'.byte m a = d.byte m a := by
  obtain ⟨hhbm, hgh, hbench, -⟩ : d'.hbm = d.hbm ∧ d'.gh = d.gh ∧ d'.bench = d.bench ∧ d'.synd = d.synd := by
    simpa only [Dev.mems, Prod.mk.injEq] using h
  cases m <;> simp only [Dev.byte, Dev.cells, hhbm, hgh, hbench]

theorem Dev.syndOf_of_mems {d d' : Dev} (h : d'.mems = d.mems) (k : Nat) : d'.syndOf k = d.syndOf k := by
  have hsynd : d'.synd = d.synd := congrArg (fun x => x.2.2.2) h
  rw [Dev.syndOf, hsynd, Dev.syndOf]

/-- A byte is delivered by the stored byte and the syndrome of its word. -/
theorem Dev.readByte_congr {d d' : Dev} {m : Mem} {a : Nat} (hs : d'.syndOf (m.word a) = d.syndOf (m.word a))
    (hb : d'.byte m a = d.byte m a) : d'.readByte m a = d.readByte m a := by
  rw [Dev.readByte, hs, hb, Dev.readByte]

theorem Dev.readByte_of_mems {d d' : Dev} (h : d'.mems = d.mems) (m : Mem) (a : Nat) : d'.readByte m a = d.readByte m a :=
  Dev.readByte_congr (Dev.syndOf_of_mems h _) (Dev.byte_of_mems h m a)

theorem Dev.readBytes_of_mems {d d' : Dev} (h : d'.mems = d.mems) (m : Mem) (a n : Nat) :
    d'.readBytes m a n = d.readBytes m a n := by
  induction n generalizing a with
  | zero => rfl
  | succ n ih => rw [Dev.readBytes, ih, Dev.readByte_of_mems h, Dev.readBytes]

theorem Dev.anyBad_of_mems {d d' : Dev} (h : d'.mems = d.mems) (m : Mem) (a n : Nat) : d'.anyBad m a n = d.anyBad m a n := by
  simp only [Dev.anyBad, Dev.syndOf_of_mems h]

/-- A checker that corrects nothing delivers the stored byte. -/
theorem Dev.readByte_of_not_corrected {d : Dev} {m : Mem} {a : Nat}
    (h : ∀ b, hedgeCheck (d.syndOf (m.word a)) ≠ .corrected b) : d.readByte m a = d.byte m a := by
  rw [Dev.readByte]
  cases hc : hedgeCheck (d.syndOf (m.word a)) with
  | corrected b => exact absurd hc (h b)
  | clean | bad => rfl

theorem Mem.code_injective : Function.Injective Mem.code := by
  intro m m'
  cases m <;> cases m' <;> decide

theorem Mem.word_congr {m : Mem} {a k : Nat} (h : k / 8 = a / 8) : m.word k = m.word a := by rw [Mem.word, h, Mem.word]

/-- Words of memories have keys of their own. -/
theorem Mem.word_eq_word {m m' : Mem} {a k : Nat} (ha : a < 2 ^ 44) (hk : k < 2 ^ 44) (h : m'.word k = m.word a) :
    m' = m ∧ k / 8 = a / 8 := by
  simp only [Mem.word] at h
  exact ⟨Mem.code_injective (by omega), by omega⟩

/-! ### The smallest updates -/

section
variable (d : Dev) (m m' : Mem) (a k : Nat) (s : BitVec 8)

@[simp] theorem Dev.byte_setSynd : (d.setSynd k s).byte m a = d.byte m a := by cases m <;> rfl

@[simp] theorem Dev.syndOf_setCells (c : List Host.Cell) : (d.setCells m c).syndOf k = d.syndOf k := by cases m <;> rfl

theorem Dev.cells_setCells (c : List Host.Cell) : (d.setCells m c).cells m' = if m' = m then c else d.cells m' := by
  cases m <;> cases m' <;> rfl

@[simp] theorem Dev.syndOf_correctWord (b : Nat) : (d.correctWord m a b).syndOf k = d.syndOf k := by
  rw [Dev.correctWord]
  split
  · exact Dev.syndOf_setCells ..
  · rfl

end

theorem Dev.syndOf_setSynd {d : Dev} (hd : d.memWf = true) (k : Nat) (s : BitVec 8) : (d.setSynd k s).syndOf k = s := by
  rw [Dev.syndOf, Dev.setSynd, Tbl.get_set (Dev.wf_synd hd), if_pos rfl]

theorem Dev.syndOf_setSynd_of_ne {d : Dev} {k k' : Nat} (h : k' ≠ k) (s : BitVec 8) :
    (d.setSynd k s).syndOf k' = d.syndOf k' := Tbl.get_set_ne h

/-- The byte that holds the wrong bit is the one that a correction changes. -/
theorem Dev.byte_correctWord {d : Dev} (hd : d.memWf = true) (m : Mem) (a b k : Nat) (hk : k / 8 = a / 8) :
    (d.correctWord m a b).byte m k = if b / 8 = k % 8 ∧ b < 64 then d.byte m k ^^^ (1#8 <<< (b % 8)) else d.byte m k := by
  rw [Dev.correctWord]
  by_cases hb : b < 64
  · rw [if_pos hb, Dev.byte, Dev.cells_setCells, if_pos rfl, Tbl.get_set (Dev.wf_cells hd m)]
    have hat : k = a / 8 * 8 + b / 8 ↔ b / 8 = k % 8 ∧ b < 64 := by omega
    by_cases hkb : k = a / 8 * 8 + b / 8
    · rw [if_pos hkb, if_pos (hat.mp hkb), hkb]
    · rw [if_neg hkb, if_neg (hkb ∘ hat.mpr), Dev.byte]
  · rw [if_neg hb, if_neg (fun h => hb h.2)]

/-- A correction leaves the bytes of other words as they are. -/
theorem Dev.byte_correctWord_of_ne (d : Dev) {m m' : Mem} {a b k : Nat} (h : ¬(m' = m ∧ k / 8 = a / 8)) :
    (d.correctWord m a b).byte m' k = d.byte m' k := by
  rw [Dev.correctWord]
  split
  next hb =>
    by_cases hm : m' = m
    · subst hm
      have hword : k / 8 ≠ a / 8 := fun hk => h ⟨rfl, hk⟩
      have hat : k ≠ a / 8 * 8 + b / 8 := by omega
      rw [Dev.byte, Dev.cells_setCells, if_pos rfl, Tbl.get_set_ne hat, Dev.byte]
    · rw [Dev.byte, Dev.cells_setCells, if_neg hm, Dev.byte]
  next => rfl

/-! ### Words that a write covers (R216, 18 R416) -/

theorem hedgeCheck_zero_ne_corrected (b : Nat) : hedgeCheck 0#8 ≠ .corrected b := by simp [hedgeCheck]

theorem hedgeCheck_poison : hedgeCheck poison = .bad := by decide

/-- A word whose key is given a syndrome that nothing corrects is delivered as it is stored. -/
theorem Dev.readByte_setSynd {d : Dev} (hd : d.memWf = true) {m : Mem} {a k : Nat} (hk : m.word k = m.word a) {s : BitVec 8}
    (hs : ∀ b, hedgeCheck s ≠ .corrected b) : (d.setSynd (m.word a) s).readByte m k = d.byte m k := by
  rw [Dev.readByte_of_not_corrected (by rwa [hk, Dev.syndOf_setSynd hd]), Dev.byte_setSynd]

section
variable {d : Dev} (hd : d.memWf = true) (m : Mem) (a lo hi : Nat)
include hd

/-- After a merge the checker of the word corrects nothing: it is clean, or it holds poison. -/
theorem Dev.mergeWord_not_corrected (b : Nat) :
    hedgeCheck ((d.mergeWord m a lo hi 0#8).syndOf (m.word a)) ≠ .corrected b := by
  have hnote : (d.noteWord 0xFF (m.word a)).memWf = true := Dev.memWf_of_mems (Dev.noteWord_mems ..) hd
  rw [Dev.mergeWord]
  split
  next =>
    rw [Dev.syndOf_setSynd hd]
    exact hedgeCheck_zero_ne_corrected b
  next =>
    split
    next =>
      rw [Dev.syndOf_setSynd hd]
      exact hedgeCheck_zero_ne_corrected b
    next b' _ =>
      rw [Dev.syndOf_setSynd (Dev.correctWord_memsWf _ m a b' hnote)]
      exact hedgeCheck_zero_ne_corrected b
    next =>
      rw [Dev.syndOf_setSynd hnote, hedgeCheck_poison]
      exact Check.noConfusion

/-- A merge of part of a word delivers each byte of the word as before. -/
theorem Dev.readByte_mergeWord_of_part (hpart : ¬(lo = 0 ∧ hi = 8)) {k : Nat} (hk : k / 8 = a / 8) :
    (d.mergeWord m a lo hi 0#8).readByte m k = d.readByte m k := by
  have hnote : (d.noteWord 0xFF (m.word a)).mems = d.mems := Dev.noteWord_mems ..
  have hnoteWf : (d.noteWord 0xFF (m.word a)).memWf = true := Dev.memWf_of_mems hnote hd
  have hkey : m.word k = m.word a := Mem.word_congr hk
  rw [Dev.mergeWord, if_neg hpart]
  cases hc : hedgeCheck (d.syndOf (m.word a)) with
  | clean =>
    rw [Dev.readByte_setSynd hd hkey hedgeCheck_zero_ne_corrected,
      Dev.readByte_of_not_corrected (by simp [hkey, hc])]
  | corrected b =>
    dsimp only
    rw [Dev.readByte_setSynd (Dev.correctWord_memsWf _ m a b hnoteWf) hkey hedgeCheck_zero_ne_corrected,
      Dev.byte_correctWord hnoteWf m a b k hk, Dev.byte_of_mems hnote, Dev.readByte, hkey, hc]
  | bad =>
    dsimp only
    rw [Dev.readByte_setSynd hnoteWf hkey (by simp [hedgeCheck_poison]), Dev.byte_of_mems hnote,
      Dev.readByte_of_not_corrected (by simp [hkey, hc])]
end

/-- A merge leaves other words and their syndromes as they are. -/
theorem Dev.mergeWord_of_ne (d : Dev) {m m' : Mem} {a k : Nat} (lo hi : Nat) (s : BitVec 8) (h : m'.word k ≠ m.word a) :
    (d.mergeWord m a lo hi s).syndOf (m'.word k) = d.syndOf (m'.word k) ∧
      (d.mergeWord m a lo hi s).byte m' k = d.byte m' k := by
  have hnote : (d.noteWord 0xFF (m.word a)).mems = d.mems := Dev.noteWord_mems ..
  have hword : ¬(m' = m ∧ k / 8 = a / 8) := by
    rintro ⟨rfl, hk⟩
    exact h (Mem.word_congr hk)
  rw [Dev.mergeWord]
  split
  next => exact ⟨Dev.syndOf_setSynd_of_ne h s, Dev.byte_setSynd ..⟩
  next =>
    split
    next => exact ⟨Dev.syndOf_setSynd_of_ne h s, Dev.byte_setSynd ..⟩
    next b _ =>
      rw [Dev.syndOf_setSynd_of_ne h, Dev.byte_setSynd, Dev.syndOf_correctWord, Dev.byte_correctWord_of_ne _ hword]
      exact ⟨Dev.syndOf_of_mems hnote _, Dev.byte_of_mems hnote _ _⟩
    next =>
      rw [Dev.syndOf_setSynd_of_ne h, Dev.byte_setSynd]
      exact ⟨Dev.syndOf_of_mems hnote _, Dev.byte_of_mems hnote _ _⟩

section
variable {d : Dev} (hd : d.memWf = true) (m : Mem) (a n : Nat)
include hd

/-- No word that a write has merged is corrected. -/
theorem Dev.mergeWords_not_corrected (j b : Nat) {k : Nat} (hlo : a / 8 ≤ k / 8) (hhi : k / 8 < a / 8 + j) :
    hedgeCheck ((d.mergeWords m a n 0#8 j).syndOf (m.word k)) ≠ .corrected b := by
  induction j with
  | zero => omega
  | succ j ih =>
    rw [Dev.mergeWords]
    by_cases hk : k / 8 = a / 8 + j
    · have hkey : m.word k = m.word ((a / 8 + j) * 8) := Mem.word_congr (by omega)
      rw [hkey]
      exact Dev.mergeWord_not_corrected (Dev.mergeWords_memsWf d m a n 0#8 j hd) m _ _ _ b
    · have hkey : m.word k ≠ m.word ((a / 8 + j) * 8) := by simp only [Mem.word]; omega
      rw [(Dev.mergeWord_of_ne _ _ _ _ hkey).1]
      exact ih (by omega)

/-- The merges of a write deliver each byte that it does not cover as before. -/
theorem Dev.readByte_mergeWords (j : Nat) (hj : (a / 8 + j) * 8 ≤ 2 ^ 44) {m' : Mem} {k : Nat}
    (h : m' ≠ m ∨ k < a ∨ a + n ≤ k) (hk : k < 2 ^ 44) : (d.mergeWords m a n 0#8 j).readByte m' k = d.readByte m' k := by
  induction j with
  | zero => rfl
  | succ j ih =>
    rw [Dev.mergeWords, ← ih (by omega)]
    by_cases hkey : m'.word k = m.word ((a / 8 + j) * 8)
    · obtain ⟨rfl, hword⟩ := Mem.word_eq_word (by omega) hk hkey
      refine Dev.readByte_mergeWord_of_part (Dev.mergeWords_memsWf d m' a n 0#8 j hd) m' _ _ _ ?_ hword
      have hout : k < a ∨ a + n ≤ k := h.resolve_left (absurd rfl)
      rintro ⟨hlo, hhi⟩
      split_ifs at hlo hhi <;> omega
    · obtain ⟨hsynd, hbyte⟩ := Dev.mergeWord_of_ne (d.mergeWords m a n 0#8 j)
        (if (a / 8 + j) * 8 < a then a - (a / 8 + j) * 8 else 0)
        (if a + n < (a / 8 + j) * 8 + 8 then a + n - (a / 8 + j) * 8 else 8) 0#8 hkey
      exact Dev.readByte_congr hsynd hbyte
end

/-! ### Whole writes -/

section
variable {d : Dev} (m : Mem) (a : Nat) (bs : List Byte)

theorem Dev.byte_putBytes (hd : d.memWf = true) (k : Nat) : (d.putBytes m a bs).byte m k =
    if h : a ≤ k ∧ k < a + bs.length then bs[k - a]'(by omega) else d.byte m k := by
  rw [Dev.byte, Dev.putBytes, Dev.cells_setCells, if_pos rfl, Tbl.get_setMany (Dev.wf_cells hd m), Dev.byte]

theorem Dev.readByte_putBytes_of_ne (hd : d.memWf = true) {m' : Mem} {k : Nat}
    (h : m' ≠ m ∨ k < a ∨ a + bs.length ≤ k) : (d.putBytes m a bs).readByte m' k = d.readByte m' k := by
  refine Dev.readByte_congr (Dev.syndOf_setCells ..) ?_
  by_cases hm : m' = m
  · subst hm
    rw [Dev.byte_putBytes m' a bs hd, dif_neg (by have := h.resolve_left (absurd rfl); omega)]
  · rw [Dev.byte, Dev.putBytes, Dev.cells_setCells, if_neg hm, Dev.byte]

/-- A byte that a write does not cover is delivered as before. -/
theorem Dev.readByte_writeBytes_of_ne (hd : d.memWf = true) (ha : a + bs.length ≤ 2 ^ 44) {m' : Mem} {k : Nat}
    (h : m' ≠ m ∨ k < a ∨ a + bs.length ≤ k) (hk : k < 2 ^ 44) : (d.writeBytes m a bs).readByte m' k = d.readByte m' k := by
  rw [Dev.writeBytes, Dev.writeWith]
  split
  next => rfl
  next hbs =>
    have hlen : 0 < bs.length := List.length_pos_iff.mpr (by simpa using hbs)
    rw [Dev.readByte_putBytes_of_ne m a bs (Dev.mergeWords_memsWf d m a _ 0#8 _ hd) h,
      Dev.readByte_mergeWords hd m a bs.length _ (by omega) h hk]

/-- A byte that is written reads back. -/
theorem Dev.readByte_writeBytes (hd : d.memWf = true) {i : Nat} (hi : i < bs.length) :
    (d.writeBytes m a bs).readByte m (a + i) = bs[i] := by
  rw [Dev.writeBytes, Dev.writeWith, if_neg (by rw [List.isEmpty_iff]; rintro rfl; exact Nat.not_lt_zero _ hi)]
  have hwf := Dev.mergeWords_memsWf d m a bs.length 0#8 ((a + bs.length - 1) / 8 - a / 8 + 1) hd
  rw [Dev.readByte_of_not_corrected, Dev.byte_putBytes m a bs hwf, dif_pos (by omega)]
  · simp only [Nat.add_sub_cancel_left]
  · intro b
    rw [Dev.putBytes, Dev.syndOf_setCells]
    exact Dev.mergeWords_not_corrected hd m a bs.length _ b (by omega) (by omega)

end

/-- Settles O57: a byte that is written by `readByte_writeBytes`, every other by `readByte_writeBytes_of_ne`. -/
theorem writtenBytesReadBack : Obligations.WrittenBytesReadBack := by
  unfold Obligations.WrittenBytesReadBack
  intro d m a bs hd ha
  exact ⟨fun i hi => Dev.readByte_writeBytes m a bs hd hi,
    fun k h hk => Dev.readByte_writeBytes_of_ne m a bs hd ha (.inr h) hk,
    fun m' k h hk => Dev.readByte_writeBytes_of_ne m a bs hd ha (.inl h) hk⟩

end Machine
end Sys2Proof
end

section
/-! PROOFS. Accesses of benches, lattice requests, their resends, and rewrites of corrected words (09 R219, R221, R222, R224;
18 R421). -/
namespace Sys2Proof
namespace Machine

theorem exec_benchAccessIssue (t : Nat) (a : BenchAccess) (s : State) :
    exec (.benchAccessIssue t a) s = execBenchAccessIssue t a s := rfl
theorem exec_latticeBenchRequest (t : Nat) (a : BenchAccess) (u : Upset) (s : State) :
    exec (.latticeBenchRequest t a u) s = execLatticeBenchRequest t a u s := rfl
theorem exec_benchRequestResend (t : Nat) (a : BenchAccess) (s : State) :
    exec (.benchRequestResend t a) s = execBenchRequestResend t a s := rfl
theorem exec_ceRewrite (t word : Nat) (s : State) : exec (.ceRewrite t word) s = execCeRewrite t word s := rfl

/-- A claim that its furrow can hold is issued, waits in the stall buffer, or is answered with a retry (R219, R224). -/
theorem Dev.latticeRequest_of_fits {d0 d : Dev} {a : BenchAccess} {g : Furrow} (hd : d0.settle a.die a.plot = d)
    (hg : d.furNow a.die a.plot a.fur = g) (hfits : ∀ i e, a.agent = .rill i e → a.write = false ∨ round64 a.n ≤ g.bytes) :
    d0.latticeRequest a =
      if g.mayIssue a then (d.setFur a.die a.plot a.fur (g.claim a)).grant a (g.claimAt a)
      else if (g.stalled.filter (fun x => x.port == 3)).length < 2 then
        d.setFur a.die a.plot a.fur { g with stalled := g.stalled ++ [a] }
      else ((d.setFur a.die a.plot a.fur { g with retried := g.retried ++ [(a, d.now)] }).countSat
        (.plot a.die a.plot) Reg.BENCH_RETRY_CNT.COUNT 1).emit [.benchRetry a.die a.plot a.fur] := by
  subst hd hg
  rw [Dev.latticeRequest]
  split
  next i e hagent hlong =>
    rcases hfits i e hagent with hread | hroom
    · simp [hread] at hlong
    · simp [not_lt.mpr hroom] at hlong
  next => rfl

/-- A word of a bench whose syndrome names a wrong bit is put right and its syndrome cleared (18 R421). -/
theorem Dev.rewriteWord_bench {d : Dev} {a bit : Nat} (ha : a < 2 ^ 44)
    (hc : hedgeCheck (d.syndOf (a + 2 * 2 ^ 44)) = .corrected bit) :
    d.rewriteWord (a + 2 * 2 ^ 44) = (d.correctWord .bench (a * 8) bit).setSynd (a + 2 * 2 ^ 44) 0#8 := by
  have hmem : (a + 2 * 2 ^ 44) / 2 ^ 44 = 2 := by omega
  have hword : (a + 2 * 2 ^ 44) % 2 ^ 44 = a := by omega
  simp only [Dev.rewriteWord, hc, hmem, hword]

/-- Settles O14: a request by `latticeRequest_of_fits`, a rewrite by `rewriteWord_bench`, the others by their conditions. -/
theorem benchRequestsComplete : Obligations.BenchRequestsComplete := by
  unfold Obligations.BenchRequestsComplete
  refine ⟨?issue, ?request, ?resend, ?rewrite⟩
  case issue =>
    intro s t a hlive d f hstalled hissue
    rw [exec_benchAccessIssue, execBenchAccessIssue, State.run_of_live hlive]
    have hguard : (!f.stalled.contains a || !f.mayIssue a) = false := by rw [hstalled, hissue]; rfl
    exact congrArg _ (congrArg _ (if_neg (Bool.eq_false_iff.mp hguard)))
  case request =>
    intro s t a u hlive hport d0 f hwants hlost hstalled hcredit hretried hheader d g hfits
    have hguard : (decide (a.port ≠ 3) || !d0.wantsAccess a || d0.lost.contains a.agent || f.stalled.contains a ||
        decide (2 ≤ f.outstanding a.agent) || f.retried.any (fun x => x.1.agent == a.agent)) = false := by
      rw [hwants, hlost, hstalled, hretried, decide_eq_false (not_not_intro hport), decide_eq_false (not_le.mpr hcredit)]
      rfl
    rw [exec_latticeBenchRequest, execLatticeBenchRequest, State.run_of_live hlive,
      ← Dev.latticeRequest_of_fits (d0 := d0.latticeUpset a.die u) rfl rfl hfits]
    exact congrArg _ (congrArg _ ((if_neg (Bool.eq_false_iff.mp hguard)).trans (if_neg hheader)))
  case resend =>
    intro s t t0 a hlive d f hfind hwait
    rw [exec_benchRequestResend, execBenchRequestResend, State.run_of_live hlive]
    dsimp only
    rw [hfind]
    exact congrArg _ (congrArg _ (if_neg (not_lt.mpr hwait)))
  case rewrite =>
    intro s t a bit hpending ha hfree hc
    have hguard : ((s.dev.touch t).rewrites.contains (a + 2 * 2 ^ 44) && (s.dev.touch t).bankFree (a + 2 * 2 ^ 44)) = true := by
      rw [Dev.touch_rewrites, hpending, hfree]
      rfl
    rw [exec_ceRewrite, execCeRewrite, State.go_eq, if_pos hguard, Dev.rewriteWord_bench (d := s.dev.touch t) ha hc]

end Machine
end Sys2Proof
end

section
/-! SUPPORT. What the reading of words for a keeper leaves as it was: `f_work` says that `f` changes neither the beds nor their
items. -/
namespace Sys2Proof
namespace Machine

/-- The beds and their items. -/
def Dev.work (d : Dev) : Tbl (Option Bed) × List Item := (d.beds, d.items)

/-! ### The smallest updates -/

theorem Dev.work_of_fields {d d' : Dev} (hbeds : d'.beds = d.beds) (hitems : d'.items = d.items) : d'.work = d.work := by
  rw [Dev.work, hbeds, hitems, Dev.work]

section
variable (d : Dev) (b : Blk) (f : Fld) (n : Nat)
@[simp] theorem Dev.emit_work (os : List Out) : (d.emit os).work = d.work := Dev.work_of_fields rfl rfl
@[simp] theorem Dev.setFld_work : (d.setFld b f n).work = d.work := Dev.work_of_fields rfl rfl
@[simp] theorem Dev.countSat_work : (d.countSat b f n).work = d.work := Dev.work_of_fields rfl rfl
end

/-! ### Interrupts and the log -/

@[simp] theorem Dev.raiseVector_work (d : Dev) (f v : Nat) : (d.raiseVector f v).work = d.work := by
  unfold Dev.raiseVector
  split_ifs <;> exact Dev.work_of_fields rfl rfl

@[simp] theorem Dev.logIrq_work (d : Dev) : d.logIrq.work = d.work := by simp [Dev.logIrq, Dev.raiseBoth]

@[simp] theorem Dev.logPush_work (d : Dev) (e : LogEntry) : (d.logPush e).work = d.work := by
  have hlog : { d with log := logAppend e d.log }.work = d.work := Dev.work_of_fields rfl rfl
  unfold Dev.logPush
  split
  · simp
  · dsimp only
    split_ifs <;> simp only [Dev.logIrq_work, Dev.setFld_work, hlog]

/-! ### Words that checkers meet -/

@[simp] theorem Dev.countCorrected_work (d : Dev) (k : Nat) : (d.countCorrected k).work = d.work := by
  unfold Dev.countCorrected
  split <;> simp

@[simp] theorem Dev.countBad_work (d : Dev) (k : Nat) : (d.countBad k).work = d.work := by
  unfold Dev.countBad
  split <;> simp

@[simp] theorem Dev.logCorrected_work (d : Dev) (b : Blk) (bed addr : Nat) (s : BitVec 8) :
    (d.logCorrected b bed addr s).work = d.work := by
  unfold Dev.logCorrected
  split
  · exact (Dev.work_of_fields rfl rfl).trans (Dev.logPush_work ..)
  · rfl

@[simp] theorem Dev.noteWord_work (d : Dev) (bed k : Nat) : (d.noteWord bed k).work = d.work := by
  unfold Dev.noteWord Dev.noteWordAs
  dsimp only
  split
  · rfl
  · have hcounted : ((d.countSat .fault Reg.FAULT_CE_TOTAL.COUNT 1).countCorrected k).work = d.work := by simp
    exact (Dev.logCorrected_work ..).trans ((Dev.work_of_fields rfl rfl).trans hcounted)
  · rw [Dev.logPush_work, Dev.countBad_work, Dev.countSat_work]

@[simp] theorem Dev.latticeBad_work (n : Nat) (d : Dev) (die : Nat) : (Dev.latticeBad n d die).work = d.work := by
  unfold Dev.latticeBad
  split <;> simp

@[simp] theorem Dev.carry_work (d : Dev) (cfg : Option BedCfg) (to_ : Place) (ks : List Nat) :
    (d.carry cfg to_ ks).work = d.work :=
  foldl_keeps Dev.work (fun d _ => foldl_keeps Dev.work (Dev.latticeBad_work 1) _ d) _ d

@[simp] theorem Dev.noteFrom_work (d : Dev) (bed : Nat) (to_ : Place) (ks : List Nat) : (d.noteFrom bed to_ ks).work = d.work :=
  (foldl_keeps Dev.work (fun d k => d.noteWord_work bed k) ks _).trans (Dev.carry_work ..)

@[simp] theorem Dev.wakeIdle_work (d : Dev) (b : Blk) : (d.wakeIdle b).work = d.work := by
  unfold Dev.wakeIdle
  split <;> simp

end Machine
end Sys2Proof
end

section
/-! PROOFS. Requests at HBM pseudo-channels and glasshouse bank ports (09 R229, R230; 10 R234, R235, R252, R253). -/
namespace Sys2Proof
namespace Machine

theorem exec_hbmRequest (t stack pc : Nat) (reqs : List MemReq) (s : State) :
    exec (.hbmRequest t stack pc reqs) s = execHbmRequest t stack pc reqs s := rfl
theorem exec_glasshouseRequest (t die bank : Nat) (reqs : List MemReq) (s : State) :
    exec (.glasshouseRequest t die bank reqs) s = execGlasshouseRequest t die bank reqs s := rfl

/-! ### The order of a round (R253) -/

section
variable (rows : Bool)

theorem nextReq_singleton (r : Nat × Waiting) : nextReq rows [r] = some r := by
  cases rows with
  | false => rfl
  | true =>
    simp only [nextReq, firstReq, List.filter_cons, List.filter_nil, Bool.not_true, Bool.false_eq_true, if_false]
    split_ifs <;> rfl

/-- A request that is alone in its round is served. -/
theorem serveOrder_singleton (r : Nat × Waiting) : serveOrder rows 1 [r] = [r.2.req] := by
  rw [serveOrder, nextReq_singleton]
  rfl

variable {a b : Nat} {x y : Waiting}

theorem firstReq_of_lt (h : a < b) :
    firstReq [(a, x), (b, y)] = some (a, x) ∧ firstReq [(b, y), (a, x)] = some (a, x) := by
  have hxy : Waiting.before (a, x) (b, y) = true := by simp [Waiting.before, h]
  have hyx : Waiting.before (b, y) (a, x) = false := by simp [Waiting.before, h.le, h.ne']
  simp [firstReq, hxy, hyx]

/-- Of two requests that the open row does not tell apart the one of the earlier deadline comes first. -/
theorem nextReq_of_lt (hhit : x.req.hit = y.req.hit) (h : a < b) :
    nextReq rows [(a, x), (b, y)] = some (a, x) ∧ nextReq rows [(b, y), (a, x)] = some (a, x) := by
  obtain ⟨hxy, hyx⟩ := firstReq_of_lt (x := x) (y := y) h
  cases rows with
  | false => exact ⟨by rw [nextReq, hxy]; rfl, by rw [nextReq, hyx]; rfl⟩
  | true =>
    rw [nextReq, nextReq, hxy, hyx]
    cases hy : y.req.hit with
    | false => simp [hhit.trans hy, hy, firstReq]
    | true =>
      by_cases hnear : b ≤ a + 64
      · simp [hhit.trans hy, hy, hnear, hxy, hyx]
      · simp [hhit.trans hy, hy, hnear, firstReq]

/-- Both are served, the one of the earlier deadline first, in whichever order they came. -/
theorem serveOrder_of_lt (hhit : x.req.hit = y.req.hit) (h : a < b) :
    serveOrder rows 2 [(a, x), (b, y)] = [x.req, y.req] ∧ serveOrder rows 2 [(b, y), (a, x)] = [x.req, y.req] := by
  obtain ⟨hxy, hyx⟩ := nextReq_of_lt rows hhit h
  have hne : ((b, y) == (a, x)) = false := by simp [h.ne']
  constructor
  · rw [serveOrder, hxy]
    simp only [List.erase_cons_head, serveOrder_singleton]
  · rw [serveOrder, hyx]
    simp only [List.erase_cons_tail (Bool.eq_false_iff.mp hne), List.erase_cons_head, serveOrder_singleton]

end

/-! ### A round of one request -/

/-- A request that alone waits where it belongs is the round. -/
theorem Dev.round_of_one (d : Dev) (rows : Bool) (die : Nat) (at_ : Router → Router) (port : Router → Nat)
    {p : MemReq → Bool} {r : MemReq} (h : p r = true) : d.round rows die at_ port ([r].filter p) = [r] := by
  rw [List.filter_cons_of_pos h]
  exact serveOrder_singleton ..

/-- A request that no check has upset and that waited at no crossing, of a lodge: refused where nothing is there for it, else
served (09 R229, 10 R235). -/
theorem Dev.serve_of_lodge (d : Dev) (m : Mem) (die at_ : Nat) (fault : Option Nat) (absent : Bool) {r : MemReq}
    (hupset : r.upset = .none) (hcross : r.crossing = []) (hagent : r.agent = none) :
    d.serve m die at_ fault absent r =
      if absent then d.emit [.answer r.src .accessFault] else d.keeperServed m at_ r := by
  have hheader : r.upset ≠ .header := by rw [hupset]; exact Upset.noConfusion
  have hmet : (d.latticeUpset die r.upset).noteCrossings r = d := by rw [hupset, Dev.noteCrossings, hcross]; rfl
  rw [Dev.serve, if_neg hheader]
  simp only [hmet, hagent]

section
variable {s : State} {t : Nat} {r : MemReq} (hupset : r.upset = .none) (hcross : r.crossing = []) (hagent : r.agent = none)
include hupset hcross hagent

theorem exec_hbmRequest_of_lodge {stack pc : Nat} (hlive : s.live (.hbmCtl (stack / 2) (stack % 2)))
    (hr : r.ofPc stack pc = true) {d : Dev} (hd : s.dev.touch t = d) :
    exec (.hbmRequest t stack pc [r]) s = .next ⟨s.pending,
      if (!d.hbmPopulated r.addr || !d.clockOn (.hbmCtl (stack / 2) (stack % 2))) = true then
        d.emit [.answer r.src .accessFault]
      else d.keeperServed .hbm r.addr r⟩ := by
  subst hd
  rw [exec_hbmRequest, execHbmRequest, State.run_of_live hlive, Dev.round_of_one _ _ _ _ _ hr,
    List.foldl_cons, List.foldl_nil, Dev.serve_of_lodge _ _ _ _ _ _ hupset hcross hagent]

theorem exec_glasshouseRequest_of_lodge {die bank : Nat} (hlive : s.live (.gh die)) (hr : r.ofBank die bank = true) {d : Dev}
    (hd : (s.dev.touch t).wakeIdle (.gh die) = d) (hclock : d.clockOn (.gh die) = true) :
    exec (.glasshouseRequest t die bank [r]) s = .next ⟨s.pending,
      d.keeperServed .gh (die * 2 ^ 26 + r.addr % 2 ^ 26) r⟩ := by
  subst hd
  rw [exec_glasshouseRequest, execGlasshouseRequest, State.run_of_live hlive, Dev.round_of_one _ _ _ _ _ hr,
    List.foldl_cons, List.foldl_nil, Dev.serve_of_lodge _ _ _ _ _ _ hupset hcross hagent, hclock]
  rfl

end

/-! ### What a keeper's load is answered with -/

/-- Whether a block has its clock does not turn on the power state that an access to an IDLE device sets (20 R444). -/
theorem Dev.wakeIdle_clockOn (d : Dev) (b b' : Blk) : (d.wakeIdle b).clockOn b' = d.clockOn b' := by
  rw [Dev.wakeIdle]
  split <;> rfl

/-- A load of a keeper without an uncorrectable word, with what it leaves as it was (18 R418). -/
theorem Dev.keeperServed_read (d : Dev) (m : Mem) (at_ n : Nat) {r : MemReq} (hop : r.op = .read n)
    (hgood : d.anyBad m at_ n = false) :
    .answer r.src (.bytes (d.readBytes m at_ n) false) ∈ (d.keeperServed m at_ r).sent ∧
      (d.keeperServed m at_ r).mems = d.mems ∧ (d.keeperServed m at_ r).work = d.work := by
  have hserved : d.keeperServed m at_ r = (d.noteFrom 0xFF (.lodge r.src.lodge) (m.wordsOf at_ n)).emit
      [.answer r.src (.bytes (d.readBytes m at_ n) false)] := by
    simp only [Dev.keeperServed, hop, hgood, Bool.false_eq_true, if_false]
  rw [hserved]
  refine ⟨?_, ?_, ?_⟩
  · rw [Dev.emit_sent]
    exact List.mem_append_right _ (List.mem_singleton_self _)
  · rw [Dev.emit_mems, Dev.noteFrom_mems]
  · rw [Dev.emit_work, Dev.noteFrom_work]

/-- Settles O16: a store by `exec_hbmRequest_of_lodge`, a load by `keeperServed_read`, the order by `serveOrder_of_lt`. -/
theorem memoryRequestsComplete : Obligations.MemoryRequestsComplete := by
  unfold Obligations.MemoryRequestsComplete
  refine ⟨?store, ?load, fun rows a b x y hhit h => serveOrder_of_lt rows hhit h⟩
  case store =>
    intro s t stack pc part issued queued addr l k hit bs hlive r hr
    rw [exec_hbmRequest_of_lodge rfl rfl rfl hlive hr rfl]
    dsimp only
    by_cases h : (s.dev.touch t).hbmPopulated addr = true ∧
        (s.dev.touch t).clockOn (.hbmCtl (stack / 2) (stack % 2)) = true
    · rw [if_pos h, if_neg (by simp [r, h])]
      rfl
    · rw [if_neg h, if_pos (by simpa [r, or_iff_not_imp_left] using h)]
  case load =>
    intro s t die bank part issued queued addr n l k hit hlive r a hr hclock hgood
    have hmems : ((s.dev.touch t).wakeIdle (.gh die)).mems = s.dev.mems := (Dev.wakeIdle_mems ..).trans (Dev.touch_mems ..)
    have hwork : ((s.dev.touch t).wakeIdle (.gh die)).work = (s.dev.touch t).work := Dev.wakeIdle_work ..
    obtain ⟨hanswer, hkept, hleft⟩ := ((s.dev.touch t).wakeIdle (.gh die)).keeperServed_read .gh a n (r := r) rfl
      ((Dev.anyBad_of_mems hmems ..).trans hgood)
    rw [Dev.readBytes_of_mems hmems] at hanswer
    obtain ⟨hbeds, hitems⟩ := Prod.mk.inj (hleft.trans hwork)
    exact ⟨_, exec_glasshouseRequest_of_lodge rfl rfl rfl hlive hr rfl ((Dev.wakeIdle_clockOn ..).trans hclock), hanswer,
      hkept.trans hmems, hbeds, hitems⟩

end Machine
end Sys2Proof
end

section
/-! SUPPORT. Numbers as little-endian bytes. -/
namespace Sys2Proof
namespace Machine

@[simp] theorem length_leBytes (n v : Nat) : (leBytes n v).length = n := by
  induction n generalizing v with
  | zero => rfl
  | succ n ih => rw [leBytes, List.length_cons, ih]

theorem leNat_append (xs ys : List Byte) : leNat (xs ++ ys) = leNat xs + 256 ^ xs.length * leNat ys := by
  induction xs with
  | nil => simp [leNat]
  | cons x xs ih =>
    rw [List.cons_append, leNat, leNat, ih, List.length_cons, pow_succ]
    ring

theorem leNat_leBytes (n v : Nat) : leNat (leBytes n v) = v % 256 ^ n := by
  induction n generalizing v with
  | zero => rw [leBytes, leNat, pow_zero, Nat.mod_one]
  | succ n ih => rw [leBytes, leNat, ih, BitVec.toNat_ofNat, pow_succ' 256, Nat.mod_mul (a := 256)]

theorem leNat_leBytes_of_lt {n v : Nat} (h : v < 256 ^ n) : leNat (leBytes n v) = v := by
  rw [leNat_leBytes, Nat.mod_eq_of_lt h]

/-- The field at the start of bytes. -/
theorem numAt_leBytes {n v : Nat} (h : v < 256 ^ n) (bs : List Byte) : numAt (leBytes n v ++ bs) 0 n = v := by
  rw [numAt, List.drop_zero, List.take_left' (length_leBytes n v), leNat_leBytes_of_lt h]

/-- A field that stands past the first `k` bytes. -/
theorem numAt_leBytes_append {k off : Nat} (h : k ≤ off) (v n : Nat) (bs : List Byte) :
    numAt (leBytes k v ++ bs) off n = numAt bs (off - k) n := by
  rw [numAt, numAt, List.drop_append, List.drop_of_length_le (by simpa using h), List.nil_append, length_leBytes]

end Machine
end Sys2Proof
end

section
/-! PROOFS. Barrows and message headers (10 Table 10.7, 14 Table 14.4). -/
namespace Sys2Proof
namespace Machine

theorem bit_lt_two (b : Bool) : bit b < 2 := by cases b <;> decide

theorem decide_bit_eq_one (b : Bool) : decide (bit b = 1) = b := by cases b <;> rfl

theorem Barrow.marks_lt (b : Barrow) :
    bit b.last < 2 ∧ bit b.void < 2 ∧ bit b.poisoned < 2 ∧ bit b.late < 2 ∧ b.flags.toNat < 2 ^ 5 :=
  ⟨bit_lt_two _, bit_lt_two _, bit_lt_two _, bit_lt_two _, b.flags.isLt⟩

/-- The bytes of a barrow as one number, its fields by their places (Table 10.7). -/
theorem Barrow.leNat_bytes {b : Barrow} (haddr : b.addr < 2 ^ 64) (hlength : b.length < 2 ^ 32) (hgen : b.gen < 256)
    (hloc : b.loc < 8) (hpath : b.path < 4) (hcause : b.cause < 256) :
    leNat b.bytes = b.addr + 2 ^ 64 * b.length + 2 ^ 96 * b.gen + 2 ^ 104 * b.loc + 2 ^ 107 * b.path + 2 ^ 109 * bit b.last +
      2 ^ 112 * b.flags.toNat + 2 ^ 117 * bit b.void + 2 ^ 118 * bit b.poisoned + 2 ^ 119 * bit b.late + 2 ^ 120 * b.cause := by
  have hmarks := b.marks_lt
  simp only [Barrow.bytes, leNat_append, leNat_leBytes, List.length_append, length_leBytes]
  omega

theorem Barrow.length_bytes (b : Barrow) : b.bytes.length = 16 := by
  simp only [Barrow.bytes, List.length_append, length_leBytes]

theorem Barrow.ofBytes_bytes {b : Barrow} (haddr : b.addr < 2 ^ 64) (hlength : b.length < 2 ^ 32) (hgen : b.gen < 256)
    (hloc : b.loc < 8) (hpath : b.path < 4) (hcause : b.cause < 256) : Barrow.ofBytes b.bytes = b := by
  have hmarks := b.marks_lt
  have hn := Barrow.leNat_bytes haddr hlength hgen hloc hpath hcause
  have hbit {i : Nat} {x : Bool} (h : leNat b.bytes / 2 ^ i % 2 = bit x) : (leNat b.bytes).testBit i = x := by
    rw [Nat.testBit_eq_decide_div_mod_eq, h, decide_bit_eq_one]
  have hfield {hi lo v : Nat} (h : leNat b.bytes / 2 ^ lo % 2 ^ (hi + 1 - lo) = v) : bitsOf (leNat b.bytes) hi lo = v := by
    rw [bitsOf, Nat.shiftRight_eq_div_pow, h]
  rw [Barrow.ofBytes, hbit (x := b.last) (by omega), hbit (x := b.void) (by omega), hbit (x := b.poisoned) (by omega),
    hbit (x := b.late) (by omega), hfield (v := b.addr) (by omega), hfield (v := b.length) (by omega),
    hfield (v := b.gen) (by omega), hfield (v := b.loc) (by omega), hfield (v := b.path) (by omega),
    hfield (v := b.flags.toNat) (by omega), hfield (v := b.cause) (by omega), BitVec.ofNat_toNat, BitVec.setWidth_eq]

theorem MsgHead.length_bytes (h : MsgHead) : h.bytes.length = 32 := by
  simp only [MsgHead.bytes, List.length_append, length_leBytes]

theorem MsgHead.ofBytes_bytes {h : MsgHead} (htype : h.type < 256) (hdst : h.dst < 2 ^ 16) (hsrc : h.src < 2 ^ 16)
    (hgate : h.gate < 2 ^ 16) (hlength : h.length < 2 ^ 32) (hepoch : h.epoch < 2 ^ 32) (hoffset : h.offset < 2 ^ 32)
    (hwtag : h.wtag < 2 ^ 32) (hreason : h.reason < 256) : MsgHead.ofBytes h.bytes = h := by
  simp (disch := omega) only [MsgHead.ofBytes, MsgHead.bytes, List.append_assoc, numAt_leBytes_append, numAt_leBytes, Nat.sub_self,
    Nat.reduceSub]

/-- Settles O59: a barrow by the number its bytes are, a header field by field. -/
theorem barrowsAndHeadersDecode : Obligations.BarrowsAndHeadersDecode := by
  unfold Obligations.BarrowsAndHeadersDecode
  exact ⟨fun b haddr hlength hgen hloc hpath hcause =>
      ⟨b.length_bytes, Barrow.ofBytes_bytes haddr hlength hgen hloc hpath hcause⟩,
    fun h htype hdst hsrc hgate hlength hepoch hoffset hwtag hreason =>
      ⟨h.length_bytes, MsgHead.ofBytes_bytes htype hdst hsrc hgate hlength hepoch hoffset hwtag hreason⟩⟩

end Machine
end Sys2Proof
end

section
/-! PROOFS. Rills begin descriptors and emit transposes (08 R206, R207; 10 R233, R244, R265). -/
namespace Sys2Proof
namespace Machine

theorem exec_rillDescStart (t die e : Nat) (s : State) : exec (.rillDescStart t die e) s = execRillDescStart t die e s := rfl
theorem exec_transposeBlockEmit (t die e : Nat) (s : State) :
    exec (.transposeBlockEmit t die e) s = execTransposeBlockEmit t die e s := rfl

section
variable {s : State} {t die e : Nat} {d : Dev} (hlive : s.live (.rill die e)) (hd : s.dev.touch t = d)
include hlive hd

/-- A free rill judges its next descriptor, and begins it where no check fails. -/
theorem exec_rillDescStart_of_next {i : Item} {b : Bed} {r : RillDesc} {d1 : Dev} (hfree : d.rillFree die e = true)
    (hnext : d.nextItem die .rill e = some i) (hbed : d.bed i.bed = some b) (hr : RillDesc.ofBytes i.cfg.cmd = r)
    (hd1 : (d.acceptItem i.seq).rillRuns die e i.rillRun = d1) :
    exec (.rillDescStart t die e) s = .next ⟨s.pending,
      if d.rillRefusal die e i.bed b.cfg r ≠ 0 then d.refuseRill die e i.bed i.seq (d.rillRefusal die e i.bed b.cfg r)
      else if d1.noRoute r then
        (d1.gateLast 0xF (bitsOf r.dstAddr 43 32) (bitsOf r.dstAddr 63 48)).rillUnrecov die e Cause.gateClosed
      else if r.empty then d1.rillEmpty die e r else d1.rillProgress die e⟩ := by
  rw [exec_rillDescStart, execRillDescStart, State.run_of_live hlive, hd, hfree]
  simp only [Bool.not_true, Bool.false_eq_true, if_false, hnext, hbed, hr, hd1]

/-- A complete block of a transposing rill goes to its claimed range (08 R206, R207). -/
theorem exec_transposeBlockEmit_of_complete {x : RillRun} {r : RillDesc} {ex : Bool} {at_ a : Nat} {f : Nat × Nat × Nat}
    {ls : List Lane} {fl : FlagSet} (hr : x.fields = r) (hex : (d.runCfg x).exact = ex) (hrun : (d.rill die e).run = some x)
    (hstate : d.fld (.rill die e) Reg.RILL_STS.STATE = 1) (hbad : x.bad = none) (hempty : r.empty = false)
    (hturn : r.transpose = true) (hready : d.rillReady die e x = true) (hhere : x.hostHere = true)
    (hblocks : x.blocks < x.plan.blocks r ex) (hstale : d.inputStale x = false) (hat : x.dstAt = some at_)
    (hfur : d.furOfAddr r.dstAddr = some f) (hok : d.turnOf die e x x.blocks = .ok (ls, fl))
    (ha : at_ + x.blocks * r.turnBytes ex = a) :
    exec (.transposeBlockEmit t die e) s = .next ⟨s.pending,
      ((((((d.turnReads die e x (x.turnEnd ex)).sendLanes x.bed (.die die (Router.ofRill e)) f.1 a ls).furStore
        f.1 f.2.1 f.2.2 a ls).useLines f.1 f.2.1 f.2.2 a (r.turnBytes ex) clsLattice true).modFur f.1 f.2.1 f.2.2
          (fun g => g.fillRange a (r.turnBytes ex))).countWrap (.plot f.1 f.2.1) Reg.PLOT_TSTILE_BLK.COUNT 1).modRun die e
            (fun z => { z with blocks := z.blocks + 1, flags := z.flags ||| fl })⟩ := by
  rw [exec_transposeBlockEmit, execTransposeBlockEmit, State.run_of_live hlive, hd, hrun]
  simp only [hr, hex, hstate, hbad, hempty, hturn, hready, hhere, Nat.not_le.mpr hblocks, hstale, hat, hfur, hok, ha,
    bne_self_eq_false, Option.isSome_none, Bool.not_true, Bool.or_false, decide_false, Bool.false_eq_true, if_false]

end

/-- Settles O17: each clause by the rule of its command. -/
theorem rillsRunDescriptors : Obligations.RillsRunDescriptors := by
  unfold Obligations.RillsRunDescriptors
  refine ⟨?start, ?emit⟩
  case start =>
    intro s t die e i b hlive d hfree hnext hbed r code d1
    exact exec_rillDescStart_of_next hlive rfl hfree hnext hbed rfl rfl
  case emit =>
    intro s t die e at_ f x ls fl hlive d r ex hrun hstate hbad hempty hturn hready hhere hblocks hstale hat hfur hok a d1
    exact exec_transposeBlockEmit_of_complete hlive rfl rfl rfl hrun hstate hbad hempty hturn hready hhere hblocks hstale hat hfur
      hok rfl

end Machine
end Sys2Proof
end

section
/-! PROOFS. Rill faults, page responses, RESUME and FAIL (10 R256 to R261). -/
namespace Sys2Proof
namespace Machine

theorem exec_rillFault (t die e : Nat) (kind : RillFaultKind) (s : State) :
    exec (.rillFault t die e kind) s = execRillFault t die e kind s := rfl
theorem exec_pageRequestResponse (t : Nat) (req : Requester) (ok : Bool) (s : State) :
    exec (.pageRequestResponse t req ok) s = execPageRequestResponse t req ok s := rfl
theorem exec_rillResume (t : Nat) (src : Source) (die e : Nat) (s : State) :
    exec (.rillResume t src die e) s = execRillResume t src die e s := rfl
theorem exec_rillFail (t : Nat) (src : Source) (die e : Nat) (s : State) :
    exec (.rillFail t src die e) s = execRillFail t src die e s := rfl

/-- A command of RILL_CTL that is accepted has its effect. -/
theorem State.rillCmd_accepted {s : State} {t die e : Nat} {src : Source} {f : Dev → Dev} (h : s.accepts src (.rill die e) 0x0) :
    s.access t src (.rill die e) (fun d => d.cmdRow src (.rill die e) 0x0 f) =
      .next ⟨s.pending, f (s.written t src (.rill die e))⟩ := State.access_accepted h

/-- The response to the page request of a host fault that waits (R257, R261). -/
theorem Dev.rillPageResponse_of_host {d : Dev} {die e : Nat} {x : RillRun} {f : RillFault} (hrun : (d.rill die e).run = some x)
    (hfault : x.fault = some f) (hhost : f.host = true) (ok : Bool) :
    d.rillPageResponse die e ok = if ok then d.rillResumes die e else d.rillUnrecov die e Cause.hostFault := by
  rw [Dev.rillPageResponse, hrun, Option.bind_some, hfault]
  simp only [hhost, Bool.not_true, Bool.false_eq_true, if_false]

section
variable {s : State} {t die e : Nat} {d : Dev} {x : RillRun} (hlive : s.live (.rill die e)) (hd : s.dev.touch t = d)
  (hrun : (d.rill die e).run = some x)
include hlive hd hrun

section
variable (hstate : d.fld (.rill die e) Reg.RILL_STS.STATE = 1) (hbad : x.bad = none) (hempty : x.fields.empty = false)
  (hsent : x.sent = false) (hready : d.rillReady die e x = true) (hstale : d.inputStale x = false)
include hstate hbad hempty hsent hready hstale

/-- A host translation that fails at element `i0` of row `w` is unrecoverable the third time; before, the rill waits where the
elements before it are complete. -/
theorem exec_rillFault_of_host {row i0 a : Nat} {write scale third : Bool} {w : RowPlan}
    (hrow : x.plan.rows.find? (fun w => w.row == row && decide (i0 < w.n)) = some w)
    (hside : (if write then x.fields.dstLoc else x.plan.sLoc) = 3) (hhere : x.hostBefore row i0 ≤ x.hostIn.length)
    (hplace : ¬(row < x.doneRow ∨ (row = x.doneRow ∧ i0 < x.doneI0)))
    (hscale : scale = true → (if write then x.plan.fD else x.plan.fS).blockScaled = true)
    (ha : w.eltAddr x.plan i0 write scale = a) (hthird : (decide (2 ≤ x.pageReqs) && d.sameHostFault die e a write) = third) :
    (third = true →
      exec (.rillFault t die e (.host row i0 write scale)) s = .next ⟨s.pending, d.rillUnrecov die e Cause.hostFault⟩) ∧
    (∀ (y : Dev) (r' i' : Nat), third = false →
      d.rillPartial die e x (some (row, i0)) = (y, some (r', i', .page 0x10000000000000000 false)) →
      exec (.rillFault t die e (.host row i0 write scale)) s = .next ⟨s.pending, y.enterFaultWait die e x r' i' a write true⟩) := by
  have hscaled : (scale && !(if write then x.plan.fD else x.plan.fS).blockScaled) = false := by
    cases scale with
    | false => rfl
    | true => rw [hscale rfl]; rfl
  rw [exec_rillFault, execRillFault, State.run_of_live hlive, hd, hrun]
  simp only [hrow, ha, hthird, hstate, hbad, hempty, hsent, hready, hstale, hside, hscaled, Nat.not_lt.mpr hhere, hplace,
    beq_self_eq_true, bne_self_eq_false, Option.isNone_none, Bool.not_true, Bool.not_false, Bool.and_self, Bool.or_self,
    decide_false, Bool.false_eq_true, if_false]
  refine ⟨fun h => by rw [if_pos h], fun y r' i' h hpart => ?_⟩
  rw [if_neg (Bool.eq_false_iff.mp h), hpart]
  rfl

theorem exec_rillFault_of_virt {row i0 a : Nat} {write : Bool} {y : Dev} (hhere : x.hostHere = true)
    (hpart : d.rillPartial die e x none = (y, some (row, i0, .page a write))) :
    exec (.rillFault t die e .virt) s = .next ⟨s.pending, y.enterFaultWait die e x row i0 a write false⟩ := by
  rw [exec_rillFault, execRillFault, State.run_of_live hlive, hd, hrun]
  simp only [hpart, hstate, hbad, hempty, hsent, hready, hstale, hhere, beq_self_eq_true, Option.isNone_none, Bool.not_true,
    Bool.not_false, Bool.and_self, Bool.or_self, Bool.false_eq_true, if_false]

end

theorem exec_pageRequestResponse_of_host {f : RillFault} (hfault : x.fault = some f) (hhost : f.host = true) (ok : Bool) :
    exec (.pageRequestResponse t (.rill die e) ok) s = .next ⟨s.pending,
      if ok then d.rillResumes die e else d.rillUnrecov die e Cause.hostFault⟩ := by
  rw [exec_pageRequestResponse, execPageRequestResponse, State.run_of_live hlive, hd,
    Dev.rillPageResponse_of_host hrun hfault hhost]

end

/-- Settles O18: a host fault by `exec_rillFault_of_host`, RESUME and FAIL as accepted writes. -/
theorem rillFaultsComplete : Obligations.RillFaultsComplete := by
  unfold Obligations.RillFaultsComplete
  refine ⟨?host, ?virt, ?response, ?commands⟩
  case host =>
    intro s t die e row i0 write scale x w hlive d hrun hstate hbad hempty hsent hready hstale hrow hside hhere hplace hscale
      a third
    exact exec_rillFault_of_host hlive rfl hrun hstate hbad hempty hsent hready hstale hrow hside hhere hplace hscale rfl rfl
  case virt =>
    intro s t die e row i0 a write x y hlive d hrun hstate hbad hempty hsent hready hstale hhere hpart
    exact exec_rillFault_of_virt hlive rfl hrun hstate hbad hempty hsent hready hstale hhere hpart
  case response =>
    intro s t die e x f ok hlive d hrun hfault hhost
    exact exec_pageRequestResponse_of_host hlive rfl hrun hfault hhost ok
  case commands =>
    intro s t src die e haccepts d ign
    rw [exec_rillResume, execRillResume, exec_rillFail, execRillFail, State.rillCmd_accepted haccepts,
      State.rillCmd_accepted haccepts]
    exact ⟨rfl, rfl⟩

end Machine
end Sys2Proof
end

section
/-! PROOFS. CANCEL of a rill (10 R262). -/
namespace Sys2Proof
namespace Machine

theorem exec_rillCancel (t : Nat) (src : Source) (die e : Nat) (s : State) :
    exec (.rillCancel t src die e) s = execRillCancel t src die e s := rfl

/-- CANCEL of a rill that does not cancel already. -/
theorem exec_rillCancel_of_accepted {s : State} {t die e : Nat} {src : Source} {d : Dev} (h : s.accepts src (.rill die e) 0x0)
    (hd : s.written t src (.rill die e) = d) (hstate : d.fld (.rill die e) Reg.RILL_STS.STATE ≠ 4) :
    exec (.rillCancel t src die e) s = .next ⟨s.pending, d.cancelRill die e⟩ := by
  rw [exec_rillCancel, execRillCancel, State.rillCmd_accepted h, hd, Dev.rillCancelCmd, if_neg hstate]

/-- An item of a descriptor of 160 zero bytes, whose OUT_QUEUE is queue 0. -/
def zeroItem : Item := ⟨0, 0, 0, ⟨.rill, 0, false, List.replicate 160 0#8⟩, 0, false, true, 0⟩

/-- Lodge 0 is warden, the rills of die 0 have their clocks, and CE_LOG is set; rill 0 of die 0 runs `zeroItem` and has claimed
slot 0 of queue 0, which lies at 0 of HBM; the word of the slot that holds GEN has its lowest bit wrong. -/
def upsetSlot : Dev :=
  { ((((Dev.start.setFld (.warden 0) Reg.WARDEN_STS.ROLE 1).setFld .fault Reg.FAULT_CTL.CE_LOG 1).setQfld 0 Ctx.kind 2).setQfld
      0 Ctx.claim 1).rillRuns 0 0 zeroItem.rillRun with
    clkOn := [(Reg.CLKEN_DIE.RILL.offAt 0, 0xFFFFFFFF#32)]
    pwr := { Dev.start.pwr with vaux := true }
    synd := [(1, 0x01#8)] }

theorem upsetSlot_accepts : (State.mk [] upsetSlot).accepts (.keeper 0 0) (.rill 0 0) 0x0 = true := by decide +kernel

theorem upsetSlot_runs : ((State.mk [] upsetSlot).written 0 (.keeper 0 0) (.rill 0 0)).fld (.rill 0 0) Reg.RILL_STS.STATE = 1 := by
  decide +kernel

/-- As the slot is recycled its GEN is read, and the corrected word is logged (18 R424): HBM_CTL notes that it has logged since the
chime. -/
theorem upsetSlot_cancel_ceLogged :
    (((State.mk [] upsetSlot).written 0 (.keeper 0 0) (.rill 0 0)).cancelRill 0 0).chime.ceLogged = [(Blk.hbmCtl 0 0).base] := by
  decide +kernel

theorem upsetSlot_ceLogged : ((State.mk [] upsetSlot).written 0 (.keeper 0 0) (.rill 0 0)).chime.ceLogged = [] := by
  decide +kernel

/-- Refutes O19: a CANCEL that recycles a slot with a correctable word changes `chime`, which notes the block that has logged it. -/
theorem not_rillsCancel : ¬ Obligations.RillsCancel := by
  unfold Obligations.RillsCancel
  rintro ⟨hcmds, -⟩
  obtain ⟨-, -, hcancel⟩ := hcmds ⟨[], upsetSlot⟩ 0 (.keeper 0 0) 0 0 upsetSlot_accepts
  have hstate : ((State.mk [] upsetSlot).written 0 (.keeper 0 0) (.rill 0 0)).fld (.rill 0 0) Reg.RILL_STS.STATE ≠ 4 := by
    rw [upsetSlot_runs]
    decide
  obtain ⟨d', hexec, -, -, -, -, hchime⟩ := hcancel hstate
  rw [exec_rillCancel_of_accepted upsetSlot_accepts rfl hstate] at hexec
  injection hexec with hexec
  injection hexec with _ hd'
  have hlogged := upsetSlot_cancel_ceLogged
  rw [hd', hchime, upsetSlot_ceLogged] at hlogged
  cases hlogged

end Machine
end Sys2Proof
end

section
/-! PROOFS. Barrow slots are claimed, posted, taken and released (10 R247 to R250, R478). -/
namespace Sys2Proof
namespace Machine

theorem exec_barrowClaim (t : Nat) (a : Agent) (q : Nat) (s : State) :
    exec (.barrowClaim t a q) s = execBarrowClaim t a q s := rfl
theorem exec_barrowPost (t : Nat) (a : Agent) (q : Nat) (b : BarrowArg) (s : State) :
    exec (.barrowPost t a q b) s = execBarrowPost t a q b s := rfl
theorem exec_barrowTake (t : Nat) (a : Agent) (q : Nat) (s : State) :
    exec (.barrowTake t a q) s = execBarrowTake t a q s := rfl
theorem exec_barrowRelease (t : Nat) (a : Agent) (q : Nat) (s : State) :
    exec (.barrowRelease t a q) s = execBarrowRelease t a q s := rfl

/-- The unit posts into the oldest slot that it has claimed. -/
theorem Dev.postSlot_of_claim {d : Dev} {a : Agent} {q : Nat} {c : ClaimedSlot} (h : d.firstClaim a q = some c) (b : Barrow) :
    d.postSlot a q b = d.postAt c b := by
  rw [Dev.postSlot, h]

/-- A release advances REL while the slot holds its GEN, else it only counts STALE (R249, R250). -/
theorem Dev.releaseSlot_fst {d d1 : Dev} {k : TakenBarrow} (hd1 : { d with taken := d.taken.erase k } = d1) :
    (d.releaseSlot k).1 =
      if d.takenFresh k then d1.setQfld k.queue Ctx.rel ((d1.qfld k.queue Ctx.rel + 1) % 0x10000) else d1.countStale k.queue := by
  rw [Dev.releaseSlot, hd1]
  exact apply_ite ..

section
variable {s : State} {t q : Nat} {d : Dev} {a : Agent}

theorem exec_barrowClaim_of_wanted (hlive : s.live a.blk) (hd : s.dev.touch t = d) (hwant : d.wantsSlot a q = true) :
    exec (.barrowClaim t a q) s = .next ⟨s.pending,
      if d.canClaim d.lplot a q then ((d.claimSlot a q).noteClaim a q (d.newClaim a q)).goOn a else d⟩ := by
  rw [exec_barrowClaim, execBarrowClaim, State.run_of_live hlive, hd, hwant, Bool.true_and]

theorem exec_barrowPost_of_software {b : BarrowArg} {c : ClaimedSlot} (hlive : s.live .queue) (hd : s.dev.touch t = d)
    (hclaim : d.firstClaim .software q = some c) :
    exec (.barrowPost t .software q b) s = .next ⟨s.pending, (d.postAt c b.barrow).1⟩ := by
  rw [exec_barrowPost, execBarrowPost, Agent.blk, State.run_of_live hlive, hd, Dev.postSlot_of_claim hclaim]

theorem exec_barrowTake_of_posted {b : Barrow} {d1 : Dev} {k : TakenBarrow} (hlive : s.live a.blk) (hd : s.dev.touch t = d)
    (hwant : d.wantsBarrow a q = true) (htake : d.takeSlot a q = some (b, d1)) (hk : d1.taken.getLast? = some k) :
    exec (.barrowTake t a q) s = .next ⟨s.pending, (d1.noteTaken a q k (b.poisonCause (d.nextBad q))).goOn a⟩ := by
  rw [exec_barrowTake, execBarrowTake, State.run_of_live hlive, hd, hwant]
  simp only [Bool.not_true, Bool.false_eq_true, if_false, htake, hk]

theorem exec_barrowRelease_of_software {k : TakenBarrow} (hlive : s.live .queue) (hd : s.dev.touch t = d)
    (htaken : d.firstTaken .software q = some k) :
    exec (.barrowRelease t .software q) s = .next ⟨s.pending, (d.releaseSlot k).1⟩ := by
  rw [exec_barrowRelease, execBarrowRelease, Agent.blk, State.run_of_live hlive, hd, htaken]

end

/-- Settles O20: each clause by the rule of its command, a release by `releaseSlot_fst`. -/
theorem barrowSlotsMove : Obligations.BarrowSlotsMove := by
  unfold Obligations.BarrowSlotsMove
  refine ⟨?claim, ?post, ?take, ?release⟩
  case claim => exact fun s t a q hlive hwant => exec_barrowClaim_of_wanted hlive rfl hwant
  case post => exact fun s t q b c hlive hclaim => exec_barrowPost_of_software hlive rfl hclaim
  case take => exact fun s t q a b d1 k hlive hwant htake hk => exec_barrowTake_of_posted hlive rfl hwant htake hk
  case release =>
    intro s t q k hlive d htaken d1
    rw [exec_barrowRelease_of_software hlive rfl htaken, Dev.releaseSlot_fst rfl]

end Machine
end Sys2Proof
end

section
/-! PROOFS. The commands of host queues (15 Table 15.6, R246, R257, R370). -/
namespace Sys2Proof
namespace Machine

theorem exec_hostNop (t q cid : Nat) (s : State) : exec (.hostNop t q cid) s = execHostNop t q cid s := rfl
theorem exec_hostCopy (t q cid : Nat) (s : State) : exec (.hostCopy t q cid) s = execHostCopy t q cid s := rfl
theorem exec_hostBedRun (t q cid : Nat) (s : State) : exec (.hostBedRun t q cid) s = execHostBedRun t q cid s := rfl
theorem exec_hostTrellis (t q cid : Nat) (s : State) : exec (.hostTrellis t q cid) s = execHostTrellis t q cid s := rfl
theorem exec_hostWaitChime (t q cid : Nat) (s : State) : exec (.hostWaitChime t q cid) s = execHostWaitChime t q cid s := rfl
theorem exec_hostWaitWindows (t q cid : Nat) (s : State) :
    exec (.hostWaitWindows t q cid) s = execHostWaitWindows t q cid s := rfl
theorem exec_hostFirmware (t q cid status result : Nat) (s : State) :
    exec (.hostFirmware t q cid status result) s = execHostFirmware t q cid status result s := rfl

/-- The device once a TRELLIS has written the staging address, length and command (Table 15.6). -/
def Dev.hostTrellisStarts (d : Dev) (i : Nat) (c : HostCmd) : Dev :=
  ((((d.setFld .trellis Reg.TRELLIS_SRC_LO.SRC_LO (c.arg 0 % 2 ^ 32)).setFld .trellis Reg.TRELLIS_SRC_HI.SRC_HI
    (c.arg 0 / 2 ^ 32)).setFld .trellis Reg.TRELLIS_LEN.LEN (c.arg 1 % 2 ^ 32)).trellisCtlWritten
      (BitVec.ofNat 32 (putBits (d.word .trellis 0x0).toNat 21 16 (bitsOf (c.arg 2) 21 16)))
      (BitVec.ofNat 32 (bitsOf (c.arg 2) 3 0))).setHostCmd i { c with started := true }

section
variable {s : State} {t q cid i : Nat} {c : HostCmd} {d : Dev}

/-- A command that FENCE lets go has its effect (R370). -/
theorem State.run_hostGo {p : Nat → Bool} {f : Dev → Nat → HostCmd → Dev} (hlive : s.live .queue) (hd : s.dev.touch t = d)
    (hfence : d.fenceOk i c = true) (hfound : d.hostCmd q cid (fun c => p c.opc && c.outcome.isNone) = some (i, c)) :
    s.run t .queue (fun d => d.hostGo q cid p f) = .next ⟨s.pending, f d i c⟩ := by
  rw [State.run_of_live hlive, hd, Dev.hostGo, hfound]
  simp only [hfence, if_true]

variable (hlive : s.live .queue) (hd : s.dev.touch t = d) (hfence : d.fenceOk i c = true)
include hlive hd hfence

theorem exec_hostBedRun_of_bed {b : Nat} {x : Bed}
    (hfound : d.hostCmd q cid (fun c => (c.opc == 2) && c.outcome.isNone) = some (i, c))
    (hb : bitsOf (c.arg 0) 5 0 = b) (hbed : d.bed b = some x) :
    exec (.hostBedRun t q cid) s = .next ⟨s.pending,
      if x.state = .halted then d.endHostCmd i c St.bedHalted 0
      else (d.setBed b (some { x with run := (c.arg 0).testBit 8, runAt := if (c.arg 0).testBit 8 && !x.run then d.now else x.runAt
        })).endHostCmd i c 0 d.chime.count.toNat⟩ := by
  rw [exec_hostBedRun, execHostBedRun, State.run_hostGo hlive hd hfence hfound]
  simp only [hb, hbed]

theorem exec_hostTrellis_of_started (hfound : d.hostCmd q cid (fun c => (c.opc == 3) && c.outcome.isNone) = some (i, c))
    (hstart : c.started = true) :
    exec (.hostTrellis t q cid) s = .next ⟨s.pending,
      if d.lstate = 0 then d.endHostCmd i c (if d.fld .trellis Reg.TRELLIS_ERR.CODE ≠ 0 then St.loader else 0)
        ((d.word .trellis 0x14).toNat + (d.word .trellis 0x18).toNat * 2 ^ 32)
      else d⟩ := by
  rw [exec_hostTrellis, execHostTrellis, State.run_hostGo hlive hd hfence hfound]
  simp only [hstart, if_true, Bool.not_true, Bool.false_and, Bool.false_or, beq_iff_eq, bne_iff_ne]

theorem exec_hostTrellis_of_new {d1 : Dev}
    (hfound : d.hostCmd q cid (fun c => (c.opc == 3) && c.outcome.isNone) = some (i, c))
    (hstart : c.started = false) (hd1 : d.hostTrellisStarts i c = d1) :
    exec (.hostTrellis t q cid) s = .next ⟨s.pending,
      let r := (d1.word .trellis 0x14).toNat + (d1.word .trellis 0x18).toNat * 2 ^ 32
      if d.lstate ≠ 0 then d1.endHostCmd i c St.loader r
      else if d1.lstate = 0 then d1.endHostCmd i c (if d1.fld .trellis Reg.TRELLIS_ERR.CODE ≠ 0 then St.loader else 0) r
      else d1⟩ := by
  rw [exec_hostTrellis, execHostTrellis, State.run_hostGo hlive hd hfence hfound, ← hd1, Dev.hostTrellisStarts]
  by_cases hidle : d.lstate = 0
  · simp only [hstart, hidle, bne_self_eq_false, Bool.not_false, Bool.true_and, Bool.false_or, beq_iff_eq, bne_iff_ne, ne_eq,
      not_true_eq_false, Bool.false_eq_true, if_false]
  · simp only [hstart, hidle, bne_iff_ne.mpr hidle, Bool.not_false, Bool.true_and, Bool.true_or, ne_eq, not_false_eq_true,
      Bool.false_eq_true, if_true, if_false]

theorem exec_hostWaitChime_of_found (hfound : d.hostCmd q cid (fun c => (c.opc == 4) && c.outcome.isNone) = some (i, c)) :
    exec (.hostWaitChime t q cid) s = .next ⟨s.pending,
      if d.chime.started = true ∧ c.arg 0 ≤ d.chime.count.toNat then d.endHostCmd i c 0 d.chime.count.toNat
      else d.setHostCmd i { c with started := true }⟩ := by
  rw [exec_hostWaitChime, execHostWaitChime, State.run_hostGo hlive hd hfence hfound]
  simp only [Bool.and_eq_true, decide_eq_true_eq]

theorem exec_hostWaitWindows_of_bed {x : Bed}
    (hfound : d.hostCmd q cid (fun c => (c.opc == 5) && c.outcome.isNone) = some (i, c))
    (hbed : d.bed (bitsOf (c.arg 0) 5 0) = some x) :
    exec (.hostWaitWindows t q cid) s = .next ⟨s.pending,
      if x.state = .halted then d.endHostCmd i c St.bedHalted 0
      else if (x.winCnt + 2 ^ 32 - c.arg 1 % 2 ^ 32) % 2 ^ 32 < 2 ^ 31 then d.endHostCmd i c 0 (x.winCnt % 2 ^ 32)
      else d.setHostCmd i { c with started := true }⟩ := by
  rw [exec_hostWaitWindows, execHostWaitWindows, State.run_hostGo hlive hd hfence hfound]
  simp only [hbed]

theorem exec_hostFirmware_of_found {st r : Nat}
    (hfound : d.hostCmd q cid (fun c => decide (0x80 ≤ c.opc) && c.outcome.isNone) = some (i, c)) :
    exec (.hostFirmware t q cid st r) s = .next ⟨s.pending,
      if d.isSet .queue Reg.QUEUE_FW_CTL.FW_EN = false then d.endHostCmd i c St.unsupported 0
      else if c.started then d.endHostCmd i c (st % 2 ^ 15) (r % 2 ^ 64)
      else (d.setHostCmd i { c with started := true }).emit [.firmware q c.bytes]⟩ := by
  rw [exec_hostFirmware, execHostFirmware, State.run_hostGo hlive hd hfence hfound]
  cases c.started <;> simp only [Bool.not_eq_true', Bool.true_eq_false, Bool.false_eq_true, if_true, if_false]

theorem exec_hostCopy_of_memory {n space : Nat} {m : Mem × Nat} {ls : List Lane}
    (hfound : d.hostCmd q cid (fun c => (c.opc == 1) && c.outcome.isNone) = some (i, c)) (hstart : c.started = false)
    (hsp : bitsOf (c.arg 3) 1 0 = space) (hspace : space ≠ 0) (hn : (d.copyPlan c).1 = n) (hm : copyMem space (c.arg 0) = m)
    (hls : d.readLanes m.1 m.2 n = ls) :
    exec (.hostCopy t q cid) s = .next ⟨s.pending,
      ((d.noteFrom 0xFF (.lodge (d.queuePort q)) (m.1.wordsOf m.2 n)).copyOut c 0 ls).endHostCmd i { c with delivered := n }
        (copyStatus (d.copyPlan c).2 (anyBadLane ls)) n⟩ := by
  rw [exec_hostCopy, execHostCopy, State.run_hostGo hlive hd hfence hfound]
  simp only [hsp, hstart, hspace, hn, hm, hls, false_and, Bool.false_eq_true, if_false]

end

/-- Settles O36: each command by its rule, found and let go as `run_hostGo` says. -/
theorem hostCommandsComplete : Obligations.HostCommandsComplete := by
  unfold Obligations.HostCommandsComplete
  intro s t q cid i c hlive d hfence _ bed found
  refine ⟨?nop, ?bedRun, ?trellis, ?waitChime, ?waitWindows, ?firmware, ?copy⟩
  case nop =>
    intro hfound
    rw [exec_hostNop, execHostNop, State.run_hostGo hlive rfl hfence hfound]
  case bedRun => exact fun x hfound hbed => exec_hostBedRun_of_bed hlive rfl hfence hfound rfl hbed
  case trellis =>
    intro hfound d0 d1 result
    exact ⟨exec_hostTrellis_of_started hlive rfl hfence hfound,
      fun hstart => exec_hostTrellis_of_new hlive rfl hfence hfound hstart rfl⟩
  case waitChime => exact exec_hostWaitChime_of_found hlive rfl hfence
  case waitWindows => exact fun x hfound hbed => exec_hostWaitWindows_of_bed hlive rfl hfence hfound hbed
  case firmware => exact fun st r hfound => exec_hostFirmware_of_found hlive rfl hfence hfound
  case copy =>
    intro hfound hstart hspace n m ls
    exact exec_hostCopy_of_memory hlive rfl hfence hfound hstart rfl hspace rfl rfl rfl

end Machine
end Sys2Proof
end

section
/-! PROOFS. Sieve commands from issue to retirement (11 R270, R272, R284 to R288). -/
namespace Sys2Proof
namespace Machine

theorem exec_sieveIssue (t die sv : Nat) (s : State) : exec (.sieveIssue t die sv) s = execSieveIssue t die sv s := rfl
theorem exec_sieveStart (t die sv : Nat) (s : State) : exec (.sieveStart t die sv) s = execSieveStart t die sv s := rfl
theorem exec_sieveRetire (t die sv rows : Nat) (s : State) :
    exec (.sieveRetire t die sv rows) s = execSieveRetire t die sv rows s := rfl

/-- A command whose input barrow still lies in its slot begins with what its parameters give (R270, R285). -/
theorem Dev.sieveBegins_of_fresh {d : Dev} {b : BedCfg} {die sv : Nat} {x : SieveRun} {p : Dev × FlagSet × Option Nat}
    (hfresh : d.sieveStale x = false) (hp : d.loadParams b die sv x.bed (SieveCmd.ofBytes x.cmd) = p) :
    d.sieveBegins b die sv x = (p.1.setSieve die sv { p.1.sieve die sv with
      startT := p.1.now, run := some { x with started := true, flags := p.2.1, poison := p.2.2 } }).setFld
        (.sieve die sv) Reg.SIEVE_STS.STATE 1 := by
  rw [Dev.sieveBegins, hfresh, if_neg Bool.false_ne_true, hp]

/-- The rows that a command may have done (R286, R287). -/
theorem SieveRun.rowsOk_iff {x : SieveRun} {stops : Bool} {rows : Nat} :
    x.rowsOk stops rows = true ↔
      if (SieveCmd.ofBytes x.cmd).yLoc = 2 ∧ x.yAt = none then rows = 0
      else rows = (SieveCmd.ofBytes x.cmd).rows ∨ rows < (SieveCmd.ofBytes x.cmd).rows ∧ stops = true := by
  unfold SieveRun.rowsOk
  dsimp only
  split
  · exact beq_iff_eq
  · simp only [Bool.or_eq_true, beq_iff_eq, Bool.and_eq_true, decide_eq_true_eq]

section
variable {s : State} {t die sv : Nat} {d : Dev} (hlive : s.live (.sieve die sv)) (hd : s.dev.touch t = d)
include hlive hd

/-- The item in turn is accepted, or refused with the code of its first failing check (R284, R286). -/
theorem exec_sieveIssue_of_next {i : Item} {b : Bed} {code : Nat} (hi : d.nextItem die .sieve sv = some i)
    (hbed : d.bed i.bed = some b) (hcode : d.sieveRefusal die sv i.bed b.cfg (SieveCmd.ofBytes i.cfg.cmd) = code) :
    exec (.sieveIssue t die sv) s = .next ⟨s.pending,
      if code ≠ 0 then
        { (d.setFld (.sieve die sv) Reg.SIEVE_STS.REFUSED 1).setFld (.sieve die sv) Reg.SIEVE_STS.CAUSE code with
          items := d.items.filter (fun j => j.seq != i.seq) }.haltBed i.bed 3
      else (d.acceptItem i.seq).sieveNext die sv⟩ := by
  rw [exec_sieveIssue, execSieveIssue, State.run_of_live hlive, hd]
  simp only [hi, hbed, hcode]
  rw [Dev.setFld_items, Dev.setFld_items]

section
variable {x : SieveRun} {b : Bed} (hrun : (d.sieve die sv).run = some x) (hbed : d.bed x.bed = some b)
include hrun hbed

theorem exec_sieveStart_of_ready (hstart : x.started = false) (hpoison : x.poison = none) (hin : x.inputsHere = true) :
    exec (.sieveStart t die sv) s = .next ⟨s.pending, d.sieveBegins b.cfg die sv x⟩ := by
  rw [exec_sieveStart, execSieveStart, State.run_of_live hlive, hd]
  simp only [hrun, hbed, hstart, hpoison, hin, Option.isSome_none, Bool.not_true, Bool.or_self, Bool.false_eq_true, if_false]

variable {rows : Nat} (hmay : x.mayRetire (d.bedStopsEarly x.bed) = true) (hlost : d.lost.contains (.sieve die sv) = false)
include hmay hlost

theorem exec_sieveRetire_of_poisoned {e : Nat} (hpoison : x.poison = some e) :
    exec (.sieveRetire t die sv rows) s = .next ⟨s.pending, d.sieveEnds die sv x 0 0#5 (some e)⟩ := by
  rw [exec_sieveRetire, execSieveRetire, State.run_of_live hlive, hd]
  simp only [hrun, hbed, hmay, hlost, hpoison, Bool.not_true, Bool.or_self, Bool.false_eq_true, if_false]

theorem exec_sieveRetire_of_rows {w : SieveWalk} (hpoison : x.poison = none)
    (hrows : x.rowsOk (d.bedStopsEarly x.bed) rows = true)
    (hw : d.sieveWalk b.cfg die sv (SieveCmd.ofBytes x.cmd) x rows = w) :
    exec (.sieveRetire t die sv rows) s = .next ⟨s.pending,
      (w.dev.countWrap (.sieve die sv) Reg.SIEVE_ROWS.COUNT w.done).sieveEnds die sv x w.done w.flags w.cause⟩ := by
  rw [exec_sieveRetire, execSieveRetire, State.run_of_live hlive, hd]
  simp only [hrun, hbed, hmay, hlost, hpoison, hrows, hw, Bool.not_true, Bool.or_self, Bool.false_eq_true, if_false]

end

end

/-- Settles O21: each command by its rule; what an accepted item starts is `sieveNext`, and which rows may be done `rowsOk_iff`. -/
theorem sievesRunCommands : Obligations.SievesRunCommands := by
  unfold Obligations.SievesRunCommands
  refine ⟨?issue, ?start, ?retire⟩
  case issue =>
    intro s t die sv i x hlive d hi hbed b code d1 d2
    exact exec_sieveIssue_of_next hlive rfl hi hbed rfl
  case start =>
    intro s t die sv x b hlive d hrun hbed hstart hpoison hin hfresh p
    rw [exec_sieveStart_of_ready hlive rfl hrun hbed hstart hpoison hin, Dev.sieveBegins_of_fresh hfresh rfl]
  case retire =>
    intro s t die sv rows x b hlive d hrun hbed stops hmay hlost c
    exact ⟨fun e hpoison => exec_sieveRetire_of_poisoned hlive rfl hrun hbed hmay hlost hpoison,
      fun hpoison hrows => exec_sieveRetire_of_rows hlive rfl hrun hbed hmay hlost hpoison (SieveRun.rowsOk_iff.mpr hrows) rfl⟩

end Machine
end Sys2Proof
end

section
/-! PROOFS. Seed trays: TRAY_CLEAR, its end, and writes of SIEVE_TRAY_B (11 R276, R278, Table 11.9). -/
namespace Sys2Proof
namespace Machine

theorem exec_trayClear (t : Nat) (src : Source) (die sv : Nat) (s : State) :
    exec (.trayClear t src die sv) s = execTrayClear t src die sv s := rfl
theorem exec_trayClearDone (t die sv : Nat) (s : State) : exec (.trayClearDone t die sv) s = execTrayClearDone t die sv s := rfl
theorem exec_sieveTrayWrite (t : Nat) (src : Source) (die sv : Nat) (w : Word) (s : State) :
    exec (.sieveTrayWrite t src die sv w) s = execSieveTrayWrite t src die sv w s := rfl

/-! ### Tables less some of their keys -/

/-- Of a table less the keys that `q` drops, those read as their default and every other key as before. -/
theorem Tbl.get_filter {α : Type} {dflt : Nat → α} (q : Nat → Bool) (t : Tbl α) (k : Nat) :
    Tbl.get dflt (t.filter (fun e => q e.1)) k = if q k = true then Tbl.get dflt t k else dflt k := by
  induction t with
  | nil => exact (ite_self _).symm
  | cons e t ih =>
    rw [List.filter_cons]
    by_cases hk : k = e.1
    · subst hk
      cases hq : q e.1 <;> simp [hq, ih, Tbl.get]
    · split <;> simp [ih, Tbl.get, hk]

theorem Tbl.erase_of_not_listed {α : Type} {t : Tbl α} {k : Nat} (h : ∀ e ∈ t, e.1 ≠ k) : Tbl.erase t k = t := by
  induction t with
  | nil => rfl
  | cons e t ih =>
    obtain ⟨he, ht⟩ := List.forall_mem_cons.mp h
    rw [Tbl.erase, if_neg he.symm, ih ht]

/-! ### A tray of zeros -/

theorem trayIndex_div (die sv n : Nat) : trayIndex die sv n / 2 ^ 18 = die * 4 + sv := by
  unfold trayIndex
  omega

/-- The entries of the 32 Sieves have their syndromes below the keys of any other store. -/
theorem trayIndex_lt {die sv : Nat} (n : Nat) (hdie : die < 8) (hsv : sv < 4) : trayIndex die sv n < 2 ^ 44 := by
  unfold trayIndex
  omega

section
variable (d : Dev) (k i : Nat)

theorem Dev.renewTray_get_tray :
    Tbl.get (fun _ => none) (d.renewTray k 0).tray i = if i / 2 ^ 18 = k then none else Tbl.get (fun _ => none) d.tray i := by
  refine (Tbl.get_filter (fun j => j / 2 ^ 18 != k) d.tray i).trans ?_
  simp only [bne_iff_ne, ne_eq, ite_not]

theorem Dev.renewTray_get_trayFree :
    Tbl.get (fun _ => 0) (d.renewTray k 0).trayFree i = if i = k then 0 else Tbl.get (fun _ => 0) d.trayFree i := by
  have herase : (d.renewTray k 0).trayFree = d.trayFree.filter (fun e => e.1 != k) :=
    Tbl.erase_of_not_listed (fun e he => bne_iff_ne.mp (List.mem_filter.mp he).2)
  rw [herase]
  refine (Tbl.get_filter (fun j => j != k) d.trayFree i).trans ?_
  simp only [bne_iff_ne, ne_eq, ite_not]

/-- A tray without anything written on occasion 0 holds +0; every other tray is as it was (R278). -/
theorem Dev.renewTray_trayRaw : (d.renewTray k 0).trayRaw i = if i / 2 ^ 18 = k then 0#64 else d.trayRaw i := by
  rw [Dev.trayRaw, Dev.trayRaw, Dev.renewTray_get_tray, Dev.renewTray_get_trayFree]
  by_cases h : i / 2 ^ 18 = k
  · simp only [if_pos h]
  · simp only [if_neg h]

end

section
variable (d : Dev) (die sv : Nat) {i : Nat}

theorem Dev.clearTray_trayRaw : (d.clearTray die sv).trayRaw i = (d.renewTray (die * 4 + sv) 0).trayRaw i := rfl

/-- Only syndromes of the Sieve's own entries are dropped. -/
theorem Dev.clearTray_syndOf_tray : (d.clearTray die sv).syndOf (trayKey i) =
    if i < 2 ^ 44 ∧ i / 2 ^ 18 = die * 4 + sv then 0#8 else d.syndOf (trayKey i) := by
  refine (Tbl.get_filter (fun k => !(k / 2 ^ 44 == 3 && k % 2 ^ 44 / 2 ^ 18 == die * 4 + sv)) d.synd (trayKey i)).trans ?_
  have hkey : (trayKey i / 2 ^ 44 = 3 ∧ trayKey i % 2 ^ 44 / 2 ^ 18 = die * 4 + sv) ↔ i < 2 ^ 44 ∧ i / 2 ^ 18 = die * 4 + sv := by
    unfold trayKey
    omega
  simp only [Bool.not_eq_true', Bool.and_eq_false_iff, beq_eq_false_iff_ne, ← not_and_or, hkey, ite_not]
  rfl

theorem Dev.clearTray_trayWord_self (hi : i < 2 ^ 44) (h : i / 2 ^ 18 = die * 4 + sv) :
    (d.clearTray die sv).trayWord i = 0#64 := by
  rw [Dev.trayWord, Dev.clearTray_trayRaw, Dev.renewTray_trayRaw, if_pos h, Dev.clearTray_syndOf_tray, if_pos ⟨hi, h⟩]
  rfl

theorem Dev.clearTray_trayWord_of_ne (h : i / 2 ^ 18 ≠ die * 4 + sv) :
    (d.clearTray die sv).trayWord i = d.trayWord i := by
  rw [Dev.trayWord, Dev.clearTray_trayRaw, Dev.renewTray_trayRaw, if_neg h, Dev.clearTray_syndOf_tray,
    if_neg (fun hh => h hh.2), Dev.trayWord]

/-- A Sieve that takes its next command changes only its own state and registers. -/
theorem Dev.sieveNext_frame : ∃ sieves regs, d.sieveNext die sv = { d with sieves := sieves, regs := regs } := by
  unfold Dev.sieveNext
  dsimp only
  split
  · exact ⟨d.sieves, d.regs, rfl⟩
  · split
    · exact ⟨_, _, rfl⟩
    · exact ⟨d.sieves, d.regs, rfl⟩

end

/-! ### The commands -/

/-- A write of SIEVE_TRAY_B stores the whole entry while the Sieve is IDLE, else only sets CMD_IGN (Table 11.9). -/
theorem Dev.trayWritten_trayB (d : Dev) (die sv : Nat) (w : Word) :
    d.trayWritten die sv 0x28 w =
      if d.fld (.sieve die sv) Reg.SIEVE_STS.STATE = 0 then
        (d.setWord (.sieve die sv) 0x28 w).setTray (trayIndex die sv (d.fld (.sieve die sv) Reg.SIEVE_TRAY_IDX.ENTRY))
          (BitVec.ofNat 64 (w.toNat * 2 ^ 32 + (d.word (.sieve die sv) 0x24).toNat))
      else d.setFld (.sieve die sv) Reg.SIEVE_STS.CMD_IGN 1 := by
  rw [Dev.trayWritten]
  exact ite_not ..

/-- A clear that has lasted its 32,768 core cycles leaves the cleared device, but for the state and the registers of Sieves. -/
theorem exec_trayClearDone_of_due {s : State} {t die sv c : Nat} {e : Dev} (hlive : s.live (.sieve die sv))
    (he : s.dev.touch t = e) (hclear : (e.sieve die sv).clearT = some c) (hstate : e.fld (.sieve die sv) Reg.SIEVE_STS.STATE = 3)
    (hdue : c + 32768 * coreCycle ≤ e.now) :
    ∃ sieves regs, exec (.trayClearDone t die sv) s =
      .next ⟨s.pending, { e.clearTray die sv with sieves := sieves, regs := regs }⟩ := by
  rw [exec_trayClearDone, execTrayClearDone, State.run_of_live hlive, he]
  simp only [hclear, if_pos (And.intro hstate hdue)]
  obtain ⟨sieves, regs, hnext⟩ := Dev.sieveNext_frame (((e.clearTray die sv).setSieve die sv
    { e.sieve die sv with clearT := none }).setFld (.sieve die sv) Reg.SIEVE_STS.STATE 0) die sv
  exact ⟨sieves, regs, by rw [hnext]; rfl⟩

/-- Settles O22: the two writes by `trayClearCmd` and `trayWritten_trayB`, the end of a clear by what the cleared tray reads as. -/
theorem sieveTraysComplete : Obligations.SieveTraysComplete := by
  unfold Obligations.SieveTraysComplete
  refine ⟨?clear, ?done, ?write⟩
  case clear =>
    intro s t src die sv hacc d
    rw [exec_trayClear, execTrayClear]
    simp only [Dev.cmdRow]
    rw [State.access_accepted hacc, Dev.trayClearCmd]
  case done =>
    intro s t die sv c hdie hsv hlive e hclear hstate hdue
    obtain ⟨sieves, regs, hexec⟩ := exec_trayClearDone_of_due hlive rfl hclear hstate hdue
    refine ⟨_, hexec, fun n _ => ?_, fun die' sv' n hne _ => ?_, rfl, rfl, rfl, rfl, rfl⟩
    · exact Dev.clearTray_trayWord_self e die sv (trayIndex_lt n hdie hsv) (trayIndex_div die sv n)
    · exact Dev.clearTray_trayWord_of_ne e die sv (by rwa [trayIndex_div])
  case write =>
    intro s t src die sv w hacc d b
    rw [exec_sieveTrayWrite, execSieveTrayWrite, State.access_accepted hacc, Dev.trayWritten_trayB]

end Machine
end Sys2Proof
end

section
/-! PROOFS. Mower commands from issue to retirement (12 R291 to R298, R303, R305). -/
namespace Sys2Proof
namespace Machine

theorem exec_mowerIssue (t die : Nat) (s : State) : exec (.mowerIssue t die) s = execMowerIssue t die s := rfl
theorem exec_mowerNorm (t die : Nat) (s : State) : exec (.mowerNorm t die) s = execMowerNorm t die s := rfl
theorem exec_mowerUpdate (t die n : Nat) (s : State) : exec (.mowerUpdate t die n) s = execMowerUpdate t die n s := rfl
theorem exec_mowerCopy (t die n : Nat) (s : State) : exec (.mowerCopy t die n) s = execMowerCopy t die n s := rfl
theorem exec_mowerRetire (t die : Nat) (s : State) : exec (.mowerRetire t die) s = execMowerRetire t die s := rfl

/-- Without IMG_ACCUM, NORM writes the image of its own sum (R291). -/
theorem Dev.normOut_of_own {d : Dev} {c : MowCmd} (h : c.accum = false) (a : Long) : d.normOut c a = some a.bytes := by
  rw [Dev.normOut, h]
  rfl

/-- A command that has its input goes on where it has begun, and else begins, with MOW_BLOCKS at 0 (R305). -/
theorem Dev.mowGo_of_ready {d : Dev} {die op : Nat} {f : Dev → MowerRun → BedCfg → MowCmd → Dev} {x : MowerRun} {b : Bed}
    (hrun : (d.mower die).run = some x) (hbed : d.bed x.bed = some b) (hend : x.ended = false) (hskew : x.skew = false)
    (hpoison : x.poison = none) (hin : x.hasInput = true) (hlost : d.lost.contains (.mower die) = false)
    (hfresh : x.begun = false → d.mowStale x = false) (hop : (MowCmd.ofBytes x.cmd).op = op) :
    d.mowGo die op f =
      f (if x.begun then d else d.setFld (.mower die) Reg.MOW_BLOCKS.COUNT 0) x b.cfg (MowCmd.ofBytes x.cmd) := by
  simp only [Dev.mowGo, hrun, hbed, hop, hend, hskew, hpoison, hin, hlost, ne_eq, not_true_eq_false, decide_false,
    Option.isSome_none, Bool.not_true, Bool.or_self, Bool.false_eq_true, if_false]
  cases hbegun : x.begun with
  | true => rfl
  | false => simp only [hfresh hbegun, Bool.false_eq_true, if_false]

/-- A command without a slot, an input or a poison leaves its Mower to the next; MOW_STEP advances under END_STEP unless it was
held in SKEW (R293, R294). -/
theorem Dev.mowRetires_of_alone {d : Dev} {die : Nat} {x : MowerRun} (hclaim : x.claimed = none) (hin : x.input = none)
    (hpoison : x.poison = none) :
    d.mowRetires die x =
      let e := d.countOutcome die x
      let d1 := if (MowCmd.ofBytes x.cmd).endStep ∧ x.skew = false then
        e.setFld (.mower die) Reg.MOW_STEP.STEP ((e.fld (.mower die) Reg.MOW_STEP.STEP + 1) % 2 ^ 32) else e
      (((d1.setMower die { d1.mower die with run := none }).setFld (.mower die) Reg.MOW_STS.STATE 0).retireItem
        x.seq).mowerNext die := by
  simp only [Dev.mowRetires, hclaim, hin, hpoison, Option.isSome_none, Bool.false_and, Bool.false_eq_true, if_false, if_true,
    Bool.and_eq_true, Bool.not_eq_true']

section
variable {s : State} {t die : Nat} {d : Dev} (hlive : s.live (.mower die)) (hd : s.dev.touch t = d)
include hlive hd

/-- The item in turn is accepted, or refused with the code of its first failing check (R303, R305). -/
theorem exec_mowerIssue_of_next {i : Item} {code : Nat} (hi : d.nextItem die .mower 0 = some i)
    (hcode : d.mowRefusal die i.bed (MowCmd.ofBytes i.cfg.cmd) = code) :
    exec (.mowerIssue t die) s = .next ⟨s.pending,
      if code ≠ 0 then
        { (d.setFld (.mower die) Reg.MOW_STS.REFUSED 1).setFld (.mower die) Reg.MOW_STS.CAUSE code with
          items := d.items.filter (fun j => j.seq != i.seq) }.haltBed i.bed 3
      else (d.acceptItem i.seq).mowerNext die⟩ := by
  rw [exec_mowerIssue, execMowerIssue, State.run_of_live hlive, hd]
  simp only [hi, hcode]
  rw [Dev.setFld_items, Dev.setFld_items]

/-- A command that has ended and posts no barrow retires (R294, R305). -/
theorem exec_mowerRetire_of_ended {x : MowerRun} (hrun : (d.mower die).run = some x) (hend : x.ended = true)
    (hin : x.input = none) (hqueue : (MowCmd.ofBytes x.cmd).queue = 0xFFFF) :
    exec (.mowerRetire t die) s = .next ⟨s.pending, d.mowRetires die x⟩ := by
  have hfresh : d.mowStale x = false := by rw [Dev.mowStale, hin]
  rw [exec_mowerRetire, execMowerRetire, State.run_of_live hlive, hd]
  simp only [hrun, hend, hqueue, hfresh, bne_self_eq_false, Bool.true_or, Bool.not_true, Bool.false_and, Bool.and_false,
    Bool.or_self, Bool.false_eq_true, if_false]

section
variable {x : MowerRun} {b : Bed} (hrun : (d.mower die).run = some x) (hbed : d.bed x.bed = some b) (hend : x.ended = false)
  (hskew : x.skew = false) (hpoison : x.poison = none) (hin : x.hasInput = true)
  (hlost : d.lost.contains (.mower die) = false) {c : MowCmd} (hc : MowCmd.ofBytes x.cmd = c)
include hrun hbed hend hskew hpoison hin hlost hc

/-- NORM sums its gradient's squares and writes the image of the sum (R291). The equations name the device on its way: `d0` once the
Mower runs, `d1` once the gradient has met its checkers. -/
theorem exec_mowerNorm_of_summed {d0 d1 : Dev} {sum : Long} (hbegun : x.begun = false) (hfresh : d.mowStale x = false)
    (hop : c.op = 1) (haccum : c.accum = false)
    (hd0 : (d.setFld (.mower die) Reg.MOW_BLOCKS.COUNT 0).setFld (.mower die) Reg.MOW_STS.STATE 1 = d0)
    (hsum : Dev.normBlocks b.cfg die x.bed c c.blocks 0 d0 (Long.start false) = (d1, sum, none))
    (himg : d1.mowCause b.cfg c.img 0 96 true = none) :
    exec (.mowerNorm t die) s = .next ⟨s.pending, (d1.spanWrite c.img 0 sum.bytes).modMow die (fun y => { y with
      begun := true, ended := true, flags := sum.flags })⟩ := by
  subst hc
  have hcause : firstFault ([] ++ [d1.mowCause b.cfg (MowCmd.ofBytes x.cmd).img 0 96 true]) = none := by rw [himg]; rfl
  rw [exec_mowerNorm, execMowerNorm, State.run_of_live hlive, hd,
    Dev.mowGo_of_ready hrun hbed hend hskew hpoison hin hlost (fun _ => hfresh) hop]
  simp only [hbegun, Bool.false_eq_true, if_false, hd0, hsum, haccum, hcause, Dev.normOut_of_own haccum]

variable {n : Nat} {d0 : Dev} (hfresh : x.begun = false → d.mowStale x = false)
  (hd0 : (if x.begun then d else d.setFld (.mower die) Reg.MOW_BLOCKS.COUNT 0) = d0)
include hfresh hd0

/-- UPDATE writes its next blocks, its first ones once its tags are checked and its step formed (R292, R295 to R298). -/
theorem exec_mowerUpdate_of_ready (hop : c.op = 2) :
    exec (.mowerUpdate t die n) s = .next ⟨s.pending,
      Dev.mowBlocks b.cfg die c (min n c.blocks) (if x.begun then d0 else d0.beginUpdate die x b.cfg c)⟩ := by
  subst hc
  rw [exec_mowerUpdate, execMowerUpdate, State.run_of_live hlive, hd,
    Dev.mowGo_of_ready hrun hbed hend hskew hpoison hin hlost hfresh hop, hd0]

/-- COPY writes the next blocks of its working copy (R296). -/
theorem exec_mowerCopy_of_ready (hop : c.op = 3) :
    exec (.mowerCopy t die n) s = .next ⟨s.pending,
      Dev.mowBlocks b.cfg die c (min n c.blocks) ((d0.setFld (.mower die) Reg.MOW_STS.STATE 1).modMow die (fun y => { y with
        begun := true, ended := c.n == 0 }))⟩ := by
  subst hc
  rw [exec_mowerCopy, execMowerCopy, State.run_of_live hlive, hd,
    Dev.mowGo_of_ready hrun hbed hend hskew hpoison hin hlost hfresh hop, hd0]

end

end

/-- Settles O23: an item by the code of its first failing check (what an accepted one starts is `mowerNext`), a command by what
`mowGo` does with one that is ready, a retirement by `mowRetires_of_alone`. -/
theorem mowersRunCommands : Obligations.MowersRunCommands := by
  unfold Obligations.MowersRunCommands
  refine ⟨?issue, ?norm, ?blocks, ?retire⟩
  case issue =>
    intro s t die i hlive d hi b code d1 d2
    exact exec_mowerIssue_of_next hlive rfl hi rfl
  case norm =>
    intro s t die x b sum d1 hlive d0 hrun hbed hend hskew hpoison hbegun hin hfresh hlost c d hop haccum hsum himg
    exact exec_mowerNorm_of_summed hlive rfl hrun hbed hend hskew hpoison hin hlost rfl hbegun hfresh hop haccum rfl hsum himg
  case blocks =>
    intro s t die n x b hlive d hrun hbed hend hskew hpoison hin hlost hfresh c d0
    exact ⟨exec_mowerUpdate_of_ready hlive rfl hrun hbed hend hskew hpoison hin hlost rfl hfresh rfl,
      exec_mowerCopy_of_ready hlive rfl hrun hbed hend hskew hpoison hin hlost rfl hfresh rfl⟩
  case retire =>
    intro s t die x hlive d0 hrun hend hpoison hclaim hin c b hqueue d d1
    rw [exec_mowerRetire_of_ended hlive rfl hrun hend hin hqueue, Dev.mowRetires_of_alone hclaim hin hpoison]

end Machine
end Sys2Proof
end

section
/-! PROOFS. Writes to a Mower: ADOPT, DISCARD and mirrored registers (12 R292, R293, R301). -/
namespace Sys2Proof
namespace Machine

theorem exec_mowerAdopt (t : Nat) (src : Source) (die : Nat) (s : State) :
    exec (.mowerAdopt t src die) s = execMowerAdopt t src die s := rfl
theorem exec_mowerDiscard (t : Nat) (src : Source) (die : Nat) (s : State) :
    exec (.mowerDiscard t src die) s = execMowerDiscard t src die s := rfl
theorem exec_mowerMirrorWrite (t : Nat) (src : Source) (die o : Nat) (data : Word) (s : State) :
    exec (.mowerMirrorWrite t src die o data) s = execMowerMirrorWrite t src die o data s := rfl

/-! ### Their effects on the device -/

section
variable {d : Dev} {die : Nat}

theorem Dev.adoptCmd_of_not_skew (h : d.fld (.mower die) Reg.MOW_STS.STATE ≠ 3) :
    d.adoptCmd die = d.setFld (.mower die) Reg.MOW_STS.CMD_IGN 1 := by
  rw [Dev.adoptCmd, if_pos h]

/-- In SKEW, ADOPT takes the tags' step and runs the UPDATE where all of them are complete and of that step (R293). -/
theorem Dev.adoptCmd_of_skew {x : MowerRun} {v : Bed} {c : MowCmd} {step : Nat} (h : d.fld (.mower die) Reg.MOW_STS.STATE = 3)
    (hrun : (d.mower die).run = some x) (hbed : d.bed x.bed = some v) (hc : MowCmd.ofBytes x.cmd = c)
    (hstep : d.tagStep c 0 = step) :
    d.adoptCmd die =
      if (d.firstTagFault c step).isSome ∨ d.bedStopsEarly x.bed = true then d.setFld (.mower die) Reg.MOW_STS.CMD_IGN 1
      else (((d.setFld (.mower die) Reg.MOW_STEP.STEP step).setFld (.mower die) Reg.MOW_STS.STATE 1).modMow die (fun y => { y with
        skew := false })).startUpdate die { x with skew := false } v.cfg c := by
  rw [Dev.adoptCmd, if_neg (not_not.mpr h)]
  simp only [hrun, hbed, hc, hstep, Bool.or_eq_true]

theorem Dev.discardCmd_of_not_skew (h : d.fld (.mower die) Reg.MOW_STS.STATE ≠ 3) :
    d.discardCmd die = d.setFld (.mower die) Reg.MOW_STS.CMD_IGN 1 := by
  rw [Dev.discardCmd, if_pos h]

/-- In SKEW, DISCARD ends the command with nothing written (R293). -/
theorem Dev.discardCmd_of_skew (h : d.fld (.mower die) Reg.MOW_STS.STATE = 3) :
    d.discardCmd die = ((d.setFld (.mower die) Reg.MOW_STS.OUTCOME 3).setFld (.mower die) Reg.MOW_STS.STATE 2).modMow die
      (fun y => { y with ended := true }) := by
  rw [Dev.discardCmd, if_neg (not_not.mpr h)]

variable {o : Nat} {new : Word}

theorem Dev.mowMirrorWritten_of_no_bed (h : d.bedOfMower die = none) :
    d.mowMirrorWritten die o new = d.setWord (.mower die) o new := by
  rw [Dev.mowMirrorWritten, h]
  rfl

/-- A Mower of a bed takes a mirrored register as its lowest and IDLE, with the others to follow (R301). -/
theorem Dev.mowMirrorWritten_of_bed {n : Nat} {x : Bed} (h : d.bedOfMower die = some n) (hbed : d.bed n = some x) :
    d.mowMirrorWritten die o new =
      if x.cfg.mowers.head? ≠ some die then d.setFld (.mower die) Reg.MOW_STS.MIRROR_WR 1
      else if d.fld (.mower die) Reg.MOW_STS.STATE ≠ 0 then d.setFld (.mower die) Reg.MOW_STS.CMD_IGN 1
      else (x.cfg.mowers.drop 1).foldl (fun d m => d.setMower m { d.mower m with
        mirror := (d.mower m).mirror.filter (fun e => e.1 != o) ++ [(o, new)] }) (d.setWord (.mower die) o new) := by
  simp only [Dev.mowMirrorWritten, h, Option.bind_some, hbed]

end

/-! ### The accepted writes -/

section
variable {s : State} {t die : Nat} {src : Source}

theorem exec_mowerAdopt_of_accepted (h : s.accepts src (.mower die) 0x0) :
    exec (.mowerAdopt t src die) s = .next ⟨s.pending, (s.written t src (.mower die)).adoptCmd die⟩ := by
  rw [exec_mowerAdopt, execMowerAdopt]
  simp only [Dev.cmdRow]
  rw [State.access_accepted h]

theorem exec_mowerDiscard_of_accepted (h : s.accepts src (.mower die) 0x0) :
    exec (.mowerDiscard t src die) s = .next ⟨s.pending, (s.written t src (.mower die)).discardCmd die⟩ := by
  rw [exec_mowerDiscard, execMowerDiscard]
  simp only [Dev.cmdRow]
  rw [State.access_accepted h]

theorem exec_mowerMirrorWrite_of_accepted {o : Nat} {data : Word} {d : Dev} (hmirror : mowMirrored o = true)
    (h : s.accepts src (.mower die) o) (hd : s.written t src (.mower die) = d) :
    exec (.mowerMirrorWrite t src die o data) s = .next ⟨s.pending,
      d.mowMirrorWritten die o (writeMerge (.mower die) o .base data (d.word (.mower die) o))⟩ := by
  rw [exec_mowerMirrorWrite, execMowerMirrorWrite]
  simp only [hmirror, Bool.not_true, Bool.false_eq_true, if_false]
  rw [State.access_accepted h, hd]

end

/-- Settles O24: ADOPT and DISCARD by whether the Mower is in SKEW, a mirrored register by `mowMirrorWritten_of_bed`. -/
theorem mowerWritesComplete : Obligations.MowerWritesComplete := by
  unfold Obligations.MowerWritesComplete
  refine ⟨?skew, ?ignored, ?mirror⟩
  case skew =>
    intro s t src die x v hacc d b c step hstate hrun hbed
    rw [exec_mowerAdopt_of_accepted hacc, exec_mowerDiscard_of_accepted hacc, Dev.adoptCmd_of_skew hstate hrun hbed rfl rfl,
      Dev.discardCmd_of_skew hstate]
    exact ⟨rfl, rfl⟩
  case ignored =>
    intro s t src die hacc d hstate
    rw [exec_mowerAdopt_of_accepted hacc, exec_mowerDiscard_of_accepted hacc, Dev.adoptCmd_of_not_skew hstate,
      Dev.discardCmd_of_not_skew hstate]
    exact ⟨rfl, rfl⟩
  case mirror =>
    intro s t src die o data hmirror hacc d b new
    rw [exec_mowerMirrorWrite_of_accepted hmirror hacc rfl]
    refine ⟨fun hfree => by rw [Dev.mowMirrorWritten_of_no_bed hfree], fun n x hmower hbed => ?_⟩
    rw [Dev.mowMirrorWritten_of_bed hmower hbed]
    refine ⟨fun hother => ?_, fun hlowest hbusy => ?_, fun hlowest hidle => ?_⟩
    · rw [if_pos hother]
    · rw [if_neg (not_not.mpr hlowest), if_pos hbusy]
    · rw [if_neg (not_not.mpr hlowest), if_neg (not_not.mpr hidle)]

end Machine
end Sys2Proof
end

section
/-! PROOFS. Trug packets join their instances, or wait staged in HBM (13 R308, R320, R321). -/
namespace Sys2Proof
namespace Machine

theorem exec_trugPacketReceive (t p : Nat) (s : State) :
    exec (.trugPacketReceive t p) s = execTrugPacketReceive t p s := rfl

/-! ### A write to memory leaves the instances as they were -/

section
variable (d : Dev)

@[simp] theorem Dev.raiseVector_trugs (f v : Nat) : (d.raiseVector f v).trugs = d.trugs := by
  unfold Dev.raiseVector
  split_ifs <;> rfl

@[simp] theorem Dev.logIrq_trugs : d.logIrq.trugs = d.trugs := by simp [Dev.logIrq, Dev.raiseBoth]

@[simp] theorem Dev.logPush_trugs (e : LogEntry) : (d.logPush e).trugs = d.trugs := by
  unfold Dev.logPush
  split
  · rw [Dev.setFld_trugs, Dev.countSat_trugs]
  · dsimp only
    split_ifs <;> simp only [Dev.logIrq_trugs, Dev.setFld_trugs]

@[simp] theorem Dev.logCorrected_trugs (b : Blk) (bed addr : Nat) (s : BitVec 8) :
    (d.logCorrected b bed addr s).trugs = d.trugs := by
  unfold Dev.logCorrected
  split
  · exact Dev.logPush_trugs ..
  · rfl

@[simp] theorem Dev.countCorrected_trugs (k : Nat) : (d.countCorrected k).trugs = d.trugs := by
  unfold Dev.countCorrected
  split
  iterate 4 · rw [Dev.countSat_trugs, Dev.setFld_trugs]
  · rfl

@[simp] theorem Dev.countBad_trugs (k : Nat) : (d.countBad k).trugs = d.trugs := by
  unfold Dev.countBad
  split
  · rw [Dev.countSat_trugs, Dev.setFld_trugs]
  iterate 3 · rw [Dev.setFld_trugs, Dev.setFld_trugs, Dev.countSat_trugs, Dev.setFld_trugs]
  · rfl

@[simp] theorem Dev.noteWord_trugs (bed k : Nat) : (d.noteWord bed k).trugs = d.trugs := by
  unfold Dev.noteWord Dev.noteWordAs
  dsimp only
  split <;> simp

@[simp] theorem Dev.setCells_trugs (m : Mem) (c : List Host.Cell) : (d.setCells m c).trugs = d.trugs := by
  cases m <;> rfl

@[simp] theorem Dev.setSynd_trugs (k : Nat) (s : BitVec 8) : (d.setSynd k s).trugs = d.trugs := rfl

@[simp] theorem Dev.correctWord_trugs (m : Mem) (a b : Nat) : (d.correctWord m a b).trugs = d.trugs := by
  unfold Dev.correctWord
  split <;> simp

@[simp] theorem Dev.mergeWord_trugs (m : Mem) (a lo hi : Nat) (s : BitVec 8) : (d.mergeWord m a lo hi s).trugs = d.trugs := by
  unfold Dev.mergeWord
  split
  · rfl
  · split <;> simp

@[simp] theorem Dev.mergeWords_trugs (m : Mem) (a n : Nat) (s : BitVec 8) (k : Nat) :
    (d.mergeWords m a n s k).trugs = d.trugs := by
  induction k with
  | zero => rfl
  | succ k ih => exact (Dev.mergeWord_trugs ..).trans ih

theorem Dev.writeBytes_trugs (m : Mem) (a : Nat) (bs : List Byte) : (d.writeBytes m a bs).trugs = d.trugs := by
  unfold Dev.writeBytes Dev.writeWith
  split <;> simp [Dev.putBytes]

end

/-! ### The packet of a message -/

/-- A header beside `len` bytes of payload keeps the rules of Table 13.4 (R308), as TRUG_PACKET_RECEIVE checks it. -/
def TrugHead.shaped (h : TrugHead) (len : Nat) : Bool :=
  decide (1 ≤ h.type ∧ h.type ≤ 3) && h.zeros && (h.type == 2 || !h.mix) && (h.type != 1 || h.nflags == 0) &&
    (h.count == 0) == (len == 0) && (h.count == 0 || len % h.count == 0) && (!h.empty || h.count == 0)

theorem TrugHead.shaped_of {h : TrugHead} {len : Nat} (htype : 1 ≤ h.type ∧ h.type ≤ 3) (hzeros : h.zeros = true)
    (hmix : h.type ≠ 2 → h.mix = false) (hflags : h.type = 1 → h.nflags = 0) (hcount : h.count = 0 ↔ len = 0)
    (hunits : h.count ≠ 0 → len % h.count = 0) (hempty : h.empty = true → h.count = 0) : h.shaped len = true := by
  have hmix' : (h.type == 2 || !h.mix) = true := by
    rw [Bool.or_eq_true, beq_iff_eq, Bool.not_eq_true']
    exact or_iff_not_imp_left.mpr hmix
  have hflags' : (h.type != 1 || h.nflags == 0) = true := by
    rw [Bool.or_eq_true, bne_iff_ne, beq_iff_eq]
    exact not_or_of_imp hflags
  have hcount' : ((h.count == 0) == (len == 0)) = true := by
    rw [beq_iff_eq, Bool.eq_iff_iff, beq_iff_eq, beq_iff_eq]
    exact hcount
  have hunits' : (h.count == 0 || len % h.count == 0) = true := by
    rw [Bool.or_eq_true, beq_iff_eq, beq_iff_eq]
    exact or_iff_not_imp_left.mpr hunits
  have hempty' : (!h.empty || h.count == 0) = true := by
    rw [Bool.or_eq_true, Bool.not_eq_true', beq_iff_eq, ← Bool.not_eq_true]
    exact not_or_of_imp hempty
  simp only [TrugHead.shaped, decide_eq_true htype, hzeros, hmix', hflags', hcount', hunits', hempty', Bool.and_self]

/-- Packet `q` joins `x`, which takes its place `at_` among the instances, or comes after them where it has none yet. -/
def Dev.trugJoin (d : Dev) (at_ : Option Nat) (x : TrugInst) (q : TrugPkt) : Dev :=
  let y := { x with pkts := x.pkts ++ [q] }
  (if at_.isSome then d.setTrug (at_.getD d.trugs.length) y else { d with trugs := d.trugs ++ [y] }).trugProgress
    (at_.getD d.trugs.length)

theorem Dev.trugJoin_at {d : Dev} {at_ : Option Nat} {i : Nat} (hi : at_.getD d.trugs.length = i) (x : TrugInst) (q : TrugPkt) :
    d.trugJoin at_ x q =
      Dev.trugProgress (if at_.isSome then d.setTrug i { x with pkts := x.pkts ++ [q] }
        else { d with trugs := d.trugs ++ [{ x with pkts := x.pkts ++ [q] }] }) i := by
  subst hi
  rfl

/-- The packet of message `m` comes to `x` at place `at_`: a held one is staged in the share `l`, and stays in its port where there is
no room (R321). -/
def Dev.trugTake (d : Dev) (p l : Nat) (m : RxMsg) (at_ : Option Nat) (x : TrugInst) (held : Bool) : Dev :=
  let head := m.head.drop 32
  let len := m.fields.length
  let free := d.modPort p (fun x => x.freeMsg m)
  if held = false then free.trugJoin at_ x ⟨head, m.body.take len, none, false⟩
  else match d.stagePlace l len with
    | none => d.setFld .trug Reg.TRUG_STS.STAGE_FULL 1
    | some a => (free.writeBytes .hbm a (head ++ m.body.take len)).trugJoin at_ x ⟨head, [], some (a, len), false⟩

section
variable {s : State} {t p : Nat} {m : RxMsg} {h : TrugHead} {d : Dev} (hlive : s.live .trug) (hd : s.dev.touch t = d)
  (hmsg : (d.port p).firstMsg 1 = some m) (hh : TrugHead.ofBytes (m.head.drop 32) = h) (hshape : h.shaped m.fields.length = true)
include hlive hd hmsg hh hshape

/-- A packet of a group that is not valid, or of another epoch, is discarded, counted and noted (R308). -/
theorem exec_trugPacketReceive_of_foreign
    (hforeign : d.fldI .trug Reg.TRUG_GRP_CTL.VALID h.grp = 0 ∨ h.gepoch ≠ d.fldI .trug Reg.TRUG_GRP_EPOCH.EPOCH h.grp) :
    exec (.trugPacketReceive t p) s = .next ⟨s.pending,
      ((d.modPort p (fun x => x.freeMsg m)).countSat .trug Reg.TRUG_FOREIGN_CNT.COUNT 1).setFld .trug Reg.TRUG_STS.FOREIGN 1⟩ := by
  have hforeign' : (decide (d.fldI .trug Reg.TRUG_GRP_CTL.VALID h.grp = 0) ||
      h.gepoch != d.fldI .trug Reg.TRUG_GRP_EPOCH.EPOCH h.grp) = true := by
    rw [Bool.or_eq_true, decide_eq_true_eq, bne_iff_ne]
    exact hforeign
  unfold TrugHead.shaped at hshape
  rw [exec_trugPacketReceive, execTrugPacketReceive, State.run_of_live hlive, hd]
  simp only [hmsg, hh, hshape, hforeign', Bool.true_or, Bool.not_true, Bool.false_eq_true, if_false, if_true]

/-- A packet of its group and epoch, between members that may send it, comes to the oldest of its bucket's instances that its stream
is not complete in, or to a new one while one more may open (R308, R320). -/
theorem exec_trugPacketReceive_of_member (hvalid : d.fldI .trug Reg.TRUG_GRP_CTL.VALID h.grp ≠ 0)
    (hepoch : h.gepoch = d.fldI .trug Reg.TRUG_GRP_EPOCH.EPOCH h.grp) (hsrc : h.src < (d.members h.grp).length)
    (howner : h.owner < (d.members h.grp).length) (hknown : strangePacket h (d.members h.grp) (d.selfOf h.grp) = false)
    (hroom : (d.instOf h).isSome = true ∨ d.openTrugs (h.bucket % 2) < 4096) {x : TrugInst}
    (hx : ((d.instOf h).bind (fun i => d.trugs[i]?)).getD ⟨h.grp, h.bucket, none, [], [], false, false⟩ = x) :
    exec (.trugPacketReceive t p) s = .next ⟨s.pending, d.trugTake p (h.bucket % 2) m (d.instOf h) x
      (x.run.isNone || (h.type == 2 && !x.turn (d.members h.grp) (d.selfOf h.grp) h.src))⟩ := by
  have hroom' : ((d.instOf h).isNone && decide (4096 ≤ d.openTrugs (h.bucket % 2))) = false := by
    rcases hroom with hsome | hfew
    · rw [Option.isNone_eq_false_iff.mpr hsome, Bool.false_and]
    · rw [decide_eq_false (Nat.not_le.mpr hfew), Bool.and_false]
  have hepoch' : (h.gepoch != d.fldI .trug Reg.TRUG_GRP_EPOCH.EPOCH h.grp) = false := by rw [hepoch, bne_self_eq_false]
  unfold TrugHead.shaped at hshape
  rw [exec_trugPacketReceive, execTrugPacketReceive, State.run_of_live hlive, hd]
  simp only [hmsg, hh, hshape, hvalid, hepoch', Nat.not_le.mpr hsrc, Nat.not_le.mpr howner, hknown, hroom', hx, decide_false,
    Bool.or_self, Bool.not_true, Bool.false_eq_true, if_false, Bool.not_eq_true']
  cases hheld : x.run.isNone || (h.type == 2 && !x.turn (d.members h.grp) (d.selfOf h.grp) h.src) with
  | false => rw [if_pos rfl, Dev.trugTake, if_pos rfl, Dev.trugJoin]
  | true =>
    cases hplace : d.stagePlace (h.bucket % 2) m.fields.length with
    | none => simp only [Dev.trugTake, hplace, Bool.true_eq_false, if_false]
    | some a => simp only [Dev.trugTake, Dev.trugJoin, hplace, Bool.true_eq_false, if_false]

end

/-- Settles O26: a foreign packet by `exec_trugPacketReceive_of_foreign`, a member's by whether it is held and finds a place. -/
theorem trugPacketsComplete : Obligations.TrugPacketsComplete := by
  unfold Obligations.TrugPacketsComplete
  intro s t p m hlive d hmsg head h len ms self htype hzeros hmix hflags hcount hunits hempty free
  have hshape : h.shaped len = true := TrugHead.shaped_of htype hzeros hmix hflags hcount hunits hempty
  refine ⟨exec_trugPacketReceive_of_foreign hlive rfl hmsg rfl hshape, ?member⟩
  intro hvalid hepoch hsrc howner hknown at_ hroom x held i join
  have hexec : exec (.trugPacketReceive t p) s = .next ⟨s.pending, d.trugTake p (h.bucket % 2) m at_ x held⟩ :=
    exec_trugPacketReceive_of_member hlive rfl hmsg rfl hshape hvalid hepoch hsrc howner hknown hroom rfl
  refine ⟨fun hfree => ?free, fun hheld hfull => ?full, fun a hheld hplace => ?staged⟩
  case free =>
    have htrugs : free.trugs = d.trugs := rfl
    rw [hexec, Dev.trugTake, if_pos hfree, Dev.trugJoin_at (congrArg at_.getD (congrArg List.length htrugs))]
  case full =>
    rw [hexec, Dev.trugTake, if_neg ((Bool.not_eq_false _).mpr hheld), hfull]
  case staged =>
    have htrugs : (free.writeBytes .hbm a (head ++ m.body.take len)).trugs = d.trugs := Dev.writeBytes_trugs ..
    rw [hexec, Dev.trugTake, if_neg ((Bool.not_eq_false _).mpr hheld), hplace]
    dsimp only
    rw [Dev.trugJoin_at (congrArg at_.getD (congrArg List.length htrugs))]

end Machine
end Sys2Proof
end

section
/-! PROOFS. Trug instances close; PURGE and VALID of groups (13 R307, R320, R327). -/
namespace Sys2Proof
namespace Machine

theorem exec_trugInstanceClose (t grp bucket : Nat) (s : State) :
    exec (.trugInstanceClose t grp bucket) s = execTrugInstanceClose t grp bucket s := rfl
theorem exec_trugPurge (t : Nat) (src : Source) (g : Nat) (s : State) : exec (.trugPurge t src g) s = execTrugPurge t src g s := rfl
theorem exec_groupValidate (t : Nat) (src : Source) (g : Nat) (s : State) :
    exec (.groupValidate t src g) s = execGroupValidate t src g s := rfl

/-- TRUG lies on no die and IDLE leaves its clock running: an accepted write there is answered, and nothing else comes before its
effect. -/
theorem State.written_trug (s : State) (t : Nat) (src : Source) :
    s.written t src .trug = (s.dev.touch t).emit [.answer src .done] := by
  simp [State.written, Dev.wakeIdle, Blk.idleStops, Blk.dieOf]

/-! ### PURGE -/

/-- A base write puts its bits into a range of stored bits (Table 4.2). -/
theorem bitsOf_writeMerge_base {b : Blk} {o hi lo : Nat} (data old : Word) (hhi : hi < 32)
    (hstored : ∀ i, lo ≤ i → i ≤ hi → (b.storedMask o).testBit i = true) :
    bitsOf (writeMerge b o .base data old).toNat hi lo = bitsOf data.toNat hi lo := by
  apply Nat.eq_of_testBit_eq
  intro i
  rw [bitsOf_testBit, bitsOf_testBit]
  by_cases hi' : i < hi + 1 - lo
  · rw [BitVec.testBit_toNat, BitVec.testBit_toNat, writeMerge_base_bit b o data old (by omega),
      if_pos (hstored (lo + i) (by omega) (by omega))]
  · rw [decide_eq_false hi', Bool.false_and, Bool.false_and]

/-- TRUG_CTL stores its bits 15 to 12, GROUP (Table 13.5). -/
theorem trugCtl_stores_group (i : Nat) (hlo : 12 ≤ i) (hhi : i ≤ 15) : (Blk.trug.storedMask 0x0).testBit i = true := by
  have hmask : bitsOf (Blk.trug.storedMask 0x0) 15 12 = 0xF := by decide +kernel
  have hbit : (0xF : Nat).testBit (i - 12) = true := Nat.testBit_two_pow_sub_one 4 (i - 12) ▸ decide_eq_true (by omega)
  rw [← hmask, bitsOf_testBit, Nat.add_sub_cancel' hlo] at hbit
  exact (Bool.and_eq_true_iff.mp hbit).2

/-- GROUP holds the group that a PURGE names. -/
theorem bitsOf_group_writeMerge {g : Nat} (hg : g < 16) (old : Word) :
    bitsOf (writeMerge .trug 0x0 .base (BitVec.ofNat 32 (g % 16 * 2 ^ 12)) old).toNat 15 12 = g := by
  rw [bitsOf_writeMerge_base _ _ (by omega) trugCtl_stores_group, bitsOf_toNat_ofNat (by omega), bitsOf, Nat.shiftRight_eq_div_pow]
  omega

theorem Dev.trugCtlWritten_purge (d : Dev) (new : Word) :
    d.trugCtlWritten new 1#32 = (d.setWord .trug 0x0 new).purgeGroup (bitsOf new.toNat 15 12) := rfl

section
variable (d : Dev) (g : Nat)

theorem Dev.purgeGroup_trugs : (d.purgeGroup g).trugs = d.trugs.filter (fun x => x.grp != g) := rfl
theorem Dev.purgeGroup_items : (d.purgeGroup g).items = d.items := rfl
theorem Dev.purgeGroup_beds : (d.purgeGroup g).beds = d.beds := rfl

end

/-- A PURGE writes TRUG_CTL and ends its group's instances (R327). -/
theorem exec_trugPurge_of_accepted {s : State} {t g : Nat} {src : Source} {d : Dev} (h : s.accepts src .trug 0x0) (hg : g < 16)
    (hd : s.written t src .trug = d) :
    exec (.trugPurge t src g) s = .next ⟨s.pending,
      (d.setWord .trug 0x0 (writeMerge .trug 0x0 .base (BitVec.ofNat 32 (g % 16 * 2 ^ 12)) (d.word .trug 0x0))).purgeGroup g⟩ := by
  rw [exec_trugPurge, execTrugPurge, State.access_accepted h, hd, Dev.trugCtlWritten_purge, bitsOf_group_writeMerge hg]

/-! ### Closing, and VALID of a group -/

/-- A command that posts no barrow, or has its slot, does not keep its place from closing (R320). -/
theorem exec_trugInstanceClose_of_open {s : State} {t grp bucket i : Nat} {x : TrugInst} {r : TrugRun} {b : Bed} {d : Dev}
    (hlive : s.live .trug) (hd : s.dev.touch t = d)
    (hi : d.trugs.findIdx? (fun x => x.grp == grp && x.bucket == bucket && x.run.isSome && !x.closed) = some i)
    (hx : d.trugs[i]? = some x) (hrun : x.run = some r) (hbed : d.bed r.bed = some b)
    (hslot : (TrugCmd.ofBytes r.cmd).queue = 0xFFFF ∨ r.claimed ≠ none) :
    exec (.trugInstanceClose t grp bucket) s = .next ⟨s.pending, d.closeTrug i x r b.cfg⟩ := by
  have hgo : ¬((TrugCmd.ofBytes r.cmd).queue ≠ 0xFFFF ∧ r.claimed = none) :=
    fun hwait => hslot.elim hwait.1 (fun hclaimed => hclaimed hwait.2)
  rw [exec_trugInstanceClose, execTrugInstanceClose, State.run_of_live hlive, hd]
  simp only [hi, hx, hrun, hbed, if_neg hgo]

/-- VALID = 1 is ignored while it is 1, and else taken as the table keeps the rules of R307. -/
theorem Dev.grpCtlWritten_of_valid {d : Dev} {g : Nat} {new : Word} (hon : new.toNat.testBit 0 = true) :
    d.grpCtlWritten g new =
      let d1 := d.noteFrom 0xFF (.lodge d.wardenLodge)
        (Mem.hbm.wordsOf (d.memberBase g) (8 * min (d.fldI .trug Reg.TRUG_GRP_COUNT.COUNT g) 32768))
      if d.fldI .trug Reg.TRUG_GRP_CTL.VALID g = 1 then d.setFld .trug Reg.TRUG_STS.CMD_IGN 1
      else if d.groupOk g then
        ((d1.setWord .trug (0x100 + g * 0x20) new).setFldI .trug Reg.TRUG_GRP_SELF.VALID g 1).setFldI .trug
          Reg.TRUG_GRP_SELF.MEMBER g ((d.members g).findIdx (fun m => m.dev == d.devId))
      else (d1.setWord .trug (0x100 + g * 0x20) (new &&& ~~~1#32)).setFld .trug Reg.TRUG_STS.GRP_BAD 1 := by
  simp only [Dev.grpCtlWritten, hon, Bool.and_true, decide_eq_true_eq, Bool.not_true, Bool.false_eq_true, if_false]

/-- Settles O27: closing and VALID by their rules, a PURGE by `exec_trugPurge_of_accepted` and what `purgeGroup` leaves. -/
theorem trugGroupsComplete : Obligations.TrugGroupsComplete := by
  unfold Obligations.TrugGroupsComplete
  refine ⟨?close, ?purge, ?valid⟩
  case close =>
    intro s t grp bucket i x r b hlive d hi hx hrun hbed hslot
    exact exec_trugInstanceClose_of_open hlive rfl hi hx hrun hbed hslot
  case purge =>
    intro s t src g hacc hg
    refine ⟨_, exec_trugPurge_of_accepted hacc hg (State.written_trug ..), ?trugs, ?mems, ?items, ?beds⟩
    case trugs => rw [Dev.purgeGroup_trugs, Dev.setWord_trugs, Dev.emit_trugs, Dev.touch_trugs]
    case mems => rw [Dev.purgeGroup_mems, Dev.setWord_mems, Dev.emit_mems, Dev.touch_mems]
    case items => rw [Dev.purgeGroup_items, Dev.setWord_items, Dev.emit_items]
    case beds => rw [Dev.purgeGroup_beds, Dev.setWord_beds, Dev.emit_beds]
  case valid =>
    intro s t src g hacc d new d1 hon
    rw [exec_groupValidate, execGroupValidate, State.access_accepted hacc, Dev.grpCtlWritten_of_valid hon]

end Machine
end Sys2Proof
end

section
/-! PROOFS. A quarter on the wire is decoded to what was sent (14 R333 to R335). -/
namespace Sys2Proof
namespace Machine

/-! ### Bytes cut into pieces of one length -/

theorem leBytes_leNat {bs : List Byte} {n : Nat} (h : bs.length = n) : leBytes n (leNat bs) = bs := by
  subst h
  induction bs with
  | nil => rfl
  | cons b bs ih =>
    have hrest : (b.toNat + 256 * leNat bs) / 256 = leNat bs := by
      rw [Nat.add_mul_div_left _ _ (by decide), Nat.div_eq_of_lt b.isLt, Nat.zero_add]
    have hfirst : BitVec.ofNat 8 (b.toNat + 256 * leNat bs) = b := by
      apply BitVec.eq_of_toNat_eq
      rw [BitVec.toNat_ofNat, Nat.add_mul_mod_self_left, Nat.mod_eq_of_lt b.isLt]
    rw [leNat, List.length_cons, leBytes, hfirst, hrest, ih]

section
variable {α : Type} {n k : Nat}

theorem length_pieces (n k : Nat) (xs : List α) : (pieces n k xs).length = k := by
  induction k generalizing xs with
  | zero => rfl
  | succ k ih => rw [pieces, List.length_cons, ih]

theorem flatten_pieces {xs : List α} (h : xs.length = n * k) : (pieces n k xs).flatten = xs := by
  induction k generalizing xs with
  | zero => exact (List.eq_nil_of_length_eq_zero h).symm
  | succ k ih =>
    rw [pieces, List.flatten_cons, ih (by rw [List.length_drop, h, Nat.mul_succ, Nat.add_sub_cancel]), List.take_append_drop]

theorem length_of_mem_pieces {xs ys : List α} (h : xs.length = n * k) (hy : ys ∈ pieces n k xs) : ys.length = n := by
  induction k generalizing xs with
  | zero => cases hy
  | succ k ih =>
    rw [Nat.mul_succ] at h
    rcases List.mem_cons.mp hy with rfl | hy
    · rw [List.length_take, h, Nat.min_eq_left (Nat.le_add_left ..)]
    · exact ih (by rw [List.length_drop, h, Nat.add_sub_cancel]) hy

/-- Lists of one length that were joined are cut apart again. -/
theorem pieces_flatten {xss : List (List α)} (h : ∀ xs ∈ xss, xs.length = n) : pieces n xss.length xss.flatten = xss := by
  induction xss with
  | nil => rfl
  | cons xs xss ih =>
    have hxs := h xs List.mem_cons_self
    rw [List.length_cons, List.flatten_cons, pieces, List.take_left' hxs, List.drop_left' hxs,
      ih (fun ys hys => h ys (List.mem_cons_of_mem _ hys))]

end

/-! ### A word under a mask -/

theorem hedgeCheck_eq_clean_iff (s : BitVec 8) : hedgeCheck s = .clean ↔ s = 0#8 := by
  unfold hedgeCheck
  split
  · simp [*]
  · split <;> simp [*]

theorem hedgeCheck_zero : hedgeCheck 0#8 = .clean := (hedgeCheck_eq_clean_iff _).mpr rfl

/-- A word needs no correction under a mask alone that its syndrome is. -/
theorem wordCost_eq_zero_iff (w : List Byte) (m : BitVec 8) : wordCost w m = some 0 ↔ rxSyndrome w = m := by
  rw [← BitVec.xor_eq_zero_iff, ← hedgeCheck_eq_clean_iff, wordCost]
  cases hedgeCheck (rxSyndrome w ^^^ m) <;> simp

theorem quarterCost_eq_zero_iff (m : BitVec 8) (ws : List (List Byte)) :
    quarterCost m ws = some 0 ↔ ∀ w ∈ ws, rxSyndrome w = m := by
  induction ws with
  | nil => simp [quarterCost]
  | cons w ws ih =>
    rw [List.forall_mem_cons, ← ih, ← wordCost_eq_zero_iff, quarterCost]
    cases wordCost w m <;> cases quarterCost m ws <;> simp

section
variable {setB : Bool} {tag : Nat} {bs : List Byte}

theorem wireWord_eq (h : bs.length = 8) :
    wireWord setB tag bs = bs ++ [hedgeByte (leNat bs) ^^^ frameMask setB tag] := by
  rw [wireWord, leBytes_leNat h]

theorem length_wireWord : (wireWord setB tag bs).length = 9 := by
  rw [wireWord, List.length_append, length_leBytes]
  rfl

/-- The mask is all that a sent word's syndrome holds. -/
theorem rxSyndrome_wireWord (h : bs.length = 8) : rxSyndrome (wireWord setB tag bs) = frameMask setB tag := by
  rw [wireWord_eq h, rxSyndrome, List.take_left' h, List.getD_append_right _ _ _ _ h.le, h, Nat.sub_self, List.getD_cons_zero,
    ← BitVec.xor_assoc, BitVec.xor_self, BitVec.zero_xor]

theorem rxWord_wireWord (h : bs.length = 8) : rxWord (frameMask setB tag) (wireWord setB tag bs) = bs := by
  have hclean : hedgeCheck (rxSyndrome (wireWord setB tag bs) ^^^ frameMask setB tag) = .clean := by
    rw [rxSyndrome_wireWord h, BitVec.xor_self, hedgeCheck_zero]
  rw [rxWord, hclean, wireWord_eq h, List.take_left' h]
  exact leBytes_leNat h

end

/-! ### The pair of a quarter -/

theorem mem_framePairs {setB : Bool} {tag : Nat} (h : tag < 16) : (setB, tag) ∈ framePairs := by
  cases setB <;> simpa [framePairs] using h

/-- No two pairs have one mask (R334). -/
theorem nodup_frameMask : (framePairs.map (fun p => frameMask p.1 p.2)).Nodup := by decide

theorem frameMask_inj {p q : Bool × Nat} (hp : p ∈ framePairs) (hq : q ∈ framePairs) :
    frameMask p.1 p.2 = frameMask q.1 q.2 ↔ p = q :=
  ⟨fun h => List.inj_on_of_nodup_map nodup_frameMask hp hq h, fun h => h ▸ rfl⟩

theorem foldl_min_le {α : Type} (xs : List (α × Nat)) (a : Nat) :
    xs.foldl (fun m y => min m y.2) a ≤ a ∧ ∀ y ∈ xs, xs.foldl (fun m y => min m y.2) a ≤ y.2 := by
  induction xs generalizing a with
  | nil => exact ⟨le_rfl, fun _ h => by cases h⟩
  | cons x xs ih =>
    obtain ⟨hle, hall⟩ := ih (min a x.2)
    refine ⟨hle.trans (Nat.min_le_left ..), fun y hy => ?_⟩
    rcases List.mem_cons.mp hy with rfl | hy
    · exact hle.trans (Nat.min_le_right ..)
    · exact hall y hy

/-- Of the priced members of a list those of price 0 are the one that alone has it. -/
theorem filter_price_zero {α : Type} [BEq α] [LawfulBEq α] {price : α → Option Nat} {p : α} {l : List α}
    (h : ∀ q ∈ l, price q = some 0 ↔ q = p) :
    (l.filterMap (fun q => (price q).map (fun c => (q, c)))).filter (fun y => y.2 == 0) = List.replicate (l.count p) (p, 0) := by
  induction l with
  | nil => rfl
  | cons q l ih =>
    obtain ⟨hq, hl⟩ := List.forall_mem_cons.mp h
    by_cases hqp : q = p
    · subst hqp
      rw [List.filterMap_cons_some (by rw [hq.mpr rfl]; rfl), List.filter_cons_of_pos rfl, ih hl, List.count_cons_self,
        List.replicate_succ]
    · rw [List.count_cons_of_ne hqp, ← ih hl]
      cases hc : price q with
      | none => rw [List.filterMap_cons_none (by rw [hc]; rfl)]
      | some c =>
        have hc0 : c ≠ 0 := fun h0 => hqp (hq.mp (by rw [hc, h0]))
        rw [List.filterMap_cons_some (by rw [hc]; rfl), List.filter_cons_of_neg (by simpa using hc0)]

/-- A receiver settles on the pair that alone needs no correction (R335). -/
theorem rxQuarter_of_cost_zero {bs : List Byte} {p : Bool × Nat} (hp : p ∈ framePairs)
    (h : ∀ q ∈ framePairs, quarterCost (frameMask q.1 q.2) (pieces 9 8 bs) = some 0 ↔ q = p) :
    rxQuarter bs = some ⟨p.1, p.2, (pieces 9 8 bs).flatMap (rxWord (frameMask p.1 p.2)), 0⟩ := by
  have hone := filter_price_zero h
  rw [List.count_eq_one_of_mem (List.Nodup.of_map _ nodup_frameMask) hp, List.replicate_one] at hone
  unfold rxQuarter
  dsimp only
  generalize framePairs.filterMap _ = ok at hone ⊢
  have hmem : (p, 0) ∈ ok := List.mem_of_mem_filter (hone ▸ List.mem_singleton.mpr rfl)
  cases ok with
  | nil => cases hmem
  | cons x xs =>
    have hleast : xs.foldl (fun m y => min m y.2) x.2 = 0 := by
      obtain ⟨hle, hall⟩ := foldl_min_le xs x.2
      rcases List.mem_cons.mp hmem with rfl | hmem
      · exact Nat.le_zero.mp hle
      · exact Nat.le_zero.mp (hall _ hmem)
    simp only [hleast, hone]

section
variable {setB : Bool} {tag : Nat} {bs : List Byte}

theorem wireQuarter_eq_flatten : wireQuarter setB tag bs = ((pieces 8 8 bs).map (wireWord setB tag)).flatten :=
  List.flatMap_def ..

theorem pieces_wireQuarter : pieces 9 8 (wireQuarter setB tag bs) = (pieces 8 8 bs).map (wireWord setB tag) := by
  have hcut := pieces_flatten (n := 9) (xss := (pieces 8 8 bs).map (wireWord setB tag))
    (List.forall_mem_map.mpr fun _ _ => length_wireWord)
  rwa [List.length_map, length_pieces, ← wireQuarter_eq_flatten] at hcut

/-- A quarter as it was sent is decoded to its set, tag and data (R333 to R335). -/
theorem rxQuarter_wireQuarter (htag : tag < 16) (hlen : bs.length = 64) :
    rxQuarter (wireQuarter setB tag bs) = some ⟨setB, tag, bs, 0⟩ := by
  have h8 : ∀ ys ∈ pieces 8 8 bs, ys.length = 8 := fun ys hys => length_of_mem_pieces hlen hys
  have hmem := mem_framePairs (setB := setB) htag
  have hcost : ∀ q ∈ framePairs,
      quarterCost (frameMask q.1 q.2) (pieces 9 8 (wireQuarter setB tag bs)) = some 0 ↔ q = (setB, tag) := by
    intro q hq
    rw [quarterCost_eq_zero_iff, pieces_wireQuarter, List.forall_mem_map, eq_comm (a := q), ← frameMask_inj hmem hq]
    have hne : pieces 8 8 bs ≠ [] := List.ne_nil_of_length_eq_add_one (length_pieces 8 8 bs)
    obtain ⟨w, hw⟩ := List.exists_mem_of_ne_nil _ hne
    exact ⟨fun h => (rxSyndrome_wireWord (h8 w hw)).symm.trans (h w hw),
      fun h ys hys => (rxSyndrome_wireWord (h8 ys hys)).trans h⟩
  have hdata : (pieces 9 8 (wireQuarter setB tag bs)).flatMap (rxWord (frameMask setB tag)) = bs := by
    rw [pieces_wireQuarter, List.flatMap_map, List.flatMap_congr (fun ys hys => rxWord_wireWord (h8 ys hys)), List.flatMap_id',
      flatten_pieces hlen]
  rw [rxQuarter_of_cost_zero hmem hcost, hdata]

end

/-- Settles O30: the sent pair alone needs no correction, and under its mask each word is what was sent. -/
theorem flitQuartersDecode : Obligations.FlitQuartersDecode := by
  unfold Obligations.FlitQuartersDecode
  exact fun setB tag bs htag hlen => rxQuarter_wireQuarter htag hlen

end Machine
end Sys2Proof
end

section
/-! PROOFS. Ports are trained, retrained, taken down and cleared (14 R331, R343, Table 14.10). -/
namespace Sys2Proof
namespace Machine

theorem exec_linkEnable (t : Nat) (src : Source) (p : Nat) (s : State) :
    exec (.linkEnable t src p) s = execLinkEnable t src p s := rfl
theorem exec_portRetrain (t : Nat) (src : Source) (p : Nat) (s : State) :
    exec (.portRetrain t src p) s = execPortRetrain t src p s := rfl
theorem exec_portDown (t : Nat) (src : Source) (p : Nat) (s : State) :
    exec (.portDown t src p) s = execPortDown t src p s := rfl
theorem exec_portClear (t : Nat) (src : Source) (p : Nat) (s : State) :
    exec (.portClear t src p) s = execPortClear t src p s := rfl
theorem exec_linkTrainDone (t p dev node delay width : Nat) (s : State) :
    exec (.linkTrainDone t p dev node delay width) s = execLinkTrainDone t p dev node delay width s := rfl
theorem exec_linkTrainFail (t p : Nat) (s : State) : exec (.linkTrainFail t p) s = execLinkTrainFail t p s := rfl

/-- A command of OB_CTL that is accepted has its effect. -/
theorem State.obCtlRow_accepted {s : State} {t p : Nat} {src : Source} {f : Dev → Dev} (h : s.accepts src (.obotil p) 0x0) :
    s.access t src (.obotil p) (fun d => d.obCtlRow src p f) = .next ⟨s.pending, f (s.written t src (.obotil p))⟩ :=
  State.access_accepted h

/-- Setting ENABLE of a disabled port starts its training; of another it changes nothing (R331). -/
theorem Dev.portEnable_true (d : Dev) (p : Nat) : d.portEnable p true =
    if d.portState p = 0 then (d.setFld (.obotil p) Reg.OB_STS.STATE 1).modPort p PortSt.anew else d := by
  simp only [Dev.portEnable, Bool.true_and, beq_iff_eq, if_true]

/-- A write of OB_CTL with ENABLE set and no command. -/
theorem Dev.obCtlWritten_enable (d : Dev) (p : Nat) {new w : Word} (hon : new.toNat.testBit 0 = true)
    (hw : w = BitVec.ofNat 32 (putBits new.toNat 7 4 0)) :
    d.obCtlWritten p new 0#32 = (d.setWord (.obotil p) 0x0 w).portEnable p true := by
  simp only [Dev.obCtlWritten, hon, ← hw]
  rfl

section
variable {s : State} {t p : Nat} {d : Dev} (hlive : s.live (.obotil p)) (hd : s.dev.touch t = d)
include hlive hd

theorem exec_linkTrainDone_of_widthOk {dev node delay width : Nat} (hstate : d.portState p = 1 ∨ d.portState p = 3)
    (hwidth : d.widthOk p width = true) :
    exec (.linkTrainDone t p dev node delay width) s = .next ⟨s.pending, d.portComesUp p dev node delay width⟩ := by
  have htrains : ((d.portState p == 1 || d.portState p == 3) && d.widthOk p width) = true := by simpa [hwidth] using hstate
  rw [exec_linkTrainDone, execLinkTrainDone, State.run_of_live hlive, hd, if_pos htrains]

theorem exec_linkTrainFail_of_retrain (hstate : d.portState p = 3) :
    exec (.linkTrainFail t p) s = .next ⟨s.pending,
      if 2 ≤ (d.port p).fails then d.portGoesDown p else d.modPort p (fun x => { x with fails := x.fails + 1 })⟩ := by
  rw [exec_linkTrainFail, execLinkTrainFail, State.run_of_live hlive, hd, if_pos hstate]
  simp only [Nat.reduceLeDiff]

end

/-- Settles O28: OB_CTL's commands as accepted writes, the ends of training by their rules. -/
theorem portCommandsComplete : Obligations.PortCommandsComplete := by
  unfold Obligations.PortCommandsComplete
  refine ⟨?commands, ?done, ?fail⟩
  case commands =>
    intro s t src p hacc d b st
    rw [exec_portRetrain, execPortRetrain, exec_portDown, execPortDown, exec_portClear, execPortClear, exec_linkEnable,
      execLinkEnable, State.obCtlRow_accepted hacc, State.obCtlRow_accepted hacc, State.obCtlRow_accepted hacc,
      State.obCtlRow_accepted hacc]
    refine ⟨rfl, rfl, rfl, fun w hw => ?_⟩
    rw [Dev.obCtlWritten_enable _ p testBit_zero_or_one hw, Dev.portEnable_true]
  case done =>
    intro s t p dev node delay width hlive d b hstate hwidth
    exact exec_linkTrainDone_of_widthOk hlive rfl hstate hwidth
  case fail =>
    intro s t p hlive hstate d
    exact exec_linkTrainFail_of_retrain hlive rfl hstate

end Machine
end Sys2Proof
end

section
/-! PROOFS. Flits are sent, judged, acknowledged and replayed (14 R336, R337, R341 to R344). -/
namespace Sys2Proof
namespace Machine

theorem exec_flitTransmit (t p : Nat) (s : State) : exec (.flitTransmit t p) s = execFlitTransmit t p s := rfl
theorem exec_dataFlitReceive (t p : Nat) (bytes : List Byte) (s : State) :
    exec (.dataFlitReceive t p bytes) s = execDataFlitReceive t p bytes s := rfl
theorem exec_linkFlitReceive (t p : Nat) (bytes : List Byte) (s : State) :
    exec (.linkFlitReceive t p bytes) s = execLinkFlitReceive t p bytes s := rfl
theorem exec_replayTimeout (t p : Nat) (s : State) : exec (.replayTimeout t p) s = execReplayTimeout t p s := rfl

/-! ### The scheduler -/

/-- No short flit goes out: none is pending, or no credit is left for one. -/
theorem PortSt.short_of_none {x : PortSt} (h : x.credit 3 = false ∨ nextShort x.short = none) :
    (if x.credit 3 = true then nextShort x.short else none) = none := by
  rcases h with h | h
  · rw [if_neg (Bool.eq_false_iff.mp h)]
  · rw [h, ite_self]

section
variable {s : State} {t p : Nat} {d : Dev} {x : PortSt} (hlive : s.live (.obotil p)) (hd : s.dev.touch t = d)
  (hup : d.portUp p = true) (hx : d.port p = x)
include hlive hd hup hx

theorem exec_flitTransmit_of_short {f : ShortFlit} (hcredit : x.credit 3 = true) (hshort : nextShort x.short = some f) :
    exec (.flitTransmit t p) s = .next ⟨s.pending,
      (d.setPort p { x with short := x.short.erase f, sent := x.sent.add 3 1 }).transmit p
        (f.wireFrom d.now (d.fld (.obotil p) Reg.OB_LINK_DELAY.DELAY) d.devId)⟩ := by
  rw [exec_flitTransmit, execFlitTransmit, State.run_of_live hlive, hd, hup]
  simp only [hx, hcredit, hshort, Bool.not_true, Bool.false_eq_true, if_false, if_true]

section
variable (hnone : x.credit 3 = false ∨ nextShort x.short = none)
include hnone

theorem exec_flitTransmit_of_cur {q : List Byte} {r : List (List Byte)} (hcur : x.cur = q :: r) :
    exec (.flitTransmit t p) s = .next ⟨s.pending, (d.setPort p { x with cur := r }).transmit p q⟩ := by
  rw [exec_flitTransmit, execFlitTransmit, State.run_of_live hlive, hd, hup]
  simp only [hx, PortSt.short_of_none hnone, hcur, Bool.not_true, Bool.false_eq_true, if_false]

theorem exec_flitTransmit_of_nextFull {q : List Byte} {r : List (List Byte)} {y : PortSt} {data : Bool} (hcur : x.cur = [])
    (hfull : x.nextFull d.now = (q :: r, y, data)) :
    exec (.flitTransmit t p) s = .next ⟨s.pending,
      if data = true then ((d.setPort p { y with cur := r }).transmit p q).countWrap (.obotil p) Reg.OB_TX_FLITS.COUNT 1
      else (d.setPort p { y with cur := r }).transmit p q⟩ := by
  rw [exec_flitTransmit, execFlitTransmit, State.run_of_live hlive, hd, hup]
  simp only [hx, PortSt.short_of_none hnone, hcur, hfull, Bool.not_true, Bool.false_eq_true, if_false]

end
end

/-! ### The receiver -/

theorem length_wireQuarter {setB : Bool} {tag : Nat} {bs : List Byte} : (wireQuarter setB tag bs).length = 72 := by
  rw [wireQuarter, List.length_flatMap]
  simp only [length_wireWord, List.map_const', length_pieces]
  rfl

theorem padTo_of_length {n : Nat} {bs : List Byte} (h : bs.length = n) : padTo n bs = bs := by
  rw [padTo, h, Nat.sub_self, List.replicate_zero, List.append_nil]

section
variable {tags : List Nat} {data : List Byte}

theorem length_wireFlit (h : tags.length = 4) : (wireFlit tags data).length = 4 := by
  rw [wireFlit, List.length_map, List.length_zip, h, length_pieces, Nat.min_self]

theorem length_of_mem_wireFlit {q : List Byte} (h : q ∈ wireFlit tags data) : q.length = 72 := by
  obtain ⟨p, -, rfl⟩ := List.mem_map.mp h
  exact length_wireQuarter

theorem length_flatten_wireFlit (h : tags.length = 4) : (wireFlit tags data).flatten.length = 288 := by
  rw [List.length_flatten, List.map_congr_left (fun q hq => length_of_mem_wireFlit hq), List.map_const', length_wireFlit h]
  rfl

theorem pieces_wireFlit (h : tags.length = 4) : pieces 72 4 (wireFlit tags data).flatten = wireFlit tags data := by
  have hcut := pieces_flatten (n := 72) (xss := wireFlit tags data) (fun q hq => length_of_mem_wireFlit hq)
  rwa [length_wireFlit h] at hcut

/-- Each quarter of a full flit is decoded to set A, its tag and its part of the data. -/
theorem map_rxQuarter_wireFlit (htags : ∀ a ∈ tags, a < 16) (hlen : data.length = 256) :
    (wireFlit tags data).map rxQuarter = (tags.zip (pieces 64 4 data)).map (fun p => some ⟨false, p.1, p.2, 0⟩) := by
  rw [wireFlit, padTo_of_length hlen, List.map_map]
  refine List.map_congr_left fun p hp => ?_
  obtain ⟨htag, hpiece⟩ := List.of_mem_zip hp
  exact rxQuarter_wireQuarter (htags _ htag) (length_of_mem_pieces hlen hpiece)

end

/-- What a port that is UP makes of a full flit that arrives as it was sent, by the tags of its quarters (R336, R342, R344). -/
theorem Dev.recvFull_wireFlit {d : Dev} {p a b c e : Nat} {data : List Byte} (hup : d.portUp p = true)
    (htags : ∀ x ∈ [a, b, c, e], x < 16) (hlen : data.length = 256) :
    d.recvFull p ((wireFlit [a, b, c, e] data).flatMap id) =
      let d1 := d.countSat (.obotil p) Reg.OB_CE_CNT.COUNT 0
      if a = 0 then if allZero data && [b, c, e] == [0, 0, 0] then d1 else d1.violation p 1 0
      else if a = 1 then
        if [b, c, e] == [0, 0, 0] && bitsOf (numAt data 16 8) 63 20 == 0 && allZero (data.drop 24) then d1.linkFlit p data
        else d1.violation p 1 0
      else if 8 ≤ a then (d1.violation p 2 0).sendNak p
      else d1.dataFlit p ((a - 2) / 2) (a % 2 == 0) (b * 256 + c * 16 + e) data := by
  obtain ⟨w, x, y, z, hparts⟩ : ∃ w x y z, pieces 64 4 data = [w, x, y, z] := ⟨_, _, _, _, rfl⟩
  have hdata : w ++ (x ++ (y ++ z)) = data := by
    rw [← flatten_pieces (n := 64) (k := 4) hlen, hparts]
    simp only [List.flatten_cons, List.flatten_nil, List.append_nil]
  rw [List.flatMap_id, Dev.recvFull, hup, length_flatten_wireFlit rfl, pieces_wireFlit rfl, map_rxQuarter_wireFlit htags hlen,
    hparts]
  simp [hdata]

theorem bitsOf_lt_16 {n lo : Nat} : bitsOf n (lo + 3) lo < 16 := bitsOf_lt.trans_eq (by rw [show lo + 3 + 1 - lo = 4 by omega]; rfl)

/-- The number of a DATA flit from the tags of its last three quarters (R336). -/
theorem seq_of_tags {n : Nat} (h : n < 4096) : bitsOf n 11 8 * 256 + bitsOf n 7 4 * 16 + bitsOf n 3 0 = n := by
  simp only [bitsOf, Nat.shiftRight_eq_div_pow]
  omega

/-- The tag of a DATA flit's first quarter: its class and whether it starts a message (R336). -/
theorem first_dataTag {c a : Nat} {start : Bool} (ha : 2 + 2 * c + (if start then 0 else 1) = a) (hc : c < 3) :
    2 ≤ a ∧ a < 8 ∧ (a - 2) / 2 = c ∧ (a % 2 == 0) = start := by
  cases start with
  | true =>
    obtain rfl : 2 + 2 * c = a := ha
    exact ⟨by omega, by omega, by omega, beq_iff_eq.mpr (by omega)⟩
  | false =>
    obtain rfl : 2 + 2 * c + 1 = a := ha
    exact ⟨by omega, by omega, by omega, beq_eq_false_iff_ne.mpr (by omega)⟩

theorem Dev.recvFull_data {d : Dev} {p c n : Nat} {start : Bool} {data : List Byte} (hup : d.portUp p = true)
    (hlen : data.length = 256) (hc : c < 3) (hn : n < 4096) :
    d.recvFull p ((wireFlit (dataTags ⟨c, start, data⟩ n) data).flatMap id) =
      (d.countSat (.obotil p) Reg.OB_CE_CNT.COUNT 0).dataFlit p c start n data := by
  obtain ⟨h2, h8, hcls, hstart⟩ := first_dataTag (c := c) (start := start) rfl hc
  have htags : ∀ x ∈ dataTags ⟨c, start, data⟩ n, x < 16 := by
    simp only [dataTags, List.forall_mem_cons]
    exact ⟨h8.trans (by decide), bitsOf_lt_16, bitsOf_lt_16, bitsOf_lt_16, nofun⟩
  rw [dataTags, Dev.recvFull_wireFlit hup htags hlen, hcls, hstart, seq_of_tags hn]
  dsimp only
  rw [if_neg (by omega), if_neg (by omega), if_neg (by omega)]

theorem Dev.recvFull_link {d : Dev} {p : Nat} {data : List Byte} (hup : d.portUp p = true) (hlen : data.length = 256)
    (hzero : bitsOf (numAt data 16 8) 63 20 = 0) (hrest : allZero (data.drop 24) = true) :
    d.recvFull p ((wireFlit [1, 0, 0, 0] data).flatMap id) = (d.countSat (.obotil p) Reg.OB_CE_CNT.COUNT 0).linkFlit p data := by
  rw [Dev.recvFull_wireFlit hup (by decide) hlen, hzero, hrest]
  rfl

theorem exec_replayTimeout_of_late {s : State} {t p : Nat} {d : Dev} {e : Nat × TxFlit} {es : List (Nat × TxFlit)}
    (hlive : s.live (.obotil p)) (hd : s.dev.touch t = d) (hup : d.portUp p = true) (hreplay : (d.port p).replay = e :: es)
    (hlate : (d.port p).timer + 64000 ≤ d.now) :
    exec (.replayTimeout t p) s = .next ⟨s.pending, d.startReplay p e.1⟩ := by
  rw [exec_replayTimeout, execReplayTimeout, State.run_of_live hlive, hd]
  simp only [hreplay, hup, hlate, Nat.reduceMul, decide_true, Bool.and_self, if_true]

/-- Settles O29: the scheduler and the replay by the rules of their commands, flits received by what `recvFull` makes of one that
arrives as it was sent. -/
theorem flitsComplete : Obligations.FlitsComplete := by
  unfold Obligations.FlitsComplete
  refine ⟨?transmit, ?data, ?link, ?replay⟩
  case transmit =>
    intro s t p hlive hup d x
    exact ⟨fun f hcredit hshort => exec_flitTransmit_of_short hlive rfl hup rfl hcredit hshort,
      fun q r hnone hcur => exec_flitTransmit_of_cur hlive rfl hup rfl hnone hcur,
      fun q r y data hnone hcur hfull => exec_flitTransmit_of_nextFull hlive rfl hup rfl hnone hcur hfull⟩
  case data =>
    intro s t p c n start data hlive hup hlen hc hn wire
    rw [exec_dataFlitReceive, execDataFlitReceive, State.run_of_live hlive, Dev.recvFull_data (d := s.dev.touch t) hup hlen hc hn]
  case link =>
    intro s t p data hlive hup hlen hzero hrest
    rw [exec_linkFlitReceive, execLinkFlitReceive, State.run_of_live hlive,
      Dev.recvFull_link (d := s.dev.touch t) hup hlen hzero hrest]
  case replay =>
    intro s t p e es hlive hup hreplay hlate
    exact exec_replayTimeout_of_late hlive rfl hup hreplay hlate

end Machine
end Sys2Proof
end

section
/-! PROOFS. Gate commands of OB_GATE_CMD and of items (14 R345, R346, R348, R350). -/
namespace Sys2Proof
namespace Machine

theorem exec_gateLoad (t : Nat) (src : Source) (g : Nat) (s : State) :
    exec (.gateLoad t src g) s = execGateLoad t src g s := rfl
theorem exec_gateCmdComplete (t g : Nat) (s : State) : exec (.gateCmdComplete t g) s = execGateCmdComplete t g s := rfl

/-! ### A command of OB_GATE_CMD -/

/-- A command in OB_GATE_CMD leaves the register with the gate's number and acts on that gate (Table 14.12). -/
theorem Dev.gateCmdWritten_of_cmd (d : Dev) {g cmd : Nat} (hg : g < 4096) (h0 : cmd ≠ 0) (h16 : cmd < 16) :
    d.gateCmdWritten (BitVec.ofNat 32 (g % 4096 * 2 ^ 16)) (BitVec.ofNat 32 cmd) =
      (d.setWord (.obotil 0) 0x114 (BitVec.ofNat 32 (g * 2 ^ 16))).gateReg g cmd := by
  have hword : (BitVec.ofNat 32 (g % 4096 * 2 ^ 16)).toNat = g * 2 ^ 16 := by
    rw [BitVec.toNat_ofNat]
    omega
  have hgate : bitsOf (g * 2 ^ 16) 27 16 = g := by
    rw [bitsOf, Nat.shiftRight_eq_div_pow]
    omega
  have hkeep : putBits (g * 2 ^ 16) 3 0 0 = g * 2 ^ 16 := by
    rw [putBits_eq (by decide)]
    omega
  have hcmd : bitsOf (BitVec.ofNat 32 cmd).toNat 3 0 = cmd := by
    rw [bitsOf_toNat_ofNat (by decide), bitsOf, Nat.shiftRight_zero]
    omega
  simp only [Dev.gateCmdWritten, hword, hgate, hkeep, hcmd, if_neg h0]

/-- An accepted command of OB_GATE_CMD acts on its gate. -/
theorem State.gateRow_accepted {s : State} {t g cmd : Nat} {src : Source} {d : Dev} (hacc : s.accepts src (.obotil 0) 0x114)
    (hg : g < 4096) (hd : (s.written t src (.obotil 0)).setWord (.obotil 0) 0x114 (BitVec.ofNat 32 (g * 2 ^ 16)) = d)
    (h0 : cmd ≠ 0) (h16 : cmd < 16) :
    s.access t src (.obotil 0) (fun d => d.gateRow src g cmd) = .next ⟨s.pending, d.gateReg g cmd⟩ := by
  rw [← hd, ← Dev.gateCmdWritten_of_cmd _ hg h0 h16]
  exact State.access_accepted hacc

theorem Dev.gateReg_load (d : Dev) (g : Nat) : d.gateReg g 1 = d.loadGate g := rfl

/-- LOAD reads and checks the entry of a gate that is not OPEN (R346). -/
theorem Dev.loadGate_eq (d : Dev) (g : Nat) : d.loadGate g =
    let a := d.gateEntryAt g
    let bs := d.readBytes .hbm a 32
    let d1 := d.noteFrom 0xFF (.lodge (g % 2)) (Mem.hbm.wordsOf a 32)
    if (d.gate g).state = 2 then d.gateIgnored g
    else if d.gateOk (GateEntry.ofBytes bs) ∧ d.anyBad .hbm a 32 = false then
      (d1.setGate g ⟨1, (GateEntry.ofBytes bs).epoch, bs⟩).showGate g
    else ((d1.setGate g { d.gate g with state := 0 }).setFld (.obotil 0) Reg.OB_GATE_STS.CFG_BAD 1).showGate g := by
  simp only [Dev.loadGate, Bool.and_eq_true, Bool.not_eq_true']

/-! ### How a command moves a gate (R346, R348) -/

section
variable (x : GateSt)

theorem gateMove_open : gateMove 2 x = if x.state = 1 then some { x with state := 2 } else none := by
  unfold gateMove
  split <;> simp_all

theorem gateMove_latch : gateMove 3 x = if x.state = 2 then some { x with state := 1 } else none := by
  unfold gateMove
  split <;> simp_all

theorem gateMove_advance : gateMove 4 x =
    if x.state = 1 ∨ x.state = 2 then some { x with state := 2, epoch := (x.epoch + 1) % 2 ^ 32 } else none := by
  unfold gateMove
  split <;> simp_all

theorem gateMove_unload : gateMove 5 x = if x.state = 1 then some { x with state := 0 } else none := by
  unfold gateMove
  split <;> simp_all

end

theorem Dev.showGate_gateWaits (d : Dev) (g : Nat) : (d.showGate g).gateWaits = d.gateWaits := by
  unfold Dev.showGate
  dsimp only
  rw [Dev.setFld_gateWaits, Dev.setFld_gateWaits, Dev.setFld_gateWaits]
theorem Dev.showGate_msgId (d : Dev) (g : Nat) : (d.showGate g).msgId = d.msgId := by
  unfold Dev.showGate
  dsimp only
  rw [Dev.setFld_msgId, Dev.setFld_msgId, Dev.setFld_msgId]
theorem Dev.setGate_gateWaits (d : Dev) (g : Nat) (x : GateSt) : (d.setGate g x).gateWaits = d.gateWaits := rfl
theorem Dev.setGate_msgId (d : Dev) (g : Nat) (x : GateSt) : (d.setGate g x).msgId = d.msgId := rfl

section
variable {d : Dev} {g cmd : Nat} {x : GateSt}

/-- Another command than OPEN waits for the writes checked before this instant (R348). -/
theorem Dev.gateEffect_of_ne_open (h : cmd ≠ 2) (item : Option Nat) : d.gateEffect g cmd x item =
    { (d.setGate g x).showGate g with gateWaits := d.gateWaits ++ [⟨g, item, d.msgId⟩] } := by
  simp only [Dev.gateEffect, if_neg h, Dev.showGate_gateWaits, Dev.showGate_msgId, Dev.setGate_gateWaits, Dev.setGate_msgId]

theorem Dev.gateReg_of_move {P : Prop} [Decidable P] (h1 : cmd ≠ 1)
    (hmove : gateMove cmd (d.gate g) = if P then some x else none) :
    d.gateReg g cmd = if P then d.gateEffect g cmd x none else d.gateIgnored g := by
  rw [Dev.gateReg, if_neg h1, hmove]
  by_cases hP : P
  · rw [if_pos hP, if_pos hP]
  · rw [if_neg hP, if_neg hP]

/-- An item's command that its gate allows, on a gate of its bed (R350). -/
theorem Dev.gateItem_of_move {bed : Nat} {i : Item} (hnext : d.nextGateItem bed g = some i) (hop : i.cfg.op = itemOp cmd)
    (hgate : i.cfg.gate = g) (hbed : (d.gate g).fields.bed = bed) (hmove : gateMove cmd (d.gate g) = some x) :
    d.gateItem bed g cmd = (d.acceptItem i.seq).gateEffect g cmd x (some i.seq) := by
  simp only [Dev.gateItem, hnext, hop, hgate, hbed, hmove, ne_eq, not_true_eq_false, or_self, if_false]

end

/-- A command of OB_GATE_CMD other than LOAD takes effect where its gate allows it. -/
theorem State.gateRow_moves {s : State} {t g cmd : Nat} {src : Source} {d : Dev} {x : GateSt} {P : Prop} [Decidable P]
    (hacc : s.accepts src (.obotil 0) 0x114) (hg : g < 4096)
    (hd : (s.written t src (.obotil 0)).setWord (.obotil 0) 0x114 (BitVec.ofNat 32 (g * 2 ^ 16)) = d)
    (hcmd : 1 < cmd ∧ cmd < 16) (hmove : gateMove cmd (d.gate g) = if P then some x else none) :
    s.access t src (.obotil 0) (fun d => d.gateRow src g cmd) =
      .next ⟨s.pending, if P then d.gateEffect g cmd x none else d.gateIgnored g⟩ := by
  rw [State.gateRow_accepted hacc hg hd (by omega) (by omega), Dev.gateReg_of_move (by omega) hmove]

/-- An item's command that its gate allows has its effect (R350). -/
theorem State.gateBy_item_moves {s : State} {t bed g cmd : Nat} {i : Item} {d : Dev} {x : GateSt} (hlive : s.live (.obotil 0))
    (hd : s.dev.touch t = d) (hnext : d.nextGateItem bed g = some i) (hop : i.cfg.op = itemOp cmd) (hgate : i.cfg.gate = g)
    (hbed : (d.gate g).fields.bed = bed) (hmove : gateMove cmd (d.gate g) = some x) :
    s.gateBy t (.item bed) g cmd = .next ⟨s.pending, (d.acceptItem i.seq).gateEffect g cmd x (some i.seq)⟩ := by
  rw [State.gateBy, State.run_of_live hlive, hd, Dev.gateItem_of_move hnext hop hgate hbed hmove]

theorem exec_gateCmdComplete_of_done {s : State} {t g : Nat} {w : GateWait} {d : Dev} (hlive : s.live (.obotil 0))
    (hd : s.dev.touch t = d) (hwait : d.gateWaits.find? (fun w => w.gate == g) = some w) (hdone : d.writesBefore w = false) :
    exec (.gateCmdComplete t g) s = .next ⟨s.pending, match w.item with
      | some q => Dev.retireItem { d with gateWaits := d.gateWaits.erase w } q
      | none => { d with gateWaits := d.gateWaits.erase w }⟩ := by
  rw [exec_gateCmdComplete, execGateCmdComplete, State.run_of_live hlive, hd, hwait]
  exact congrArg _ (congrArg _ (if_neg (Bool.eq_false_iff.mp hdone)))

/-- Settles O31: LOAD by `loadGate_eq`, the other commands by where `gateMove` says that they take a gate. -/
theorem gateCommandsComplete : Obligations.GateCommandsComplete := by
  unfold Obligations.GateCommandsComplete
  refine ⟨?load, ?reg, ?item, ?complete⟩
  case load =>
    intro s t src g hg hacc d a bs d1
    rw [exec_gateLoad, execGateLoad, State.gateRow_accepted hacc hg rfl (by decide) (by decide), Dev.gateReg_load,
      Dev.loadGate_eq]
  case reg =>
    intro s t src g hg hacc d x wait
    exact ⟨State.gateRow_moves hacc hg rfl (by decide) (gateMove_open x),
      State.gateRow_moves hacc hg rfl (by decide) (gateMove_latch x),
      State.gateRow_moves hacc hg rfl (by decide) (gateMove_advance x),
      State.gateRow_moves hacc hg rfl (by decide) (gateMove_unload x)⟩
  case item =>
    intro s t bed g i y hlive d0 hnext hgate hbed d
    refine ⟨fun hop hmove => ?opens, fun hop hmove => ?latch, fun hop hmove => ?advance⟩
    case opens => exact State.gateBy_item_moves (cmd := 2) hlive rfl hnext hop hgate hbed hmove
    case latch =>
      refine (State.gateBy_item_moves (cmd := 3) hlive rfl hnext hop hgate hbed hmove).trans ?_
      rw [Dev.gateEffect_of_ne_open (by decide)]
      rfl
    case advance =>
      refine (State.gateBy_item_moves (cmd := 4) hlive rfl hnext hop hgate hbed hmove).trans ?_
      rw [Dev.gateEffect_of_ne_open (by decide)]
      rfl
  case complete =>
    intro s t g w hlive d hwait hdone d1
    exact exec_gateCmdComplete_of_done hlive rfl hwait hdone

end Machine
end Sys2Proof
end

section
/-! PROOFS. BARRIER items, tokens and their acknowledgement (14 R353 to R355). -/
namespace Sys2Proof
namespace Machine

theorem exec_barrier (t bed : Nat) (s : State) : exec (.barrier t bed) s = execBarrier t bed s := rfl
theorem exec_barrierTokenReceive (t p : Nat) (bytes : List Byte) (s : State) :
    exec (.barrierTokenReceive t p bytes) s = execBarrierTokenReceive t p bytes s := rfl
theorem exec_sackReceive (t p : Nat) (bytes : List Byte) (s : State) :
    exec (.sackReceive t p bytes) s = execSackReceive t p bytes s := rfl
theorem exec_tokenRetransmit (t g : Nat) (s : State) : exec (.tokenRetransmit t g) s = execTokenRetransmit t g s := rfl

section
variable {s : State} {t : Nat} {d : Dev} (hd : s.dev.touch t = d)
include hd

section
variable {p : Nat} {bytes q : List Byte} {d1 : Dev} (hlive : s.live (.obotil p)) (hup : d.portUp p = true)
include hlive hup

/-- A well-formed token is acknowledged, and meets its group where the group is enabled (R354, R355). -/
theorem exec_barrierTokenReceive_of_wf {w0 : Nat} (hrecv : d.recvShort p 1 bytes = (d1, some q)) (hw0 : numAt q 0 8 = w0)
    (hlow : bitsOf w0 39 36 = 0) (hhigh : bitsOf w0 47 41 = 0) (hword : bitsOf (numAt q 8 8) 63 16 = 0)
    (hrest : allZero (q.drop 16) = true) :
    let d2 := d1.queueShort p (.sack w0)
    let g := bitsOf w0 35 32
    exec (.barrierTokenReceive t p bytes) s = .next ⟨s.pending,
      if d2.fldI (.obotil 0) Reg.BAR_CFG.ENABLE g = 0 then d2 else d2.token g w0⟩ := by
  rw [exec_barrierTokenReceive, execBarrierTokenReceive, State.run_of_live hlive, hd, hup, hrecv]
  simp only [hw0, hlow, hhigh, hword, hrest, ne_eq, not_true_eq_false, decide_false, Bool.not_true, Bool.or_self,
    Bool.false_eq_true, if_false]

theorem exec_sackReceive_of_wf {w0 g : Nat} (hrecv : d.recvShort p 2 bytes = (d1, some q)) (hw0 : numAt q 0 8 = w0)
    (hg : bitsOf w0 35 32 = g) (hrest : allZero (q.drop 8) = true) :
    exec (.sackReceive t p bytes) s = .next ⟨s.pending, d1.setBar g { d1.bar g with
      unsacked := (d1.bar g).unsacked.filter (fun u => !(u.1 == p && u.2.1 == w0)) }⟩ := by
  rw [exec_sackReceive, execSackReceive, State.run_of_live hlive, hd, hup, hrecv]
  simp only [hw0, hg, hrest, Bool.not_true, Bool.false_eq_true, if_false]

end

theorem exec_barrier_of_arriving {bed g : Nat} {i : Item} (hlive : s.live (.obotil 0))
    (harr : d.arriving bed [0, 1] (fun c => c.kind == .barrier) = some i) (hg : cmdNum i.cfg.cmd 0 1 % 16 = g) :
    let d1 := (d.acceptItem i.seq).setBar g { d.bar g with active := (d.bar g).active ++ [i.seq] }
    exec (.barrier t bed) s = .next ⟨s.pending,
      if d.fldI (.obotil 0) Reg.BAR_CFG.ENABLE g = 0 then
        Dev.haltBed { d with items := d.items.filter (fun j => j.seq != i.seq) } bed 3
      else if d.barLeads g then
        d1.sendToken g (tokenWord ((d.barGen g + (d.bar g).active.length) % 2 ^ 32) g 0 d.devId)
      else Dev.actHeld g ((d1.bar g).held.length) d1⟩ := by
  rw [exec_barrier, execBarrier, State.run_of_live hlive, hd, harr]
  simp only [hg]

theorem exec_tokenRetransmit_of_due {g : Nat} {u : Nat × Nat × Nat} (hlive : s.live (.obotil 0))
    (hdue : (d.bar g).unsacked.find? (fun u => decide (u.2.2 + 6400 ≤ d.now) && d.portUp u.1) = some u) :
    exec (.tokenRetransmit t g) s = .next ⟨s.pending, (d.queueShort u.1 (.token u.2.1)).setBar g { d.bar g with
      unsacked := (d.bar g).unsacked.map (fun v => if v = u then (u.1, u.2.1, d.now) else v) }⟩ := by
  rw [exec_tokenRetransmit, execTokenRetransmit, State.run_of_live hlive, hd]
  simp only [Nat.reduceMul, hdue]

end

/-- Settles O33: each clause by the rule of its command. -/
theorem barriersComplete : Obligations.BarriersComplete := by
  unfold Obligations.BarriersComplete
  refine ⟨?barrier, ?token, ?sack, ?retransmit⟩
  case barrier =>
    intro s t bed i hlive d harr g n gone d1
    exact exec_barrier_of_arriving rfl hlive harr rfl
  case token =>
    intro s t p bytes q hlive hup r w0 g hq hlow hhigh hword hrest d
    exact exec_barrierTokenReceive_of_wf rfl hlive hup (Prod.ext rfl hq) rfl hlow hhigh hword hrest
  case sack =>
    intro s t p bytes q hlive hup r w0 g hq hrest
    exact exec_sackReceive_of_wf rfl hlive hup (Prod.ext rfl hq) rfl rfl hrest
  case retransmit =>
    intro s t g p w0 t0 hlive d hdue
    exact exec_tokenRetransmit_of_due (u := (p, w0, t0)) rfl hlive hdue

end Machine
end Sys2Proof
end

section
/-! PROOFS. The queue of commands, and the state after reset (01, 04 Table 4.9). -/
namespace Sys2Proof
namespace Machine

/-- Settles O50: by the definition of a step, on a queue with a command in front and on an empty one. -/
theorem stepRunsTheFrontCommand : Obligations.StepRunsTheFrontCommand := by
  unfold Obligations.StepRunsTheFrontCommand
  refine ⟨?front, ?empty⟩
  case front =>
    intro s c cs h
    rw [step, h]
  case empty =>
    intro s h
    rw [step, h]

/-- Settles O53: the reset state is a closed value, whose fields and lists are read off. -/
theorem resetStateIsAsTheTablesSay : Obligations.ResetStateIsAsTheTablesSay := by
  unfold Obligations.ResetStateIsAsTheTablesSay
  refine ⟨rfl, rfl, rfl, rfl, rfl, rfl, rfl, ?_⟩
  decide

end Machine
end Sys2Proof
end

section
/-! SUPPORT. What is stored under the hedge code, across each form of command: a step of one of the forms keeps it whenever the
effect on the device does (09, 18 R414). -/
namespace Sys2Proof
namespace Machine

/-- What a device stores under the hedge code: HBM, the glasshouses, the benches, and their syndromes. -/
abbrev Stored : Type := List Host.Cell × List Host.Cell × List Host.Cell × Tbl (BitVec 8)

/-- Where a property of what is stored holds of the state, it holds of the next state that the outcome answers. -/
def State.Keeps (s : State) (P : Stored → Prop) (r : Host.Outcome State Fault Refusal) : Prop :=
  P s.dev.mems → ∀ s', r = .next s' → P s'.dev.mems

section
variable {s : State} {t : Nat} {b : Blk} {src : Source} {f : Dev → Dev} {P : Stored → Prop}

theorem State.keeps_next {d : Dev} (h : P s.dev.mems → P d.mems) : s.Keeps P (.next ⟨s.pending, d⟩) := by
  rintro hs s' ⟨⟩
  exact h hs

theorem State.go_keeps (hf : ∀ d, P d.mems → P (f d).mems) : s.Keeps P (s.go t f) :=
  State.keeps_next fun hs => hf _ (by rwa [Dev.touch_mems])

theorem State.run_keeps (hf : ∀ d, P d.mems → P (f d).mems) : s.Keeps P (s.run t b f) := by
  rcases State.run_cases (s := s) (t := t) (b := b) (f := f) with ⟨-, h⟩ | h | h
  · rw [h]
    rintro - s' ⟨⟩
  · rw [h]
    exact State.keeps_next fun hs => by rwa [Dev.touch_mems]
  · rw [h]
    exact State.go_keeps hf

theorem State.runPlot_keeps {die plot : Nat} (hf : ∀ d, P d.mems → P (f d).mems) : s.Keeps P (s.runPlot t die plot f) :=
  State.run_keeps fun d hd => hf _ (by rwa [Dev.settle_mems])

theorem State.access_keeps (hf : ∀ d, P d.mems → P (f d).mems) : s.Keeps P (s.access t src b f) := by
  unfold State.access
  split
  · exact State.go_keeps fun d hd => by rwa [Dev.wake_mems]
  · exact State.run_keeps hf

theorem Dev.controlWrite_keeps {pair : Nat × Nat} (hf : ∀ d, P d.mems → P (f d).mems) (d : Dev) (hd : P d.mems) :
    P (d.controlWrite pair b f).mems := by
  unfold Dev.controlWrite
  split
  · exact hf _ hd
  · split
    · exact hf _ (by rwa [Dev.noteFirstWrite_mems])
    · rwa [Dev.refuseStale_mems]

theorem Dev.rowWrite_keeps {o : Nat} (hf : ∀ d, P d.mems → P (f d).mems) (d : Dev) (hd : P d.mems) :
    P (d.rowWrite src b o f).mems := by
  have hacc : P ((d.wakeIdle b).emit [.answer src .done]).mems := by rwa [Dev.emit_mems, Dev.wakeIdle_mems]
  unfold Dev.rowWrite
  split
  · exact hd
  · split
    · rwa [Dev.refuseWrite_mems]
    · split
      · exact Dev.controlWrite_keeps hf _ hacc
      · exact hacc

theorem State.write_keeps {o : Nat} (hf : ∀ d, P d.mems → P (f d).mems) :
    s.Keeps P (s.access t src b (fun d => d.rowWrite src b o f)) := State.access_keeps (Dev.rowWrite_keeps hf)

theorem State.read_keeps {a : Nat} : s.Keeps P (s.read t src b a) := by
  have hread : ∀ d : Dev, P d.mems → P (d.readAt src a 4).mems := fun d hd => by rwa [Dev.readAt_mems]
  unfold State.read
  split
  · exact State.go_keeps hread
  · exact State.run_keeps hread

/-! ### Forms that store nothing -/

theorem State.go_frame (hf : ∀ d, (f d).mems = d.mems) : s.Keeps P (s.go t f) := State.go_keeps fun d hd => by rwa [hf]

theorem State.run_frame (hf : ∀ d, (f d).mems = d.mems) : s.Keeps P (s.run t b f) := State.run_keeps fun d hd => by rwa [hf]

theorem State.runPlot_frame {die plot : Nat} (hf : ∀ d, (f d).mems = d.mems) : s.Keeps P (s.runPlot t die plot f) :=
  State.runPlot_keeps fun d hd => by rwa [hf]

theorem State.write_frame {o : Nat} (hf : ∀ d, (f d).mems = d.mems) :
    s.Keeps P (s.access t src b (fun d => d.rowWrite src b o f)) := State.write_keeps fun d hd => by rwa [hf]

/-- An outcome that keeps every property of what is stored leaves it as it was. -/
theorem State.Keeps.frame {r : Host.Outcome State Fault Refusal} (hr : ∀ P, s.Keeps P r) {s' : State} (h : r = .next s') :
    s'.dev.mems = s.dev.mems := hr (· = s.dev.mems) rfl s' h

end

/-! ### Answers to a rill's gate writes -/

theorem Dev.onTrail_mems {g : Dev → Dev} (hg : ∀ d, (g d).mems = d.mems) (d : Dev) (die e n : Nat) :
    (d.onTrail die e n g).mems = d.mems := by
  unfold Dev.onTrail
  dsimp only
  split <;> simp [hg]

theorem Dev.onAnswer_mems {g : Dev → Dev} (hg : ∀ d, (g d).mems = d.mems) (d : Dev) (r : Nat × Nat) (tag : Nat) :
    (d.onAnswer r tag g).mems = d.mems := by
  unfold Dev.onAnswer
  dsimp only
  split
  · exact Dev.onTrail_mems (fun d => by simp [hg]) ..
  · simp [hg]

end Machine
end Sys2Proof
end

section
/-! PROOFS. The commands that store nothing (09, 10, 18 R414). -/
namespace Sys2Proof
namespace Machine

/-- Settles O58: each command by its form, whose effect on the device leaves what is stored in every branch. -/
theorem commandsThatStoreNothing : Obligations.CommandsThatStoreNothing := by
  unfold Obligations.CommandsThatStoreNothing
  intro c s s' h
  unfold exec at h
  cases c with
  | chimeCountLoRead | powerMeasRead => exact State.Keeps.frame (fun _ => State.read_keeps) h
  | chimeEnableSet | chimeEnableClear | chimePeriodWrite | bedRunSet | bedRunClear | trellisLoad | trellisReplant
  | trellisAbort | preempt | retest | inval | trayClear | mowerDiscard | trugPurge | groupValidate | linkEnable
  | portRetrain | portDown | gateLoad | gateUnload | wardenYield | wardenResync | clkSelect | frostClear | faultPop
  | advanceCtr | hintWrite | powerActive | powerIdle | powerDormant =>
    exact State.Keeps.frame (fun _ => State.write_frame fun d => by simp) h
  | stationaryLoad | stationaryLoadDone =>
    refine State.Keeps.frame (fun _ => State.runPlot_frame fun d => ?_) h
    dsimp only
    (repeat' split) <;> simp
  | perst | clkenApply => exact State.Keeps.frame (fun _ => State.go_frame fun d => by simp) h
  | configRequest | vauxApply =>
    refine State.Keeps.frame (fun _ => State.go_frame fun d => ?_) h
    (repeat' split) <;> simp
  | vfEnable =>
    refine State.Keeps.frame (fun _ => State.go_frame fun d => ?_) h
    dsimp only
    (repeat' split) <;> simp
  | dataFlitReceive | linkFlitReceive => exact State.Keeps.frame (fun _ => State.run_frame fun d => by simp) h
  | heldItemIssue | barrowRelease | tokenRetransmit | echoRecord | switchPhaseEnd | scrubRead | pwrgdRise | wakeTimer
  | wardTick | keeperWatchdog | chimeOutFall =>
    refine State.Keeps.frame (fun _ => State.run_frame fun d => ?_) h
    (repeat' split) <;> simp
  | chimeInEdge | flitTransmit | replayTimeout | wadvance | commandFetch | heartbeatReceive | heartbeatTimeout | election
  | wardenFence | oscWaitEnd | spdmRequest =>
    refine State.Keeps.frame (fun _ => State.run_frame fun d => ?_) h
    dsimp only
    (repeat' split) <;> simp
  | gateWriteAck =>
    refine State.Keeps.frame (fun _ => State.run_frame fun d => ?_) h
    dsimp only
    (repeat' split) <;> simp [Dev.onAnswer_mems]
  | _ => trivial

end Machine
end Sys2Proof
end

section
/-! PROOFS. Every step keeps the memories canonical (09, 18 R414, R415). -/
namespace Sys2Proof
namespace Machine

/-- The outcome keeps the canonical form of what is stored. -/
abbrev State.KeepsWf (s : State) (r : Host.Outcome State Fault Refusal) : Prop := s.Keeps (fun m => Mems.wf m = true) r

/-! ### A Sieve's rows (11 R271 to R282) -/

theorem SieveWalk.numeric_memsWf {s : SieveWalk} {b : BedCfg} {die sv r : Nat} {c : SieveCmd} {x : SieveRun} {g be : List Val}
    (hs : Mems.wf s.dev.mems = true) : Mems.wf (s.numeric b die sv c x g be r).dev.mems = true := by
  unfold SieveWalk.numeric
  dsimp only
  (repeat' split) <;> simp (maxDischargeDepth := 9) [hs]

theorem SieveWalk.tray_memsWf {s : SieveWalk} {die sv r : Nat} {c : SieveCmd} {x : SieveRun}
    (hs : Mems.wf s.dev.mems = true) : Mems.wf (s.tray die sv c x r).dev.mems = true := by
  unfold SieveWalk.tray
  dsimp only
  split <;> simp [hs]

theorem SieveWalk.rows_memsWf {b : BedCfg} {die sv : Nat} {c : SieveCmd} {x : SieveRun} {g be : List Val} {n : Nat} :
    ∀ {r : Nat} {s : SieveWalk}, Mems.wf s.dev.mems = true → Mems.wf (SieveWalk.rows b die sv c x g be r n s).dev.mems = true := by
  induction n with
  | zero => exact fun hs => hs
  | succ n ih =>
    intro r s hs
    unfold SieveWalk.rows
    have h1 : Mems.wf (s.dev.noteSieveRow die sv c x r).mems = true := by simpa using hs
    split
    · exact hs
    · split
      · simpa using hs
      · dsimp only
        split
        · exact h1
        · refine ih ?_
          split
          · exact SieveWalk.tray_memsWf h1
          · exact SieveWalk.numeric_memsWf h1

theorem SieveWalk.combined_memsWf {s : SieveWalk} {r : Dev × Bool} (hr : Mems.wf r.1.mems = true) :
    Mems.wf (s.combined r).dev.mems = true := by
  unfold SieveWalk.combined
  split <;> simp [hr]

theorem Dev.sieveWalk_memsWf {d : Dev} {b : BedCfg} {die sv rows : Nat} {c : SieveCmd} {x : SieveRun}
    (hd : Mems.wf d.mems = true) : Mems.wf (d.sieveWalk b die sv c x rows).dev.mems = true := by
  unfold Dev.sieveWalk
  extract_lets fault imgs d1 zs vals s d2
  have h1 : Mems.wf d1.mems = true := by
    simp only [d1]
    clear_value fault
    cases fault <;> simp [hd]
  have hs : Mems.wf s.dev.mems = true := SieveWalk.rows_memsWf h1
  have h2 : Mems.wf d2.mems = true := by simpa [d2] using hs
  split
  · exact hs
  · split
    · exact h2
    · exact SieveWalk.combined_memsWf (Dev.storeImages_memsWf _ _ _ h2)

/-! ### Commands whose effect is more than one operation -/

theorem Dev.recvShort_memsWf {d d1 : Dev} {p kind : Nat} {bytes : List Byte} {o : Option (List Byte)}
    (h : d.recvShort p kind bytes = (d1, o)) (hd : Mems.wf d.mems = true) : Mems.wf d1.mems = true := by
  rwa [← Dev.recvShort_mems d p kind bytes, h] at hd

theorem execMarkerReceive_keepsWf {t port : Nat} {bytes : List Byte} {s : State} :
    s.KeepsWf (execMarkerReceive t port bytes s) := by
  refine State.run_keeps fun d hd => ?_
  split
  · exact hd
  · split
    next d1 q heq =>
      have h1 := Dev.recvShort_memsWf heq hd
      dsimp only
      split <;> simp [h1]
    next heq => exact Dev.recvShort_memsWf heq hd

theorem execBarrierTokenReceive_keepsWf {t port : Nat} {bytes : List Byte} {s : State} :
    s.KeepsWf (execBarrierTokenReceive t port bytes s) := by
  refine State.run_keeps fun d hd => ?_
  split
  · exact hd
  · split
    next d1 q heq =>
      have h1 := Dev.recvShort_memsWf heq hd
      dsimp only
      (repeat' split) <;> simp [h1]
    next heq => exact Dev.recvShort_memsWf heq hd

theorem execSackReceive_keepsWf {t port : Nat} {bytes : List Byte} {s : State} :
    s.KeepsWf (execSackReceive t port bytes s) := by
  refine State.run_keeps fun d hd => ?_
  split
  · exact hd
  · split
    next d1 q heq =>
      have h1 := Dev.recvShort_memsWf heq hd
      dsimp only
      split <;> simp [h1]
    next heq => exact Dev.recvShort_memsWf heq hd

theorem execTrellisLoadDone_keepsWf {t : Nat} {s : State} : s.KeepsWf (execTrellisLoadDone t s) := by
  refine State.run_keeps fun d hd => ?_
  dsimp only
  split
  · split
    · simp [hd]
    · split
      · simp [hd]
      · split
        · simp [hd]
        · exact Dev.loaderWrites_memsWf _ _ _ (fun d hd => by simp [hd]) hd
  · exact hd

theorem execReplantConfigEnd_keepsWf {t : Nat} {s : State} : s.KeepsWf (execReplantConfigEnd t s) := by
  refine State.run_keeps fun d hd => ?_
  dsimp only
  split
  · exact Dev.loaderWrites_memsWf _ _ _ (fun d hd => Dev.configBed_memsWf d _ hd) hd
  · exact hd

theorem execMovingVectorArrive_keepsWf {t die plot : Nat} {s : State} :
    s.KeepsWf (execMovingVectorArrive t die plot s) := by
  refine State.runPlot_keeps fun d hd => ?_
  extract_lets d1
  have h1 : Mems.wf d1.mems = true := by
    simp only [d1]
    (repeat' split) <;> simp [hd]
  split
  next x _ =>
    cases hfeed : d1.feedVector die plot x ((d1.passCfg x).elim false (fun b => b.exact)) with
    | none => exact h1
    | some d2 => exact Dev.feedVector_memsWf _ _ _ _ _ _ h1 hfeed
  · exact h1

theorem execGlasshouseRequest_keepsWf {t die bank : Nat} {reqs : List MemReq} {s : State} :
    s.KeepsWf (execGlasshouseRequest t die bank reqs s) :=
  State.run_keeps fun _ hd => foldl_memsWf (fun _ _ hd => Dev.serve_memsWf _ _ _ _ _ _ _ hd) _ _ (by simpa using hd)

theorem execHbmRequest_keepsWf {t stack pc : Nat} {reqs : List MemReq} {s : State} :
    s.KeepsWf (execHbmRequest t stack pc reqs s) :=
  State.run_keeps fun _ hd => foldl_memsWf (fun _ _ hd => Dev.serve_memsWf _ _ _ _ _ _ _ hd) _ _ hd

theorem execBarrowTake_keepsWf {t : Nat} {agent : Agent} {q : Nat} {s : State} :
    s.KeepsWf (execBarrowTake t agent q s) := by
  refine State.run_keeps fun d hd => ?_
  split
  · exact hd
  · split
    · exact hd
    next b d1 htake =>
      have h1 : Mems.wf d1.mems = true := by rwa [← Dev.takeSlot_mems d agent q _ htake] at hd
      split
      · exact h1
      · exact Dev.goOn_memsWf _ _ (Dev.noteTaken_memsWf _ _ _ _ _ h1)

theorem execPageRequestResponse_keepsWf {t : Nat} {req : Requester} {success : Bool} {s : State} :
    s.KeepsWf (execPageRequestResponse t req success s) := by
  unfold execPageRequestResponse
  cases req with
  | rill i e => exact State.run_keeps fun d hd => Dev.rillPageResponse_memsWf _ _ _ _ hd
  | copy q cid =>
    refine State.run_keeps fun d hd => ?_
    (repeat' split) <;> simp [hd]
  | fetch | cqWrite => exact State.run_keeps fun _ hd => hd

theorem execPcieCompletionReceive_keepsWf {t : Nat} {req : Requester} {st : CplStatus} {bytes : List Byte} {ep : Bool}
    {s : State} : s.KeepsWf (execPcieCompletionReceive t req st bytes ep s) := by
  unfold execPcieCompletionReceive
  cases req with
  | rill i e => exact State.run_keeps fun d hd => Dev.rillHostData_memsWf _ _ _ _ _ hd
  | fetch | cqWrite =>
    refine State.run_keeps fun d hd => ?_
    split <;> simp [hd]
  | copy q cid =>
    refine State.run_keeps fun d hd => ?_
    (repeat' split) <;> simp [hd]

theorem execSieveRetire_keepsWf {t die sieve rows : Nat} {s : State} :
    s.KeepsWf (execSieveRetire t die sieve rows s) := by
  refine State.run_keeps fun d hd => ?_
  dsimp only
  split
  · exact hd
  · split
    · exact hd
    · split
      · exact hd
      · split
        · simp [hd]
        · split
          · exact hd
          · exact Dev.sieveEnds_memsWf _ _ _ _ _ _ _ (by simpa using Dev.sieveWalk_memsWf hd)

theorem execMowerNorm_keepsWf {t die : Nat} {s : State} : s.KeepsWf (execMowerNorm t die s) := by
  refine State.run_keeps fun d hd => Dev.mowGo_memsWf _ _ _ _ (fun d x bc c hd => ?_) hd
  dsimp only
  (repeat' split) <;> simp (maxDischargeDepth := 9) [hd]

theorem execMowerUpdate_keepsWf {t die blocks : Nat} {s : State} : s.KeepsWf (execMowerUpdate t die blocks s) := by
  refine State.run_keeps fun d hd => Dev.mowGo_memsWf _ _ _ _ (fun d x bc c hd => ?_) hd
  refine Dev.mowBlocks_memsWf _ _ _ _ _ ?_
  split <;> simp [hd]

theorem execMowerCopy_keepsWf {t die blocks : Nat} {s : State} : s.KeepsWf (execMowerCopy t die blocks s) :=
  State.run_keeps fun _ hd => Dev.mowGo_memsWf _ _ _ _ (fun _ _ _ _ hd => Dev.mowBlocks_memsWf _ _ _ _ _ (by simpa using hd)) hd

theorem execGateWriteNack_keepsWf {t port : Nat} {s : State} : s.KeepsWf (execGateWriteNack t port s) := by
  refine State.run_keeps fun d hd => ?_
  dsimp only
  (repeat' split)
  · exact hd
  · exact hd
  · exact Dev.onAnswer_memsWf _ _ _ _ (fun d hd => Dev.rillUnrecov_memsWf _ _ _ _ hd) (by simpa using hd)
  · simpa using hd

theorem State.gateBy_keepsWf {t : Nat} {by_ : GateBy} {g cmd : Nat} {s : State} : s.KeepsWf (s.gateBy t by_ g cmd) := by
  unfold State.gateBy
  cases by_ with
  | item => exact State.run_keeps fun _ hd => Dev.gateItem_memsWf _ _ _ _ hd
  | reg => exact State.access_keeps fun _ hd => Dev.gateRow_memsWf _ _ _ _ hd

theorem State.doorbell_keepsWf {t : Nat} {sq : Bool} {port fn page value : Nat} {s : State} :
    s.KeepsWf (s.doorbell t sq port fn page value) := by
  unfold State.doorbell
  split
  · exact State.go_keeps fun _ hd => by simpa using hd
  · exact State.run_keeps fun _ hd => Dev.doorbellWrite_memsWf _ _ _ _ _ _ hd

theorem execHostCopy_keepsWf {t q cid : Nat} {s : State} : s.KeepsWf (execHostCopy t q cid s) := by
  refine State.run_keeps fun d hd => Dev.hostGo_memsWf _ _ _ _ _ (fun d i c hd => ?_) hd
  dsimp only
  (repeat' split) <;> simp [hd]

theorem execHostBedRun_keepsWf {t q cid : Nat} {s : State} : s.KeepsWf (execHostBedRun t q cid s) := by
  refine State.run_keeps fun d hd => Dev.hostGo_memsWf _ _ _ _ _ (fun d i c hd => ?_) hd
  dsimp only
  (repeat' split) <;> simp [hd]

theorem execHostWaitWindows_keepsWf {t q cid : Nat} {s : State} : s.KeepsWf (execHostWaitWindows t q cid s) := by
  refine State.run_keeps fun d hd => Dev.hostGo_memsWf _ _ _ _ _ (fun d i c hd => ?_) hd
  (repeat' split) <;> simp [hd]

theorem execDieControlWrite_keepsWf {t l epoch : Nat} {w : WriteAccess} {s : State} :
    s.KeepsWf (execDieControlWrite t l epoch w s) := by
  refine State.run_keeps fun d hd => ?_
  dsimp only
  split
  · exact hd
  · split
    · simpa using hd
    · simpa using hd
    · refine Dev.controlWrite_memsWf _ _ _ _ (fun d hd => ?_) (by simpa using hd)
      (repeat' split) <;> simp [hd]

/-- A refused item leaves the queue and its bed halts. -/
theorem Dev.dropHalt_memsWf {d : Dev} {items : List Item} {bed : Nat} (hd : Mems.wf d.mems = true) :
    Mems.wf ({ d with items := items }.haltBed bed 3).mems = true := Dev.haltBed_memsWf _ _ _ hd

theorem execMowerIssue_keepsWf {t die : Nat} {s : State} : s.KeepsWf (execMowerIssue t die s) := by
  refine State.run_keeps fun d hd => ?_
  dsimp only
  split
  · exact hd
  · split
    · exact Dev.dropHalt_memsWf (by simpa using hd)
    · simp [hd]

theorem execSieveIssue_keepsWf {t die sieve : Nat} {s : State} : s.KeepsWf (execSieveIssue t die sieve s) := by
  refine State.run_keeps fun d hd => ?_
  dsimp only
  split
  · exact hd
  · split
    · exact hd
    · split
      · exact Dev.dropHalt_memsWf (by simpa using hd)
      · simp [hd]

theorem execTrugIssue_keepsWf {t bed : Nat} {s : State} : s.KeepsWf (execTrugIssue t bed s) := by
  refine State.run_keeps fun d hd => ?_
  dsimp only
  split
  · exact hd
  · split
    · exact Dev.dropHalt_memsWf (by simpa using hd)
    · simp [hd]

theorem execTrugPacketReceive_keepsWf {t port : Nat} {s : State} : s.KeepsWf (execTrugPacketReceive t port s) := by
  refine State.run_keeps fun d hd => ?_
  split
  · exact hd
  next m _ =>
    extract_lets head h len free shaped ms n self l at_ x held put
    have hfree : ∀ d : Dev, Mems.wf d.mems = true → Mems.wf (free d).mems = true := fun d hd => by simpa [free] using hd
    have hput : ∀ (d : Dev) (p : TrugPkt), Mems.wf d.mems = true → Mems.wf (put d p).mems = true := fun d p hd => by
      refine Dev.trugProgress_memsWf _ _ ?_
      split <;> simpa using hd
    split
    · simp [hfree d hd]
    · split
      · simp [hfree d hd]
      · split
        · exact hd
        · split
          · exact hput _ _ (hfree d hd)
          · split
            · simp [hd]
            · exact hput _ _ (by simp [hfree d hd])

/-! ### Every command -/

theorem State.keepsWf_of_frame {s : State} {r : Host.Outcome State Fault Refusal}
    (h : ∀ s', r = .next s' → s'.dev.mems = s.dev.mems) : s.KeepsWf r := fun hs s' hnext => by
  rwa [h s' hnext]

theorem exec_keepsWf (c : Instr) (s : State) : s.KeepsWf (exec c s) := by
  have hframe := commandsThatStoreNothing c s
  unfold exec at hframe ⊢
  cases c with
  | chimeCountLoRead | powerMeasRead | chimeEnableSet | chimeEnableClear | chimePeriodWrite | chimeInEdge | heldItemIssue
  | bedRunSet | bedRunClear | trellisLoad | trellisReplant | trellisAbort | stationaryLoad | stationaryLoadDone | preempt
  | retest | barrowRelease | inval | trayClear | mowerDiscard | trugPurge | groupValidate | linkEnable | portRetrain
  | portDown | flitTransmit | dataFlitReceive | linkFlitReceive | replayTimeout | gateWriteAck | gateLoad | gateUnload
  | wadvance | tokenRetransmit | configRequest | commandFetch | vfEnable | perst | heartbeatReceive | echoRecord
  | heartbeatTimeout | election | wardenFence | wardenYield | wardenResync | oscWaitEnd | clkSelect | switchPhaseEnd
  | frostClear | clkenApply | scrubRead | faultPop | pwrgdRise | advanceCtr | hintWrite | spdmRequest | powerActive
  | powerIdle | powerDormant | wakeTimer | wardTick | keeperWatchdog | vauxApply | chimeOutFall =>
    exact State.keepsWf_of_frame hframe
  | thermTripInput | regulatorFault => exact State.go_keeps fun d hd => by simp [hd]
  | registerWrite | postedWriteApply | ceRewrite | functionLevelReset | intOscLoss | controlStateMismatch | emergencyStop
  | vin48Fault | pwrgdFall =>
    refine State.go_keeps fun d hd => ?_
    (repeat' split) <;> simp [hd]
  | bar4Access =>
    refine State.go_keeps fun d hd => ?_
    dsimp only
    (repeat' split) <;> simp [hd]
  | vauxLoss => exact State.go_keeps fun _ _ => rfl
  | chimeSourceChange | resume | rillResume | rillFail | rillCancel | sieveTrayWrite | mowerAdopt | portClear
  | faultClear => exact State.write_keeps fun d hd => by simp [hd]
  | qctxRead | qctxWrite | qctxAbortAll | qctxReset => exact State.access_keeps fun d hd => by simp [hd]
  | furrowReset | furCfgWrite | mowerMirrorWrite | queueBedVecWrite | clkenWrite =>
    refine State.access_keeps fun d hd => ?_
    split <;> simp [hd]
  | passIssue | passStart | passRetire | passAbandon | retestEnd | preemptBoundary | accSpillDone | accRestoreDone =>
    refine State.runPlot_keeps fun d hd => ?_
    dsimp only
    (repeat' split) <;> simp [hd]
  | movingVectorArrive => exact execMovingVectorArrive_keepsWf
  | markerMiss | chimeInMiss | hostNop => exact State.run_keeps fun d hd => by simp [hd]
  | markerEmit | hostTrellis | hostWaitChime | hostFirmware | closingPoint =>
    refine State.run_keeps fun d hd => ?_
    (repeat' split) <;> simp (maxDischargeDepth := 9) [hd, foldl_mems, Dev.mems_ite]
  | idleBlockAccess | chime | replantDrainEnd | barrowClaim | barrowPost | sieveStart | trayClearDone | trugInstanceClose
  | linkTrainDone | gateCmdComplete | completionWrite | dormantEntryDone | powerWake | dormantExitDone | thermalRead
  | linkTrainFail =>
    refine State.run_keeps fun d hd => ?_
    (repeat' split) <;> simp [hd]
  | replantArmed | transposeBlockEmit | benchAccessIssue | latticeBenchRequest | benchRequestResend | rillDescStart
  | rillFault | cancelDone |  mowerRetire | trugStart | gateWrite
  | barrier | heartbeatSend | resyncDone | claimReceive | claimAnswer | claimResolve | claimRepeat | sundialWindow
  | pllLockDone | rampStep | hbmAttemptEnd | advanceCtrDone | startStepEnd =>
    refine State.run_keeps fun d hd => ?_
    dsimp only
    (repeat' split) <;> simp [hd]
  | markerReceive => exact execMarkerReceive_keepsWf
  | trellisLoadDone => exact execTrellisLoadDone_keepsWf
  | replantConfigEnd => exact execReplantConfigEnd_keepsWf
  | glasshouseRequest => exact execGlasshouseRequest_keepsWf
  | hbmRequest => exact execHbmRequest_keepsWf
  | barrowTake => exact execBarrowTake_keepsWf
  | pageRequestResponse => exact execPageRequestResponse_keepsWf
  | pcieCompletionReceive => exact execPcieCompletionReceive_keepsWf
  | sieveIssue => exact execSieveIssue_keepsWf
  | mowerIssue => exact execMowerIssue_keepsWf
  | trugIssue => exact execTrugIssue_keepsWf
  | trugPacketReceive => exact execTrugPacketReceive_keepsWf
  | sieveRetire => exact execSieveRetire_keepsWf
  | mowerNorm => exact execMowerNorm_keepsWf
  | mowerUpdate => exact execMowerUpdate_keepsWf
  | mowerCopy => exact execMowerCopy_keepsWf
  | gateWriteNack => exact execGateWriteNack_keepsWf
  | gateOpen | gateLatch | gateAdvance => exact State.gateBy_keepsWf
  | barrierTokenReceive => exact execBarrierTokenReceive_keepsWf
  | sackReceive => exact execSackReceive_keepsWf
  | sqTailDoorbell | cqHeadDoorbell => exact State.doorbell_keepsWf
  | hostCopy => exact execHostCopy_keepsWf
  | hostBedRun => exact execHostBedRun_keepsWf
  | hostWaitWindows => exact execHostWaitWindows_keepsWf
  | dieControlWrite => exact execDieControlWrite_keepsWf

/-- Settles O52: the command in front keeps the canonical form (`exec_keepsWf`), and an empty queue leaves the state. -/
theorem stepsKeepMemoriesCanonical : Obligations.StepsKeepMemoriesCanonical := by
  unfold Obligations.StepsKeepMemoriesCanonical
  intro s s' hs h
  unfold step at h
  split at h
  · cases h
    exact hs
  next c cs _ => exact exec_keepsWf c ⟨cs, s.dev⟩ hs s' h

end Machine
end Sys2Proof
end

section
/-! PROOFS. Heartbeats, echo records and the end of a full copy (16 R382, R384, R388, R392, Table 16.5). -/
namespace Sys2Proof
namespace Machine

theorem exec_heartbeatSend (t l : Nat) (s : State) : exec (.heartbeatSend t l) s = execHeartbeatSend t l s := rfl
theorem exec_heartbeatReceive (t l : Nat) (s : State) : exec (.heartbeatReceive t l) s = execHeartbeatReceive t l s := rfl
theorem exec_echoRecord (t l : Nat) (ok : Bool) (s : State) : exec (.echoRecord t l ok) s = execEchoRecord t l ok s := rfl
theorem exec_resyncDone (t l : Nat) (s : State) : exec (.resyncDone t l) s = execResyncDone t l s := rfl

/-- An event of a lodge's warden that is up acts on the device at its instant. -/
theorem State.run_warden {s : State} {t l : Nat} {f : Dev → Dev} (hl : l < 2) (hlive : s.live (.warden l)) :
    s.run t (.warden (l % 2)) f = .next ⟨s.pending, f (s.dev.touch t)⟩ := by
  rw [Nat.mod_eq_of_lt hl, State.run_of_live hlive]

/-- Settles O38: each event by the condition that its hypotheses decide. -/
theorem heartbeatsComplete : Obligations.HeartbeatsComplete := by
  unfold Obligations.HeartbeatsComplete
  refine ⟨?send, ?receive, ?echo, ?resync⟩
  case send =>
    intro s t l hl hlive hrole hstop hlast
    rw [exec_heartbeatSend, execHeartbeatSend, State.run_warden hl hlive]
    dsimp only
    rw [Nat.mod_eq_of_lt hl, if_pos, otherLodge_of_lt hl]
    refine ⟨hrole, hstop, ?_⟩
    split
    next h heq => exact decide_eq_true (hlast h heq)
    · rfl
  case receive =>
    intro s t l m hl hlive hm hnow
    have hm' : ((s.dev.touch t).ward (otherLodge l)).hb = some m := by rw [otherLodge_of_lt hl]; exact hm
    have hnow' : (s.dev.touch t).now ≤ m.sentT + 12800 := hnow
    rw [exec_heartbeatReceive, execHeartbeatReceive, State.run_warden hl hlive]
    dsimp only
    rw [Nat.mod_eq_of_lt hl, hm']
    dsimp only
    rw [if_pos hnow']
  case echo =>
    intro s t l ok hl hlive hrole
    have hrole' : (s.dev.touch t).role l = 2 := hrole
    rw [exec_echoRecord, execEchoRecord, State.run_warden hl hlive, Nat.mod_eq_of_lt hl]
    cases ok <;> simp [hrole']
  case resync =>
    intro s t l hl hlive hcopy hwarden hrole
    have hcond : ((s.dev.touch t).ward l).resyncing = true ∧ ((s.dev.touch t).role l = 2 ∨ (s.dev.touch t).role l = 3) ∧
        (s.dev.touch t).role (otherLodge l) = 1 := ⟨hcopy, hrole, by rw [otherLodge_of_lt hl]; exact hwarden⟩
    rw [exec_resyncDone, execResyncDone, State.run_warden hl hlive]
    dsimp only
    rw [Nat.mod_eq_of_lt hl, if_pos hcond]

end Machine
end Sys2Proof
end

section
/-! PROOFS. Claims of the warden role (16 R383 to R386, R391). -/
namespace Sys2Proof
namespace Machine

theorem exec_heartbeatTimeout (t l : Nat) (s : State) : exec (.heartbeatTimeout t l) s = execHeartbeatTimeout t l s := rfl
theorem exec_election (t l : Nat) (s : State) : exec (.election t l) s = execElection t l s := rfl
theorem exec_claimReceive (t die l : Nat) (s : State) : exec (.claimReceive t die l) s = execClaimReceive t die l s := rfl
theorem exec_claimAnswer (t l die : Nat) (s : State) : exec (.claimAnswer t l die) s = execClaimAnswer t l die s := rfl
theorem exec_claimResolve (t l : Nat) (s : State) : exec (.claimResolve t l) s = execClaimResolve t l s := rfl
theorem exec_claimRepeat (t l : Nat) (s : State) : exec (.claimRepeat t l) s = execClaimRepeat t l s := rfl

/-- R383: below the last epoch a lodge claims with the epoch after the highest that it has seen. -/
theorem Dev.claimWarden_of_lt {d : Dev} {l : Nat} (h : (d.ward l).seen < 0xFFFFFFFF) :
    d.claimWarden l = ((d.setWord (.warden l) 0xC 0#32).modWard l (fun w => { w with
      claim := some ((d.ward l).seen + 1, d.now), answers := [], rej := none, handOver := false })).emit
        [.claim l ((d.ward l).seen + 1)] := by
  rw [Dev.claimWarden, if_neg (Nat.not_le.mpr h)]

/-- Settles O39: each event by its claim and its answers. -/
theorem claimsComplete : Obligations.ClaimsComplete := by
  unfold Obligations.ClaimsComplete
  refine ⟨?claim, ?receive, ?answer, ?resolve⟩
  case claim =>
    intro s t l hl hlive hclaim hseen
    have hseen' : ((s.dev.touch t).ward l).seen < 0xFFFFFFFF := hseen
    refine ⟨?timeout, ?election⟩
    case timeout =>
      intro hrole hwhy
      rw [exec_heartbeatTimeout, execHeartbeatTimeout, State.run_warden hl hlive]
      dsimp only
      rw [Nat.mod_eq_of_lt hl, if_pos, Dev.claimWarden_of_lt hseen']
      refine ⟨hrole, hclaim, ?_⟩
      rcases hwhy with hhand | ⟨hen, h, hlast, hold⟩
      · exact .inl hhand
      · rw [hlast]
        exact .inr ⟨hen, decide_eq_true hold⟩
    case election =>
      intro hrole hstep hstop
      rw [exec_election, execElection, State.run_warden hl hlive]
      dsimp only
      rw [Nat.mod_eq_of_lt hl, if_pos ⟨hrole, hstep, hstop, hclaim⟩, Dev.claimWarden_of_lt hseen']
  case receive =>
    intro s t k l e at_ hl hk hlive hclaim
    have hclaim' : ((s.dev.touch t).ward l).claim = some (e, at_) := hclaim
    rw [exec_claimReceive, execClaimReceive, State.run_warden hl hlive]
    dsimp only
    rw [Nat.mod_eq_of_lt hl, Nat.mod_eq_of_lt hk, hclaim']
  case answer =>
    intro s t k l e at_ p ack hl hk hlive hclaim hans
    have hclaim' : ((s.dev.touch t).ward l).claim = some (e, at_) := hclaim
    have hans' : ((s.dev.touch t).ward l).answers.find? (fun a => a.1 == k) = some (k, ack, p) := hans
    rw [exec_claimAnswer, execClaimAnswer, State.run_warden hl hlive]
    dsimp only
    -- The `match` on `rej` in the statement and the one in the model need not be the same matcher.
    rw [Nat.mod_eq_of_lt hl, Nat.mod_eq_of_lt hk, hclaim', hans'] <;> rfl
  case resolve =>
    intro s t l e at_ hl hlive hclaim
    have hclaim' : ((s.dev.touch t).ward l).claim = some (e, at_) := hclaim
    refine ⟨?fails, ?succeeds, ?again⟩
    case fails =>
      intro p hrej
      rw [exec_claimResolve, execClaimResolve, State.run_warden hl hlive]
      dsimp only
      rw [Nat.mod_eq_of_lt hl, hclaim']
      dsimp only
      rw [hrej]
    case succeeds =>
      intro hrej hfive hend
      rw [exec_claimResolve, execClaimResolve, State.run_warden hl hlive]
      dsimp only
      rw [Nat.mod_eq_of_lt hl, hclaim']
      dsimp only
      rw [hrej]
      dsimp only
      rw [if_pos ⟨hfive, hend⟩]
    case again =>
      intro hrej hold
      rw [exec_claimRepeat, execClaimRepeat, State.run_warden hl hlive]
      dsimp only
      rw [Nat.mod_eq_of_lt hl, hclaim']
      dsimp only
      rw [if_pos ⟨hrej, hold⟩]

end Machine
end Sys2Proof
end

section
/-! PROOFS. Events of the reference clock (17 R395 to R407). -/
namespace Sys2Proof
namespace Machine

theorem exec_oscWaitEnd (t l : Nat) (s : State) : exec (.oscWaitEnd t l) s = execOscWaitEnd t l s := rfl
theorem exec_sundialWindow (t l n : Nat) (s : State) : exec (.sundialWindow t l n) s = execSundialWindow t l n s := rfl
theorem exec_pllLockDone (t l : Nat) (s : State) : exec (.pllLockDone t l) s = execPllLockDone t l s := rfl
theorem exec_rampStep (t l : Nat) (s : State) : exec (.rampStep t l) s = execRampStep t l s := rfl
theorem exec_intOscLoss (t l : Nat) (s : State) : exec (.intOscLoss t l) s = execIntOscLoss t l s := rfl
theorem exec_frostClear (t : Nat) (src : Source) (s : State) : exec (.frostClear t src) s = execFrostClear t src s := rfl

/-- An event of a lodge's clocks that are up acts on the device at its instant. -/
theorem State.run_clock {s : State} {t l : Nat} {f : Dev → Dev} (hl : l < 2) (hlive : s.live (.clock l)) :
    s.run t (.clock (l % 2)) f = .next ⟨s.pending, f (s.dev.touch t)⟩ := by
  rw [Nat.mod_eq_of_lt hl, State.run_of_live hlive]

/-- The W1C write of FROST clears its bit alone. -/
theorem writeMerge_frost (l : Nat) (old : Word) : writeMerge (.clock l) 0x8 .clr 0x80#32 old = old &&& ~~~0x80#32 := by
  have hmask : 0x80#32 &&& (BitVec.ofNat 32 ((Blk.clock l).storedMask 0x8) ||| BitVec.ofNat 32 ((Blk.clock l).w1cMask 0x8)) =
      0x80#32 :=
    show 0x80#32 &&& (BitVec.ofNat 32 ((Blk.clock 0).storedMask 0x8) ||| BitVec.ofNat 32 ((Blk.clock 0).w1cMask 0x8)) = _ by
      decide +kernel
  simp only [writeMerge, hmask]

/-- Settles O41: each event by the conditions that its hypotheses decide. -/
theorem referenceEventsComplete : Obligations.ReferenceEventsComplete := by
  unfold Obligations.ReferenceEventsComplete
  refine ⟨?osc, ?window, ?lock, ?ramp, ?loss, ?frost⟩
  case osc =>
    intro s t l p hl hlive hosc hwait
    have hosc' : ((s.dev.touch t).clk l).oscFrom = some p := hosc
    rw [exec_oscWaitEnd, execOscWaitEnd, State.run_clock hl hlive]
    dsimp only
    rw [Nat.mod_eq_of_lt hl, hosc']
    exact congrArg _ (congrArg _ (if_pos hwait))
  case window =>
    intro s t l n hl hlive
    refine ⟨fun htest => ?_, fun htest hswitch hsrc hcal => ?_⟩
    · have htest' : ((s.dev.touch t).clk l).test.isSome = true := Option.isSome_iff_ne_none.mpr htest
      rw [exec_sundialWindow, execSundialWindow, State.run_clock hl hlive]
      dsimp only
      rw [Nat.mod_eq_of_lt hl, if_pos htest']
    · have htest' : ¬((s.dev.touch t).clk l).test.isSome = true := by
        rw [Option.isSome_iff_ne_none, not_not]
        exact htest
      have hswitch' : ¬(s.dev.touch t).switch.isSome = true := by
        rw [Option.isSome_iff_ne_none, not_not]
        exact hswitch
      rw [exec_sundialWindow, execSundialWindow, State.run_clock hl hlive]
      dsimp only
      rw [Nat.mod_eq_of_lt hl, if_neg htest', if_neg hswitch', if_pos ⟨hsrc, hcal⟩]
  case lock =>
    intro s t l hl hlive
    refine ⟨fun h hhold hwarden hret => ?_, fun hhold hphase => ?_⟩
    · rw [exec_pllLockDone, execPllLockDone, State.run_clock hl hlive]
      dsimp only
      rw [Nat.mod_eq_of_lt hl, hhold]
      dsimp only
      rw [if_pos ⟨hwarden, .inl hret⟩]
    · rw [exec_pllLockDone, execPllLockDone, State.run_clock hl hlive]
      dsimp only
      rw [Nat.mod_eq_of_lt hl, hhold]
      dsimp only
      rw [if_neg hphase]
  case ramp =>
    intro s t l hl hlive d hdue
    rw [exec_rampStep, execRampStep, State.run_clock hl hlive]
    dsimp only
    rw [Nat.mod_eq_of_lt hl, show (s.dev.touch t).rampDue l = true from hdue]
    rfl
  case loss =>
    intro s t l hl
    rw [exec_intOscLoss, execIntOscLoss, State.go_eq, if_pos hl]
  case frost =>
    intro s t src hacc
    rw [exec_frostClear, execFrostClear, State.access_accepted hacc, writeMerge_frost, Dev.sundialStsWritten]

end Machine
end Sys2Proof
end

section
/-! PROOFS. SELECT, the phases of a switch, and CLKEN (17 R398, R399, R410 to R412). -/
namespace Sys2Proof
namespace Machine

theorem exec_clkSelect (t : Nat) (src : Source) (sel : BitVec 2) (port : BitVec 3) (s : State) :
    exec (.clkSelect t src sel port) s = execClkSelect t src sel port s := rfl
theorem exec_switchPhaseEnd (t l : Nat) (s : State) : exec (.switchPhaseEnd t l) s = execSwitchPhaseEnd t l s := rfl
theorem exec_clkenWrite (t : Nat) (src : Source) (o : Nat) (w : Word) (s : State) :
    exec (.clkenWrite t src o w) s = execClkenWrite t src o w s := rfl
theorem exec_clkenApply (t : Nat) (s : State) : exec (.clkenApply t) s = execClkenApply t s := rfl

/-! ### SELECT (R398) -/

/-- SRC holds the source that a SELECT names. -/
theorem bitsOf_selectWord (old : Nat) (sel : BitVec 2) (port : BitVec 3) :
    bitsOf (BitVec.ofNat 32 (putBits (putBits old 5 4 sel.toNat) 10 8 port.toNat)).toNat 5 4 = sel.toNat := by
  rw [bitsOf_toNat_ofNat (by omega), bitsOf_putBits_ne (by omega) (by omega), bitsOf_putBits (by omega)]
  exact Nat.mod_eq_of_lt sel.isLt

theorem Dev.clkCtlWritten_select {d : Dev} {l : Nat} {new : Word} (h : bitsOf new.toNat 5 4 ≠ 3) :
    d.clkCtlWritten l new 1#32 = ((((d.setFld (.clock (otherLodge l)) Reg.CLK_CTL.SRC (bitsOf new.toNat 5 4)).setFld
      (.clock (otherLodge l)) Reg.CLK_CTL.PORT (bitsOf new.toNat 10 8)).setFld (.clock (otherLodge l))
        Reg.CLK_CTL.HOLD_WINDOWS (bitsOf new.toNat 23 16)).setWord (.clock l) 0x0 new).selectSource l := by
  have hcmd : bitsOf (1#32).toNat 3 0 = 1 := by decide
  simp only [Dev.clkCtlWritten, if_neg h, hcmd]

/-- R398: a switch begins toward a usable source that is not the active one, while no switch and no hold-over is in progress. -/
theorem Dev.selectSource_eq (d : Dev) (l : Nat) :
    d.selectSource l =
      if d.switch = none ∧ d.hold = none ∧
          d.sourceUsable (d.fld (.clock l) Reg.CLK_CTL.SRC) (d.fld (.clock l) Reg.CLK_CTL.PORT) = true ∧
          (d.fld (.clock l) Reg.CLK_CTL.SRC ≠ d.srcAct l ∨ d.fld (.clock l) Reg.CLK_CTL.SRC = 2 ∧
            d.fld (.clock l) Reg.CLK_CTL.PORT ≠ d.fld (.clock l) Reg.CLK_STS.PORT_ACT) then
        { (d.setClock Reg.CLK_STS.SWITCHING 1).setClock Reg.CLK_STS.PHASE 1 with
          switch := some ⟨d.fld (.clock l) Reg.CLK_CTL.SRC, d.fld (.clock l) Reg.CLK_CTL.PORT, d.now, false⟩ }
      else d.setFld (.clock l) Reg.CLK_STS.CMD_IGN 1 := by
  rw [Dev.selectSource, ← ite_not]
  refine if_congr ?_ rfl rfl
  generalize d.sourceUsable (d.fld (.clock l) Reg.CLK_CTL.SRC) (d.fld (.clock l) Reg.CLK_CTL.PORT) = usable
  generalize d.fld (.clock l) Reg.CLK_CTL.SRC = src, d.fld (.clock l) Reg.CLK_CTL.PORT = port, d.srcAct l = cur,
    d.fld (.clock l) Reg.CLK_STS.PORT_ACT = act
  simp only [Bool.or_eq_true, Bool.and_eq_true, Bool.not_eq_true', beq_iff_eq, bne_iff_ne, Option.isSome_iff_ne_none]
  cases usable <;> tauto

/-- Settles O42: SELECT through CLK_CTL, its outcome by the four conditions, a phase by its number, CLKEN by its range. -/
theorem clockCommandsComplete : Obligations.ClockCommandsComplete := by
  unfold Obligations.ClockCommandsComplete
  refine ⟨?select, ?usable, ?phases, ?clken, ?apply⟩
  case select =>
    intro s t src sel port hl hacc hsel
    have hsel' : sel.toNat ≠ 3 := fun h => hsel (BitVec.eq_of_toNat_eq h)
    rw [exec_clkSelect, execClkSelect, State.access_accepted hacc,
      Dev.clkCtlWritten_select (by rwa [bitsOf_selectWord]), otherLodge_of_lt hl]
  case usable =>
    rintro s l src port rfl rfl
    exact Dev.selectSource_eq _ _
  case phases =>
    intro s t l w hl hlive hw hl'
    have hw' : (s.dev.touch t).switch = some w := hw
    have hwarden : l = (s.dev.touch t).wardenLodge := hl'.symm
    have hexec : exec (.switchPhaseEnd t l) s = .next ⟨s.pending, (s.dev.touch t).endPhase w⟩ := by
      rw [exec_switchPhaseEnd, execSwitchPhaseEnd, State.run_clock hl hlive, hw', Nat.mod_eq_of_lt hl]
      exact congrArg _ (congrArg _ (if_pos hwarden))
    rw [hexec]
    refine ⟨fun hphase hall => ?_, fun hphase hrev => ?_, fun hphase hall => ?_⟩
    · simp only [Dev.endPhase, hphase, if_pos hall]
    · simp only [Dev.endPhase, hphase, if_pos hrev]
    · rw [hwarden] at hall
      simp only [Dev.endPhase, hphase, if_pos hall]
  case clken =>
    intro s t src o w hlo hhi hal hacc
    simp only [exec_clkenWrite, execClkenWrite, if_pos (And.intro hlo (And.intro hhi hal))]
    exact State.access_accepted hacc
  case apply =>
    intro s t
    exact ⟨_, rfl, rfl, rfl, rfl, rfl⟩

end Machine
end Sys2Proof
end

section
/-! PROOFS. Configuration, VFs, resets and BAR4 (15 R359 to R363, R375, R377). -/
namespace Sys2Proof
namespace Machine

theorem exec_configRequest (t p fn : Nat) (op : ConfigOp) (s : State) :
    exec (.configRequest t p fn op) s = execConfigRequest t p fn op s := rfl
theorem exec_bar4Access (t p fn off : Nat) (op : MemOp) (ep : Bool) (s : State) :
    exec (.bar4Access t p fn off op ep) s = execBar4Access t p fn off op ep s := rfl
theorem exec_vfEnable (t p n : Nat) (s : State) : exec (.vfEnable t p n) s = execVfEnable t p n s := rfl
theorem exec_functionLevelReset (t p fn : Nat) (vfs : Bool) (s : State) :
    exec (.functionLevelReset t p fn vfs) s = execFunctionLevelReset t p fn vfs s := rfl
theorem exec_perst (t p : Nat) (s : State) : exec (.perst t p) s = execPerst t p s := rfl

/-! ### BAR4 (R375) -/

section
variable {d : Dev} {p off : Nat} {ep : Bool} (hoff : off < 0x7FFF00000 ∨ 0x800000000 ≤ off)
  (hpop : d.hbmPopulated (d.winAddr p off) = true)
  (hclk : d.clockOn (.hbmCtl (d.winAddr p off / 2 ^ 37) (d.winAddr p off / 2 ^ 36 % 2)) = true)
include hoff hpop hclk

theorem Dev.bar4_read (n : Nat) : d.bar4 p off (.read n) ep =
    (d.noteFrom 0xFF (.lodge p) (Mem.hbm.wordsOf (d.winAddr p off) n)).emit
      [.answer (.pcie p 0) (.bytes (d.readBytes .hbm (d.winAddr p off) n) (d.anyBad .hbm (d.winAddr p off) n))] := by
  have htable : ¬(0x7FFF00000 ≤ off ∧ off < 0x800000000) := by omega
  simp only [Dev.bar4, if_neg htable, hpop, hclk, Bool.not_true, Bool.false_eq_true, if_false]

theorem Dev.bar4_write (bs : List Byte) : d.bar4 p off (.write bs) ep =
    ((if ep then d.sendBad 0xFF (.lodge p) (d.winAddr p off / 2 ^ 37) (Mem.hbm.wordsOf (d.winAddr p off) bs.length).length
      else d).writeWith .hbm (d.winAddr p off) bs (if ep then poison else 0#8)).emit [.answer (.pcie p 0) .done] := by
  have htable : ¬(0x7FFF00000 ≤ off ∧ off < 0x800000000) := by omega
  simp only [Dev.bar4, if_neg htable, hpop, hclk, Bool.not_true, Bool.false_eq_true, if_false]

end

/-- An access of an awake PF within its BAR4 goes to its window. -/
theorem exec_bar4Access_of_awake {s : State} {t p off : Nat} {op : MemOp} {ep : Bool} (hp : p < 2)
    (hready : s.dev.portReady p = true) (hawake : s.dev.asleep = false) (hbar : off < 2 ^ (s.dev.pcie p).barLog2) :
    exec (.bar4Access t p 0 off op ep) s = .next ⟨s.pending, (s.dev.touch t).bar4 p off op ep⟩ := by
  have hready' : (s.dev.touch t).portReady p = true := hready
  have hawake' : (s.dev.touch t).asleep = false := hawake
  have hbar' : ¬((0 : Nat) ≠ 0 || decide (2 ^ ((s.dev.touch t).pcie p).barLog2 ≤ off)) = true := by
    have hlt : off < 2 ^ ((s.dev.touch t).pcie p).barLog2 := hbar
    simpa using hlt
  simp only [exec_bar4Access, execBar4Access, State.go_eq, Nat.mod_eq_of_lt hp, hready', hawake', Bool.not_true,
    Bool.false_eq_true, if_false, Dev.bar4Access, if_neg hbar']

/-- Settles O34: each event by the tests that its hypotheses decide, in the order in which the port makes them. -/
theorem pcieCommandsComplete : Obligations.PcieCommandsComplete := by
  unfold Obligations.PcieCommandsComplete
  refine ⟨?retry, ?config, ?resets, ?bar4⟩
  case retry =>
    intro s t p fn op hp d
    refine ⟨fun hready => ?_, fun hready hasleep => ?_, fun hready hawake hfn => ?_⟩
    · simp only [exec_configRequest, execConfigRequest, State.go_eq, Nat.mod_eq_of_lt hp, show (s.dev.touch t).portReady p = false
        from hready, Bool.not_false, if_true, d]
    · simp only [exec_configRequest, execConfigRequest, State.go_eq, Nat.mod_eq_of_lt hp, show (s.dev.touch t).portReady p = true
        from hready, show (s.dev.touch t).asleep = true from hasleep, Bool.not_true, Bool.false_eq_true, if_false, if_true, d]
    · simp only [exec_configRequest, execConfigRequest, State.go_eq, Nat.mod_eq_of_lt hp, show (s.dev.touch t).portReady p = true
        from hready, show (s.dev.touch t).asleep = false from hawake, show (s.dev.touch t).fnHere p fn = false from hfn,
        Bool.not_true, Bool.not_false, Bool.false_eq_true, if_false, if_true, d]
  case config =>
    intro s t p fn o w e m hp hready hawake hfn
    have hready' : (s.dev.touch t).portReady p = true := hready
    have hawake' : (s.dev.touch t).asleep = false := hawake
    have hfn' : (s.dev.touch t).fnHere p fn = true := hfn
    simp only [exec_configRequest, execConfigRequest, State.go_eq, Nat.mod_eq_of_lt hp, hready', hawake', hfn', Bool.not_true,
      Bool.false_eq_true, if_false, and_self, and_true]
    exact ⟨_, rfl, ⟨_, rfl⟩, rfl, rfl, rfl⟩
  case resets =>
    intro s t p n fn hp hready d
    have hready' : (s.dev.touch t).portReady p = true := hready
    refine ⟨fun hoff hn => ?_, ?_, fun hfn => ?_, ?_⟩
    · have hguard : ¬(!(s.dev.touch t).portReady p || ((s.dev.touch t).pcie p).vfEnable || decide (255 < n)) = true := by
        simpa [hready', show ((s.dev.touch t).pcie p).vfEnable = false from hoff] using hn
      simp only [exec_vfEnable, execVfEnable, State.go_eq, Nat.mod_eq_of_lt hp, if_neg hguard, d]
    · simp only [exec_functionLevelReset, execFunctionLevelReset, State.go_eq, Nat.mod_eq_of_lt hp, hready', Bool.not_true,
        Bool.false_eq_true, if_false, if_true, d]
    · simp only [exec_functionLevelReset, execFunctionLevelReset, State.go_eq, Nat.mod_eq_of_lt hp, hready', Bool.not_true,
        Bool.false_eq_true, if_false, show (s.dev.touch t).fnHere p fn = true from hfn, if_true, d]
    · rw [exec_perst, execPerst, State.go_eq, Nat.mod_eq_of_lt hp]
  case bar4 =>
    intro s t p off n bs ep hp hready hawake hbar hoff d a hpop hclk
    rw [exec_bar4Access_of_awake hp hready hawake hbar, exec_bar4Access_of_awake hp hready hawake hbar,
      Dev.bar4_read hoff hpop hclk, Dev.bar4_write hoff hpop hclk]
    exact ⟨rfl, rfl⟩

end Machine
end Sys2Proof
end

section
/-! PROOFS. Doorbells, fetches and completions of host queues (15 R368 to R372, 20 R449). -/
namespace Sys2Proof
namespace Machine

theorem exec_sqTailDoorbell (t p fn page : Nat) (v : BitVec 16) (s : State) :
    exec (.sqTailDoorbell t p fn page v) s = s.doorbell t true p fn page v.toNat := rfl
theorem exec_cqHeadDoorbell (t p fn page : Nat) (v : BitVec 16) (s : State) :
    exec (.cqHeadDoorbell t p fn page v) s = s.doorbell t false p fn page v.toNat := rfl
theorem exec_commandFetch (t q : Nat) (bytes : List Byte) (s : State) :
    exec (.commandFetch t q bytes) s = execCommandFetch t q bytes s := rfl
theorem exec_completionWrite (t q cid : Nat) (s : State) : exec (.completionWrite t q cid) s = execCompletionWrite t q cid s := rfl
theorem exec_pcieCompletionReceive (t : Nat) (req : Requester) (st : CplStatus) (bs : List Byte) (ep : Bool) (s : State) :
    exec (.pcieCompletionReceive t req st bs ep) s = execPcieCompletionReceive t req st bs ep s := rfl

theorem State.next_congr {s : State} {d d' : Dev} (h : d = d') :
    Host.Outcome.next (φ := Fault) (ρ := Refusal) (State.mk s.pending d) = .next ⟨s.pending, d'⟩ := h ▸ rfl

/-! ### Doorbells (R368, R369) -/

/-- A doorbell of an awake device is written as it comes. -/
theorem State.doorbell_of_awake {s : State} {t p fn page v : Nat} {sq : Bool} (hp : p < 2) (hlive : s.live .queue)
    (hawake : s.dev.asleep = false) :
    s.doorbell t sq p fn page v = .next ⟨s.pending, (s.dev.touch t).doorbellWrite sq p fn page v⟩ := by
  rw [State.doorbell, hawake, if_neg Bool.false_ne_true, State.run_of_live hlive, Nat.mod_eq_of_lt hp]

section
variable {d : Dev} {p fn page : Nat} (hready : d.portReady p = true) (hfn : d.fnHere p fn = true)
  (hclk : d.clockOn .queue = true) {f : Dev → Nat → Dev}
include hready hfn hclk

theorem Dev.ring_of_queue {q : Nat} (hq : d.doorbell p fn page = some q) (herr : d.queueInError q = false) :
    d.ring p fn page f = f d q := by
  simp only [Dev.ring, hready, hfn, hclk, Bool.not_true, Bool.or_self, Bool.false_eq_true, if_false, hq, herr]

theorem Dev.doorbellWrite_sq {q v : Nat} (hq : d.doorbell p fn page = some q) (herr : d.queueInError q = false) :
    d.doorbellWrite true p fn page v =
      if v < 2 ^ d.qfld q Ctx.sqLog2 then d.setQfld q Ctx.sqTail v else d.hostQueueError q St.dbRange := by
  rw [Dev.doorbellWrite, Dev.ring_of_queue hready hfn hclk hq herr, if_pos rfl, ← ite_not]
  exact if_congr Nat.not_le rfl rfl

theorem Dev.doorbellWrite_cq {q v n h : Nat} (hq : d.doorbell p fn page = some q) (herr : d.queueInError q = false)
    (hn : 2 ^ d.qfld q Ctx.cqLog2 = n) (hh : d.qfld q Ctx.cqHead = h) :
    d.doorbellWrite false p fn page v =
      if v < n ∧ (v + n - h) % n ≤ (d.qfld q Ctx.cqTail + n - h) % n then d.setQfld q Ctx.cqHead v
      else d.hostQueueError q St.dbRange := by
  subst hn hh
  rw [Dev.doorbellWrite, Dev.ring_of_queue hready hfn hclk hq herr, if_neg Bool.false_ne_true, ← ite_not]
  refine if_congr ?_ rfl rfl
  rw [Bool.or_eq_true, decide_eq_true_eq, decide_eq_true_eq, not_or, Nat.not_le, Nat.not_lt]

theorem Dev.doorbellWrite_dropped {sq : Bool} {v : Nat} (hq : d.doorbell p fn page = none) :
    d.doorbellWrite sq p fn page v =
      (d.countSat .queue Reg.QUEUE_DB_DROP_CNT.COUNT 1).setFld .queue Reg.QUEUE_STS.DB_DROP 1 := by
  simp only [Dev.doorbellWrite, Dev.ring, hready, hfn, hclk, Bool.not_true, Bool.or_self, Bool.false_eq_true, if_false, hq]

end

/-- A completion of a queue of the host that failed puts the queue in ERROR (R371). -/
theorem hostQueueError_of_failed {d : Dev} {q e : Nat} {st : CplStatus} (hst : st ≠ .success) (hkind : d.qfld q Ctx.kind = 1) :
    (if st = .success || d.qfld q Ctx.kind != 1 then d else d.hostQueueError q e) = d.hostQueueError q e := by
  rw [if_neg]
  simp [hst, hkind]

/-- Settles O35: a doorbell by its queue and its range, a fetch and a completion by their conditions. -/
theorem hostQueuesComplete : Obligations.HostQueuesComplete := by
  unfold Obligations.HostQueuesComplete
  refine ⟨?doorbells, ?fetch, ?complete, ?fails⟩
  case doorbells =>
    intro s t p fn page q v hp hlive hawake hready hfn hclk d n head
    rw [exec_sqTailDoorbell, exec_cqHeadDoorbell, State.doorbell_of_awake hp hlive hawake,
      State.doorbell_of_awake hp hlive hawake]
    have hready' : d.portReady p = true := hready
    have hfn' : d.fnHere p fn = true := hfn
    have hclk' : d.clockOn .queue = true := hclk
    refine ⟨fun hq herr => ⟨?tail, ?head⟩, fun hq => ?dropped⟩
    case tail => exact State.next_congr (Dev.doorbellWrite_sq hready' hfn' hclk' hq herr)
    case head => exact State.next_congr (Dev.doorbellWrite_cq hready' hfn' hclk' hq herr rfl rfl)
    case dropped => exact State.next_congr (Dev.doorbellWrite_dropped hready' hfn' hclk' hq)
  case fetch =>
    intro s t q bytes hlive hclk hlen d head hkind hstate hhead hroom c d1
    have hguard : ¬(d.qfld q Ctx.kind ≠ 1 || d.qfld q Ctx.state != 0 || d.qfld q Ctx.sqHead == d.qfld q Ctx.sqTail ||
        decide (d.qfld q Ctx.limit ≤ d.qfld q Ctx.outstanding) || bytes.length != 64 || !d.clockOn .queue) = true := by
      simp [hkind, hstate, hlen, Nat.not_le.mpr hroom, show d.clockOn .queue = true from hclk,
        show ¬d.qfld q Ctx.sqHead = d.qfld q Ctx.sqTail from hhead]
    rw [exec_commandFetch, execCommandFetch, State.run_of_live hlive]
    dsimp only
    rw [if_neg hguard]
    cases d.fetchStatus c with
    | none => rfl
    | some e => rfl
  case complete =>
    intro s t q cid i c hlive d hfound
    rw [exec_completionWrite, execCompletionWrite, State.run_of_live hlive, hfound]
  case fails =>
    intro s t q st bs ep hlive hst hkind
    have hkind' : (s.dev.touch t).qfld q Ctx.kind = 1 := hkind
    simp only [exec_pcieCompletionReceive, execPcieCompletionReceive, State.run_of_live hlive,
      hostQueueError_of_failed hst hkind']
    exact ⟨rfl, rfl⟩

end Machine
end Sys2Proof
end

section
/-! PROOFS. Context commands and bed vectors (15 R365, R367, R373, R374). -/
namespace Sys2Proof
namespace Machine

theorem exec_qctxRead (t : Nat) (src : Source) (s : State) : exec (.qctxRead t src) s = execQctxRead t src s := rfl
theorem exec_qctxWrite (t : Nat) (src : Source) (s : State) : exec (.qctxWrite t src) s = execQctxWrite t src s := rfl
theorem exec_qctxAbortAll (t : Nat) (src : Source) (s : State) : exec (.qctxAbortAll t src) s = execQctxAbortAll t src s := rfl
theorem exec_qctxReset (t : Nat) (src : Source) (s : State) : exec (.qctxReset t src) s = execQctxReset t src s := rfl
theorem exec_queueBedVecWrite (t : Nat) (src : Source) (bed : Nat) (w : Word) (s : State) :
    exec (.queueBedVecWrite t src bed w) s = execQueueBedVecWrite t src bed w s := rfl

/-- An accepted context command has its effect on the device as acceptance leaves it. -/
theorem State.qctx_accepted {s : State} {t : Nat} {src : Source} {f : Dev → Dev} (h : s.accepts src .queue 0x4) :
    s.access t src .queue (fun d => d.qctxRow src f) = .next ⟨s.pending, f (s.written t src .queue)⟩ := by
  obtain ⟨hlive, hreach, hwrite⟩ := State.accepts_split h
  obtain ⟨hawake, hans, hfn⟩ := State.reached_split hreach
  have hfn' : (s.dev.touch t).noSuchFn src = false := hfn
  rw [State.access_of_awake hawake, State.run_of_live hlive, Dev.qctxRow, hfn', if_neg Bool.false_ne_true,
    State.rowWrite_of_writable hans hwrite]

/-! ### The commands of a queue that the sender owns, and of another's (R373, R374) -/

section
variable {d : Dev} {src : Source} {q : Nat} (hq : d.qctxSel src = q)
include hq

theorem Dev.qctxReadCmd_of_owned (h : d.owns src q = true) : d.qctxReadCmd src = (List.range 16).foldl (fun e n =>
    e.setQword src (0x40 + 4 * n) (BitVec.ofNat 32 ((d.ctx q).toNat / 2 ^ (32 * n) % 2 ^ 32))) d := by
  simp only [Dev.qctxReadCmd, hq, h, Bool.not_true, Bool.false_eq_true, if_false]

theorem Dev.qctxAbortCmd_of_owned (h : d.owns src q = true) : d.qctxAbortCmd src =
    if d.qfld q Ctx.kind = 1 then d.abortAll q else d.setQsts src Reg.QUEUE_STS.CMD_IGN 1 := by
  simp only [Dev.qctxAbortCmd, hq, h, Bool.not_true, Bool.false_eq_true, if_false]

theorem Dev.qctxWriteCmd_of_owned (h : d.owns src q = true) {c : BitVec 512} (hc : d.vfMerge src q (d.qctxData src) = c) :
    d.qctxWriteCmd src =
      if ¬(d.queueEmpty q = true ∨ d.qfld q Ctx.kind ≠ 0 ∧ d.queueInError q = true) then d.rejectCtx src 1
      else if d.ctxOk c = false then d.rejectCtx src 2
      else if ctxGet c Ctx.kind ≠ 0 ∧ (ctxGet c Ctx.msix).testBit 15 = true ∧
        d.vectorBad (ctxGet c Ctx.func) (ctxGet c Ctx.msix % 2 ^ 11) = true then d.rejectCtx src 3
      else if d.pageUsed q c then d.rejectCtx src 5
      else (d.orphanQueue q).setCtx q (ctxFresh (d.ctx q) c) := by
  simp only [Dev.qctxWriteCmd, hq, h, hc, Bool.not_true, Bool.false_eq_true, if_false, Bool.not_eq_true',
    Bool.or_eq_true, Bool.and_eq_true, bne_iff_ne, ← Bool.not_eq_true]

theorem Dev.qctxResetCmd_of_host (h : d.owns src q = true) (hkind : d.qfld q Ctx.kind = 1) : d.qctxResetCmd src =
    if d.qfld q Ctx.outstanding = 0 then (d.orphanQueue q).setCtx q 0#512 else d.rejectCtx src 6 := by
  simp only [Dev.qctxResetCmd, hq, h, hkind, Bool.not_true, Bool.false_eq_true, if_false, beq_iff_eq, Dev.zeroQueue]

theorem Dev.qctxResetCmd_of_bed (h : d.owns src q = true) (hkind : d.qfld q Ctx.kind = 2) : d.qctxResetCmd src =
    if d.queueEmpty q = true ∨ d.queueInError q = true then (d.orphanQueue q).setCtx q 0#512 else d.rejectCtx src 6 := by
  simp only [Dev.qctxResetCmd, hq, h, hkind, Bool.not_true, Bool.false_eq_true, if_false, Bool.or_eq_true, Dev.zeroQueue]

end

/-- Settles O37: each command through QUEUE_CTL by its sender's queue, a bed's vector through its register. -/
theorem queueWritesComplete : Obligations.QueueWritesComplete := by
  unfold Obligations.QueueWritesComplete
  refine ⟨?commands, ?bedVec⟩
  case commands =>
    intro s t src hacc d q c
    have hread : exec (.qctxRead t src) s = .next ⟨s.pending, d.qctxReadCmd src⟩ := State.qctx_accepted hacc
    have hwrite : exec (.qctxWrite t src) s = .next ⟨s.pending, d.qctxWriteCmd src⟩ := State.qctx_accepted hacc
    have habort : exec (.qctxAbortAll t src) s = .next ⟨s.pending, d.qctxAbortCmd src⟩ := State.qctx_accepted hacc
    have hreset : exec (.qctxReset t src) s = .next ⟨s.pending, d.qctxResetCmd src⟩ := State.qctx_accepted hacc
    refine ⟨fun hown => ⟨?_, ?_, ?_, fun hkind => ?_, fun hkind => ?_⟩, fun hown => ?other, fun hvf => ?_⟩
    · rw [hread, Dev.qctxReadCmd_of_owned rfl hown]
    · rw [habort, Dev.qctxAbortCmd_of_owned rfl hown]
    · rw [hwrite, Dev.qctxWriteCmd_of_owned rfl hown rfl]
    · rw [hreset, Dev.qctxResetCmd_of_host rfl hown hkind]
    · rw [hreset, Dev.qctxResetCmd_of_bed rfl hown hkind]
    case other =>
      have hown' : (!d.owns src (d.qctxSel src)) = true := by rw [show d.owns src (d.qctxSel src) = false from hown]; rfl
      simp only [List.forall_mem_cons, List.not_mem_nil, false_imp_iff, implies_true, and_true]
      refine ⟨?_, ?_, ?_, ?_⟩
      · rw [hread, Dev.qctxReadCmd, if_pos hown']
      · rw [hwrite, Dev.qctxWriteCmd, if_pos hown']
      · rw [habort, Dev.qctxAbortCmd, if_pos hown']
      · rw [hreset, Dev.qctxResetCmd, if_pos hown']
    · exact ⟨by rw [Dev.owns, hvf], by simp only [c, Dev.vfMerge, hvf]⟩
  case bedVec =>
    intro s t src bed w hbed hacc d
    have hrow : exec (.queueBedVecWrite t src bed w) s = .next ⟨s.pending, d.bedVecWritten bed w⟩ := by
      simp only [exec_queueBedVecWrite, execQueueBedVecWrite, if_neg (Nat.not_le.mpr hbed)]
      exact State.access_accepted hacc
    simp only [hrow, Dev.bedVecWritten, Bool.and_eq_true, Dev.rejectCtx]

end Machine
end Sys2Proof
end

section
/-! PROOFS. The log and its commands, the scrubbers, control state and watchdogs (16 Table 16.2, 18 R419 to R421, R424, R427). -/
namespace Sys2Proof
namespace Machine

theorem exec_faultPop (t : Nat) (src : Source) (s : State) : exec (.faultPop t src) s = execFaultPop t src s := rfl
theorem exec_faultClear (t : Nat) (src : Source) (s : State) : exec (.faultClear t src) s = execFaultClear t src s := rfl
theorem exec_scrubRead (t : Nat) (u : ScrubUnit) (s : State) : exec (.scrubRead t u) s = execScrubRead t u s := rfl
theorem exec_controlStateMismatch (t : Nat) (m : Mismatch) (s : State) :
    exec (.controlStateMismatch t m) s = execControlStateMismatch t m s := rfl
theorem exec_keeperWatchdog (t l core : Nat) (s : State) : exec (.keeperWatchdog t l core) s = execKeeperWatchdog t l core s := rfl

/-! ### FAULT_CTL (R427) -/

/-- FAULT lies on no die and IDLE leaves its clock running: an accepted write there is answered, and nothing else comes before its
effect. -/
theorem State.written_fault (s : State) (t : Nat) (src : Source) :
    s.written t src .fault = (s.dev.touch t).emit [.answer src .done] := by
  simp [State.written, Dev.wakeIdle, Blk.idleStops, Blk.dieOf]

theorem State.written_fault_log (s : State) (t : Nat) (src : Source) : (s.written t src .fault).log = s.dev.log := by
  rw [State.written_fault, Dev.emit_log, Dev.touch_log]

theorem Dev.faultCtlWritten_pop (d : Dev) (new : Word) : d.faultCtlWritten new 1#32 = (d.setWord .fault 0x0 new).popLog := by
  have hcmd : bitsOf (1#32).toNat 3 0 = 1 := by decide
  simp only [Dev.faultCtlWritten, hcmd]

theorem Dev.faultCtlWritten_clear (d : Dev) (new : Word) :
    d.faultCtlWritten new 2#32 = { d.setWord .fault 0x0 new with log := [] } := by
  have hcmd : bitsOf (2#32).toNat 3 0 = 2 := by decide
  simp only [Dev.faultCtlWritten, hcmd]

theorem Dev.popLog_of_nil {d : Dev} (h : d.log = []) : d.popLog = d.setFld .fault Reg.FAULT_STS.CMD_IGN 1 := by
  rw [Dev.popLog, h]

theorem Dev.popLog_of_cons {d : Dev} {e : LogEntry} {es : List LogEntry} (h : d.log = e :: es) :
    d.popLog = { d with log := es } := by
  rw [Dev.popLog, h]

section
variable {s : State} {t : Nat} {src : Source} (hacc : s.accepts src .fault 0x0) {d : Dev}
  (hd : (s.written t src .fault).setWord .fault 0x0 ((s.written t src .fault).word .fault 0x0) = d)
include hacc hd

/-- POP and CLEAR leave the other fields of FAULT_CTL; the log is as it was before the write. -/
theorem exec_faultPop_of_accepted : exec (.faultPop t src) s = .next ⟨s.pending, d.popLog⟩ := by
  rw [exec_faultPop, execFaultPop, State.access_accepted hacc, Dev.faultCtlWritten_pop, hd]

theorem exec_faultClear_of_accepted : exec (.faultClear t src) s = .next ⟨s.pending, { d with log := [] }⟩ := by
  rw [exec_faultClear, execFaultClear, State.access_accepted hacc, Dev.faultCtlWritten_clear, hd]

omit hacc in
theorem log_of_written : d.log = s.dev.log := by
  rw [← hd, Dev.setWord_log, State.written_fault_log]

end

/-- Settles O43: POP by whether the log is empty, a scrubber's and a keeper's event by its number, a mismatch by its block. -/
theorem reliabilityCommandsComplete : Obligations.ReliabilityCommandsComplete := by
  unfold Obligations.ReliabilityCommandsComplete
  refine ⟨?log, ?hbm, ?sram, ?plot, ?other, ?watchdog⟩
  case log =>
    intro s t src hacc d0 d
    have hlog : d.log = s.dev.log := log_of_written rfl
    refine ⟨fun hnil => ?_, fun e es hcons => ?_, ?_⟩
    · rw [exec_faultPop_of_accepted hacc rfl, Dev.popLog_of_nil (hlog.trans hnil)]
    · rw [exec_faultPop_of_accepted hacc rfl, Dev.popLog_of_cons (hlog.trans hcons)]
    · exact exec_faultClear_of_accepted hacc rfl
  case hbm =>
    intro s t k hlive hk
    simp only [exec_scrubRead, execScrubRead, State.run_of_live hlive, Nat.mod_eq_of_lt hk]
  case sram =>
    intro s t k hlive hk
    simp only [exec_scrubRead, execScrubRead, State.run_of_live hlive, Nat.mod_eq_of_lt hk]
  case plot =>
    intro s t die p bed hbed d
    have hserved : (s.dev.touch t).bedServed (.plot die p) = some bed := hbed
    rw [exec_controlStateMismatch, execControlStateMismatch, State.go_eq]
    dsimp only
    rw [hserved]
    rfl
  case other =>
    intro s t b hb
    rw [exec_controlStateMismatch, execControlStateMismatch, State.go_eq]
    dsimp only
    rw [if_neg (by rw [hb]; exact Bool.false_ne_true)]
  case watchdog =>
    intro s t l core hl hcore hlive htime hup d up d1
    have htime' : ¬d.fld (.lodgeCtl l) Reg.KEEPER_WDOG.TIMEOUT_US = 0 := htime
    have hup' : (d.fld (.lodgeCtl l) Reg.LODGE_STS.KEEPER_UP).testBit core = true := hup
    rw [exec_keeperWatchdog, execKeeperWatchdog, Nat.mod_eq_of_lt hl, State.run_of_live hlive, Nat.mod_eq_of_lt hcore,
      if_neg htime', Dev.stopKeeper]
    dsimp only
    rw [if_pos hup']

/-! ### The log itself (R424) -/

theorem length_logInsert (e : LogEntry) (es : List LogEntry) : (logInsert e es).length = es.length + 1 := by
  induction es with
  | nil => rfl
  | cons x xs ih =>
    rw [logInsert]
    split
    · rw [List.length_cons, ih, List.length_cons]
    · rfl

theorem length_logAppend (e : LogEntry) (es : List LogEntry) : (logAppend e es).length = es.length + 1 := by
  cases es with
  | nil => rfl
  | cons x xs => rw [logAppend, List.length_cons, length_logInsert, List.length_cons]

theorem Dev.raiseVector_log (d : Dev) (f v : Nat) : (d.raiseVector f v).log = d.log := by
  unfold Dev.raiseVector
  (repeat' split) <;> rfl

theorem Dev.logIrq_log (d : Dev) : d.logIrq.log = d.log := by
  rw [Dev.logIrq, Dev.raiseBoth, Dev.raiseVector_log, Dev.raiseVector_log, Dev.emit_log]

/-- A full log stores none; any other takes the entry behind its oldest. -/
theorem Dev.logPush_log (d : Dev) (e : LogEntry) :
    (d.logPush e).log = if 1024 ≤ d.log.length then d.log else logAppend e d.log := by
  unfold Dev.logPush
  split
  · rw [Dev.setFld_log, Dev.countSat_log]
  · dsimp only
    (repeat' split) <;> simp only [Dev.logIrq_log, Dev.setFld_log]

/-! ### FAULT_LOG_DATA (R427) -/

theorem Dev.readReg_faultLogData {d : Dev} {e : LogEntry} {es : List LogEntry} {n : Nat} (h : d.log = e :: es) (hn : n < 8) :
    d.readReg .fault (0x40 + 4 * n) = BitVec.ofNat 32 (e.toNat / 2 ^ (32 * n)) := by
  have hlisted : ∀ n < 8, Blk.fault.listed (0x40 + 4 * n) = true := by decide +kernel
  have hposted : ¬(0x40 + 4 * n = 0 ∧ Blk.fault.posted = true ∧ d.isBusy .fault = true) := by omega
  have hrange : 0x40 ≤ 0x40 + 4 * n ∧ 0x40 + 4 * n < 0x60 := by omega
  have hshift : 8 * (0x40 + 4 * n - 0x40) = 32 * n := by omega
  simp only [Dev.readReg, hlisted n hn, Bool.not_true, Bool.false_eq_true, if_false, if_neg hposted, Dev.view, Dev.faultReg,
    if_pos hrange, h, hshift]

/-- Settles O55: the oldest entry is read at FAULT_LOG_DATA, stays at the log's head, and leaves it by POP and CLEAR alone. -/
theorem logKeepsItsOldestEntry : Obligations.LogKeepsItsOldestEntry := by
  unfold Obligations.LogKeepsItsOldestEntry
  refine ⟨fun d e es n h hn => Dev.readReg_faultLogData h hn, ?head, ?length, ?full, ?commands⟩
  case head =>
    intro d e x es h
    rw [Dev.logPush_log, h]
    split <;> rfl
  case length =>
    intro d x
    rw [Dev.logPush_log]
    split
    · rfl
    · exact length_logAppend x d.log
  case full =>
    intro d x hfull
    rw [Dev.logPush_log, if_pos hfull]
  case commands =>
    intro s t src hacc
    have hlog := log_of_written (s := s) (t := t) (src := src) rfl
    refine ⟨fun e es hcons => ?_, fun hnil => ?_, ?_⟩
    · exact ⟨_, exec_faultPop_of_accepted hacc rfl, by rw [Dev.popLog_of_cons (hlog.trans hcons)]⟩
    · refine ⟨_, exec_faultPop_of_accepted hacc rfl, ?_, _, Dev.popLog_of_nil (hlog.trans hnil)⟩
      rw [Dev.popLog_of_nil (hlog.trans hnil), Dev.setFld_log]
      exact hlog.trans hnil
    · refine ⟨_, exec_faultClear_of_accepted hacc rfl, rfl, ?_⟩
      have hword (w : Word) : ((s.written t src .fault).setWord .fault 0x0 w).word .fault Reg.FAULT_LOST_CNT.COUNT.off =
          s.dev.word .fault Reg.FAULT_LOST_CNT.COUNT.off := by
        rw [Dev.word_setWord_ne (by decide), State.written_fault]
        rfl
      exact congrArg (fun w => bitsOf (BitVec.toNat w) Reg.FAULT_LOST_CNT.COUNT.hi Reg.FAULT_LOST_CNT.COUNT.lo) (hword _)

end Machine
end Sys2Proof
end

section
/-! PROOFS. The decision of a hedge checker (18 R415, Tables 18.1, 18.2). -/
namespace Sys2Proof
namespace Machine

/-! ### The column that a syndrome is -/

theorem findColumn_eq_none_iff (s : BitVec 8) (hs : List (BitVec 8)) (b : Nat) : findColumn s hs b = none ↔ s ∉ hs := by
  induction hs generalizing b with
  | nil => simp [findColumn]
  | cons h hs ih =>
    rw [findColumn, List.mem_cons, not_or]
    split
    next heq => simp [heq]
    next hne => simp [ih, hne]

theorem findColumn_ne_of_lt {s : BitVec 8} {hs : List (BitVec 8)} {b i : Nat} (h : i < b) : findColumn s hs b ≠ some i := by
  induction hs generalizing b with
  | nil => simp [findColumn]
  | cons h hs ih =>
    rw [findColumn]
    split
    · simp; omega
    · exact ih (by omega)

theorem findColumn_eq_some_iff {s : BitVec 8} {hs : List (BitVec 8)} (hnodup : hs.Nodup) (b i : Nat) :
    findColumn s hs b = some (b + i) ↔ hs[i]? = some s := by
  induction hs generalizing b i with
  | nil => simp [findColumn]
  | cons h hs ih =>
    obtain ⟨hnotin, hnodup⟩ := List.nodup_cons.mp hnodup
    rw [findColumn]
    cases i with
    | zero =>
      split
      next heq => simp [heq]
      next hne => simp [findColumn_ne_of_lt, Ne.symm hne]
    | succ i =>
      split
      next heq =>
        have hout : hs[i]? ≠ some s := fun hi => hnotin (heq ▸ List.mem_of_getElem? hi)
        simp [hout]
      next hne => rw [List.getElem?_cons_succ, ← ih hnodup (b + 1) i, Nat.add_right_comm, Nat.add_assoc]

theorem hedgeColumns_nodup : hedgeColumns.Nodup := by decide +kernel

theorem zero_notMem_hedgeColumns : 0#8 ∉ hedgeColumns := by decide

theorem hedgeCheck_eq_corrected_iff (s : BitVec 8) (b : Nat) : hedgeCheck s = .corrected b ↔ hedgeColumns[b]? = some s := by
  have hcol := findColumn_eq_some_iff (s := s) hedgeColumns_nodup 0 b
  rw [Nat.zero_add] at hcol
  rw [← hcol, hedgeCheck]
  split
  next h0 =>
    have hnone := (findColumn_eq_none_iff s hedgeColumns 0).mpr (h0 ▸ zero_notMem_hedgeColumns)
    simp [hnone]
  · split
    next heq => simp [heq]
    next heq => simp [heq]

theorem hedgeCheck_eq_bad_iff (s : BitVec 8) : hedgeCheck s = .bad ↔ s ≠ 0#8 ∧ s ∉ hedgeColumns := by
  rw [← findColumn_eq_none_iff s hedgeColumns 0, hedgeCheck]
  split
  next h0 => simp [h0]
  next h0 =>
    split
    next heq => simp [heq]
    next heq => simp [heq, h0]

/-! ### Two wrong bits (Table 18.2): every column has an odd number of ones -/

/-- The parity of the bits of a syndrome that `is` names. -/
def bitParity (s : BitVec 8) (is : List Nat) : Bool := is.foldr (fun i p => s.getLsbD i ^^ p) false

theorem bitParity_xor (x y : BitVec 8) (is : List Nat) : bitParity (x ^^^ y) is = (bitParity x is ^^ bitParity y is) := by
  induction is with
  | nil => rfl
  | cons i is ih =>
    simp only [bitParity, List.foldr_cons, BitVec.getLsbD_xor] at ih ⊢
    rw [ih]
    cases x.getLsbD i <;> cases y.getLsbD i <;> simp

theorem bitParity_of_column {x : BitVec 8} (h : x ∈ hedgeColumns) : bitParity x (List.range 8) = true := by
  have hall : ∀ x ∈ hedgeColumns, bitParity x (List.range 8) = true := by decide +kernel
  exact hall x h

theorem hedgeCheck_two_columns {x y : BitVec 8} (hx : x ∈ hedgeColumns) (hy : y ∈ hedgeColumns) (hne : x ≠ y) :
    hedgeCheck (x ^^^ y) = .bad := by
  refine (hedgeCheck_eq_bad_iff _).mpr ⟨fun h0 => hne (BitVec.xor_eq_zero_iff.mp h0), fun hcol => ?_⟩
  have heven : bitParity (x ^^^ y) (List.range 8) = false := by
    rw [bitParity_xor, bitParity_of_column hx, bitParity_of_column hy, Bool.xor_self]
  exact Bool.false_ne_true (heven.symm.trans (bitParity_of_column hcol))

/-- Settles O56: the decision by the column that the syndrome is; two columns never add up to a column. -/
theorem checkersFollowTheSyndrome : Obligations.CheckersFollowTheSyndrome := by
  unfold Obligations.CheckersFollowTheSyndrome
  refine ⟨hedgeCheck_eq_clean_iff, hedgeCheck_eq_corrected_iff, hedgeCheck_eq_bad_iff, ?corrected, ?asStored, ?two⟩
  case corrected =>
    intro d m a b h
    rw [Dev.readByte, h]
  case asStored =>
    intro d m a h
    refine Dev.readByte_of_not_corrected fun b hb => ?_
    rcases h with h | h <;> exact absurd (hb.symm.trans h) (by simp)
  case two =>
    intro i j x y hij hx hy
    refine hedgeCheck_two_columns (List.mem_of_getElem? hx) (List.mem_of_getElem? hy) fun hxy => ?_
    have hci := (hedgeCheck_eq_corrected_iff x i).mpr hx
    have hcj := (hedgeCheck_eq_corrected_iff x j).mpr (hxy ▸ hy)
    exact absurd (Check.corrected.inj (hci.symm.trans hcj)) hij.ne

end Machine
end Sys2Proof
end

section
/-! PROOFS. Start-up steps and HBM training (19 R428, R430 to R432, R437, 21 R465, R467). -/
namespace Sys2Proof
namespace Machine

theorem exec_pwrgdRise (t : Nat) (a b : Straps) (s : State) : exec (.pwrgdRise t a b) s = execPwrgdRise t a b s := rfl
theorem exec_hbmAttemptEnd (t k step cause rows : Nat) (s : State) :
    exec (.hbmAttemptEnd t k step cause rows) s = execHbmAttemptEnd t k step cause rows s := rfl
theorem exec_startStepEnd (t l : Nat) (r : StepResult) (s : State) :
    exec (.startStepEnd t l r) s = execStartStepEnd t l r s := rfl

/-! ### HBM training (R431, R432) -/

/-- An attempt that ends well, or fails at a step with a cause of Table 19.13, ends; after the last stack step 7 does. -/
theorem exec_hbmAttemptEnd_of_training {s : State} {t k step cause rows : Nat} (hk : k < 16)
    (hlive : s.live (.hbmCtl (k / 2) (k % 2)))
    (hstate : (s.dev.touch t).fld (.hbmCtl (k / 2) (k % 2)) Reg.HBM_STS.STATE = 1)
    (hcause : cause = 0 ∨ (1 ≤ step ∧ step ≤ 11 ∧ (cause = 11 ∨ cause = step ∧ step ≤ 10))) {d : Dev}
    (hd : (s.dev.touch t).endAttempt k step cause rows = d) :
    exec (.hbmAttemptEnd t k step cause rows) s = .next ⟨s.pending,
      if d.stacksTrained then d.endStep d.wardenLodge 7 8 else d⟩ := by
  have hvalid : (cause == 0 || (decide (1 ≤ step ∧ step ≤ 11) &&
      (cause == 0xB || (cause == step && decide (step ≤ 10))))) = true := by
    simpa [and_assoc] using hcause
  rw [exec_hbmAttemptEnd, execHbmAttemptEnd, Nat.mod_eq_of_lt hk, State.run_of_live hlive]
  dsimp only
  rw [if_pos ⟨hstate, hvalid⟩, hd]

/-! ### The steps of a lodge (R428, R430) -/

/-- What a step of a lodge that goes on ends with, by the step and its result. -/
def Dev.stepEnds (d : Dev) (l : Nat) (r : StepResult) : Dev :=
  match (d.lodge l).step, r with
  | 3, .image bs cert => d.gatehouseStep l bs cert
  | 4, .boot m => d.bootStep l m
  | 6, .image bs _ => if d.isSet (.lodgeCtl l) Reg.LODGE_STS.FW_UP then d else d.firmwareStep l bs
  | 8, .bist a b e h c => if d.isWarden l then d.bistStep l a b e h c else d
  | n, .failed c => if n = 3 ∨ n = 4 ∨ n = 6 ∨ n = 8 then d.stopLodge l c else d
  | _, _ => d

theorem exec_startStepEnd_of_running {s : State} {t l : Nat} (hl : l < 2) (hlive : s.live (.security l))
    (hrun : (s.dev.lodge l).stopped = false) (hpower : s.dev.powerState ≠ 5) (r : StepResult) :
    exec (.startStepEnd t l r) s = .next ⟨s.pending, (s.dev.touch t).stepEnds l r⟩ := by
  have hgoes : ¬(((s.dev.touch t).lodge l).stopped || (s.dev.touch t).powerState == 5) = true := by
    rw [show ((s.dev.touch t).lodge l).stopped = false from hrun, Bool.false_or, beq_iff_eq]
    exact hpower
  rw [exec_startStepEnd, execStartStepEnd, Nat.mod_eq_of_lt hl, State.run_of_live hlive]
  dsimp only
  rw [if_neg hgoes]
  rfl

section
variable {d : Dev} {l : Nat}

theorem Dev.stepEnds_failed (c : Nat)
    (hstep : (d.lodge l).step = 3 ∨ (d.lodge l).step = 4 ∨ (d.lodge l).step = 6 ∨ (d.lodge l).step = 8) :
    d.stepEnds l (.failed c) = d.stopLodge l c := by
  rcases hstep with h | h | h | h <;> simp [Dev.stepEnds, h]

/-- Step 3 ends by the image that it read (R430, R437). -/
theorem Dev.stepEnds_gatehouse (hstep : (d.lodge l).step = 3) (bs cert : List Byte) :
    d.stepEnds l (.image bs cert) = d.gatehouseStep l bs cert := by
  simp only [Dev.stepEnds, hstep]

theorem Dev.stepEnds_boot (hstep : (d.lodge l).step = 4) (m : Option BootMedia) :
    d.stepEnds l (.boot m) = d.bootStep l m := by
  simp only [Dev.stepEnds, hstep]

theorem Dev.stepEnds_firmware (hstep : (d.lodge l).step = 6) (hfw : d.isSet (.lodgeCtl l) Reg.LODGE_STS.FW_UP = false)
    (bs cert : List Byte) : d.stepEnds l (.image bs cert) = d.firmwareStep l bs := by
  simp only [Dev.stepEnds, hstep, hfw, Bool.false_eq_true, if_false]

theorem Dev.stepEnds_bist (hstep : (d.lodge l).step = 8) (hwarden : d.isWarden l = true) (arrays stages engines : List Nat)
    (hint : List Byte) (calib : List (Nat × Word)) :
    d.stepEnds l (.bist arrays stages engines hint calib) = d.bistStep l arrays stages engines hint calib := by
  simp only [Dev.stepEnds, hstep, hwarden, if_true]

/-! ### Step 4 (R430, R435 to R439, Table 19.2) -/

theorem Dev.bootStep_of_bad_strap {m : Option BootMedia} (hboot : (d.lodge l).straps.boot = 3) :
    d.bootStep l m = d.stopLodge l 6 := by
  simp only [Dev.bootStep, if_pos hboot]

/-- Without media the lodge stops with FLASH. -/
theorem Dev.bootStep_of_no_media (hboot : (d.lodge l).straps.boot ≠ 3) : d.bootStep l none = d.stopLodge l 5 := by
  rw [Dev.bootStep, if_neg hboot]

theorem Dev.bootStep_of_no_identity {m : BootMedia} (hboot : (d.lodge l).straps.boot < 2) (hident : m.ident = none) :
    d.bootStep l (some m) = d.stopLodge l 7 := by
  have hguard : (m.ident.isNone && (d.lodge l).straps.boot != 2) = true := by
    rw [hident, Option.isNone_none, Bool.true_and, bne_iff_ne]
    omega
  rw [Dev.bootStep, if_neg (by omega)]
  dsimp only
  rw [if_pos hguard]

section
variable {m : BootMedia} (hboot : (d.lodge l).straps.boot ≠ 3) (hident : m.ident ≠ none)
include hboot hident

theorem Dev.bootStep_of_no_counters (hctr : m.counters = none) : d.bootStep l (some m) = d.stopLodge l 4 := by
  have hsome : m.ident.isSome = true := Option.isSome_iff_ne_none.mpr hident
  simp only [Dev.bootStep, if_neg hboot, Option.isNone_eq_false_iff.mpr hsome, Bool.false_and, Bool.false_eq_true, if_false,
    hsome, if_true, hctr]

variable {c : Nat × Nat × Nat × Nat} (hctr : m.counters = some c) {v : Option Nat}
  (hv : (if m.rootKey = Config.vendorKey then verifyImage 1 vendorOnly m.loader else none) = v)
include hctr hv

theorem Dev.bootStep_of_bad_loader (hbad : v = none) : d.bootStep l (some m) = d.stopLodge l 1 := by
  have hsome : m.ident.isSome = true := Option.isSome_iff_ne_none.mpr hident
  simp only [Dev.bootStep, if_neg hboot, Option.isNone_eq_false_iff.mpr hsome, Bool.false_and, Bool.false_eq_true, if_false,
    hsome, if_true, hctr, hv, hbad]

theorem Dev.bootStep_of_loader {n : Nat} (hn : v = some n) : d.bootStep l (some m) =
    if n < c.1 ∨ (d.lodge l).ghVer.getD 0 < c.2.1 then d.stopLodge l 3
    else (((((((d.setIdentity l m.ident).setCounters l c).enrol l
      (certOwners l m.cert (m.ident.map (fun i => i.2)) c.2.2.2)).setMeas l 1 m.rom).setMeas l 2 (Config.sm3 m.loader)).setFld
        (.lodgeCtl l) Reg.LODGE_STS.KEEPER_UP (d.fld (.lodgeCtl l) Reg.KEEPER_RUN.RUN % 2)).modLodge l
          (fun x => { x with loaderVer := some n })).endStep l 4 5 := by
  have hsome : m.ident.isSome = true := Option.isSome_iff_ne_none.mpr hident
  simp only [Dev.bootStep, if_neg hboot, Option.isNone_eq_false_iff.mpr hsome, Bool.false_and, Bool.false_eq_true, if_false,
    hsome, if_true, hctr, hv, hn, Bool.or_eq_true, decide_eq_true_eq]

end

/-! ### Step 6 (R428, R435, R437) -/

theorem Dev.modLodge_word (d : Dev) (l : Nat) (g : LodgeSt → LodgeSt) (b : Blk) (o : Nat) :
    (d.modLodge l g).word b o = d.word b o := rfl

theorem Dev.setMeas_word_warden (d : Dev) (l dig o : Nat) (ho : o < 0x10000) :
    (d.setMeas l 4 dig).word (.warden l) o = d.word (.warden l) o := by
  unfold Dev.setMeas
  exact foldl_keeps (fun e => e.word (.warden l) o) (fun e w => Dev.word_setWord_ne (by simp only [Blk.base]; omega)) _ _

/-- Starting the keepers of a lodge leaves its role. -/
theorem Dev.isWarden_of_started (d : Dev) (l up run dig : Nat) (g : LodgeSt → LodgeSt) :
    ((((d.setFld (.lodgeCtl l) Reg.LODGE_STS.FW_UP up).setFld (.lodgeCtl l) Reg.LODGE_STS.KEEPER_UP run).setMeas l 4
      dig).modLodge l g).isWarden l = d.isWarden l := by
  have hrole (e : Dev) (f : Fld) (hf : f.off < 0x10000) (v : Nat) :
      (e.setFld (.lodgeCtl l) f v).word (.warden l) (Reg.WARDEN_STS.ROLE.offAt 0) = e.word (.warden l) (Reg.WARDEN_STS.ROLE.offAt 0) :=
    Dev.word_setWord_ne (by simp only [Blk.base, Fld.offAt]; omega)
  unfold Dev.isWarden Dev.fld Dev.fldI
  rw [Dev.modLodge_word, Dev.setMeas_word_warden _ _ _ _ (by decide), hrole _ _ (by decide), hrole _ _ (by decide)]

theorem Dev.firmwareStep_of_bad {bs : List Byte}
    (hv : verifyImage 3 (componentKey (d.owners.filter (fun o => o.lodge == l)) (d.lodge l).straps.boot 1) bs = none) :
    d.firmwareStep l bs = d.stopLodge l 2 := by
  simp only [Dev.firmwareStep, hv]

section
variable {bs : List Byte} {n : Nat}
  (hv : verifyImage 3 (componentKey (d.owners.filter (fun o => o.lodge == l)) (d.lodge l).straps.boot 1) bs = some n)
include hv

theorem Dev.firmwareStep_of_old (hold : n < d.counter l 1) : d.firmwareStep l bs = d.stopLodge l 3 := by
  simp only [Dev.firmwareStep, hv, if_pos hold]

theorem Dev.firmwareStep_of_verified (hnew : d.counter l 1 ≤ n) {d1 : Dev}
    (hd1 : (((d.setFld (.lodgeCtl l) Reg.LODGE_STS.FW_UP 1).setFld (.lodgeCtl l) Reg.LODGE_STS.KEEPER_UP
      (d.fld (.lodgeCtl l) Reg.KEEPER_RUN.RUN)).setMeas l 4 (Config.sm3 bs)).modLodge l (fun x => { x with fwVer := some n }) = d1) :
    d.firmwareStep l bs =
      (if d1.isWarden l then (d1.forceClken 0x100 firmwareEnables).logKeptStop else d1).endFirmwareSteps := by
  have hrole : d1.isWarden l = d.isWarden l := hd1 ▸ Dev.isWarden_of_started d l 1 _ _ _
  simp only [Dev.firmwareStep, hv, if_neg (Nat.not_lt.mpr hnew), hd1, hrole]

end

end

/-- Settles O44: power-good by its two conditions, an HBM attempt by its cause, a step by `stepEnds` and its checks in order. -/
theorem startupComplete : Obligations.StartupComplete := by
  unfold Obligations.StartupComplete
  refine ⟨?pwrgd, ?hbm, ?steps⟩
  case pwrgd =>
    intro s t a b hlive hvaux hpwrgd
    rw [exec_pwrgdRise, execPwrgdRise, State.run_of_live hlive]
    exact congrArg _ (congrArg _ (if_pos ⟨hvaux, hpwrgd⟩))
  case hbm =>
    intro s t k step cause rows hk hlive hstate hcause b d bin d1 d2 d3 after
    have hend := fun {x : Dev} hx => exec_hbmAttemptEnd_of_training (t := t) (rows := rows) hk hlive hstate hcause (d := x) hx
    refine ⟨fun hc => hend ?_, fun hc hbin => hend ?_, fun hc hbin => hend ?_⟩
    · rw [Dev.endAttempt, if_pos hc]
    · rw [Dev.endAttempt, if_neg hc]
      exact if_pos hbin
    · rw [Dev.endAttempt, if_neg hc]
      exact if_neg (Nat.not_lt.mpr hbin)
  case steps =>
    intro s t l hl hlive hrun hpower d x
    have hends := exec_startStepEnd_of_running (t := t) hl hlive hrun hpower
    refine ⟨fun c hstep => ?failed, fun hstep => ?gatehouse, fun hstep => ?boot, fun hstep hfw bs cert => ?firmware,
      fun hstep hwarden arrays stages engines hint calib => ?bist⟩
    case failed => rw [hends, Dev.stepEnds_failed c hstep]
    case gatehouse =>
      rintro bs cert owners rfl
      rw [hends, Dev.stepEnds_gatehouse hstep, Dev.gatehouseStep]
      refine ⟨fun hbad => ?_, fun v hv hcold => ?_⟩
      · split
        · rfl
        next v hv => exact absurd (hv.symm.trans hbad) (by simp)
      · split
        next hbad => exact absurd (hbad.symm.trans hv) (by simp)
        next w hw =>
          obtain rfl : w = v := Option.some.inj (hw.symm.trans hv)
          exact congrArg _ (congrArg _ (if_neg (by rw [hcold]; exact Bool.false_ne_true)))
    case boot =>
      refine ⟨fun m hboot => ?_, fun hboot => ?_, fun m hboot hident => ?_, fun m hboot hident hctr => ?_,
        fun m c hboot hident hctr => ⟨fun hbad => ?_, fun n hn hold => ?_, fun n hn hload hgh => ?_⟩⟩
      · rw [hends, Dev.stepEnds_boot hstep, Dev.bootStep_of_bad_strap hboot]
      · rw [hends, Dev.stepEnds_boot hstep, Dev.bootStep_of_no_media hboot]
      · rw [hends, Dev.stepEnds_boot hstep, Dev.bootStep_of_no_identity hboot hident]
      · rw [hends, Dev.stepEnds_boot hstep, Dev.bootStep_of_no_counters hboot hident hctr]
      · rw [hends, Dev.stepEnds_boot hstep, Dev.bootStep_of_bad_loader hboot hident hctr rfl hbad]
      · rw [hends, Dev.stepEnds_boot hstep, Dev.bootStep_of_loader hboot hident hctr rfl hn, if_pos hold]
      · rw [hends, Dev.stepEnds_boot hstep, Dev.bootStep_of_loader hboot hident hctr rfl hn, if_neg]
        exact not_or.mpr ⟨Nat.not_lt.mpr hload, Nat.not_lt.mpr hgh⟩
    case firmware =>
      rw [hends, Dev.stepEnds_firmware hstep hfw]
      refine ⟨fun hbad => ?_, fun n hn hold => ?_, fun n hn hnew => ?_⟩
      · rw [Dev.firmwareStep_of_bad hbad]
      · rw [Dev.firmwareStep_of_old hn hold]
      · rw [Dev.firmwareStep_of_verified hn hnew rfl]
    case bist => rw [hends, Dev.stepEnds_bist hstep hwarden]

end Machine
end Sys2Proof
end

section
/-! PROOFS. Counters, hints and attestation (19 R434, R437 to R440). -/
namespace Sys2Proof
namespace Machine

theorem exec_advanceCtr (t : Nat) (src : Source) (ctr : BitVec 2) (s : State) :
    exec (.advanceCtr t src ctr) s = execAdvanceCtr t src ctr s := rfl
theorem exec_advanceCtrDone (t l : Nat) (ok : Bool) (s : State) :
    exec (.advanceCtrDone t l ok) s = execAdvanceCtrDone t l ok s := rfl
theorem exec_hintWrite (t : Nat) (src : Source) (s : State) : exec (.hintWrite t src) s = execHintWrite t src s := rfl
theorem exec_spdmRequest (t l : Nat) (bs : List Byte) (s : State) :
    exec (.spdmRequest t l bs) s = execSpdmRequest t l bs s := rfl

theorem Dev.secCtlWritten_advance (d : Dev) (l : Nat) (new : Word) :
    d.secCtlWritten l new 1#32 = (d.setWord (.security l) 0x0 new).advanceCounter l := by
  have hcmd : bitsOf (1#32).toNat 3 0 = 1 := by decide
  simp only [Dev.secCtlWritten, hcmd]

theorem Dev.secCtlWritten_hint (d : Dev) (l : Nat) (new : Word) :
    d.secCtlWritten l new 2#32 = (d.setWord (.security l) 0x0 new).writeHint l := by
  have hcmd : bitsOf (2#32).toNat 3 0 = 2 := by decide
  simp only [Dev.secCtlWritten, hcmd]

/-! ### ADVANCE_CTR (R438, R439) -/

section
variable {d : Dev} {l n v : Nat} (hn : d.fld (.security l) Reg.SEC_CTL.CTR = n)
  (hv : d.fld (.security l) Reg.SEC_CTR_ARG.VALUE = v)

theorem Dev.advanceCounter_of_running (h : (d.lodge l).advance ≠ none) :
    d.advanceCounter l = d.setFld (.security l) Reg.SEC_STS.CMD_IGN 1 := by
  have hnone : (d.lodge l).advance.isNone = false := by simpa [Option.isSome_iff_ne_none] using h
  simp only [Dev.advanceCounter, hnone, Bool.and_false, Bool.false_eq_true, if_false]

include hn

theorem Dev.advanceCounter_of_no_version (h : d.versionInForce l n = none) :
    d.advanceCounter l = d.setFld (.security l) Reg.SEC_STS.CMD_IGN 1 := by
  simp only [Dev.advanceCounter, hn, h, Bool.false_and, Bool.false_eq_true, if_false]

include hv

theorem Dev.advanceCounter_of_version {top : Nat} (hidle : (d.lodge l).advance = none) (h : d.versionInForce l n = some top) :
    d.advanceCounter l = if d.counter l n ≤ v ∧ v ≤ top then
        (d.modLodge l (fun x => { x with advance := some (n, v) })).emit [.flashCounter l n v]
      else d.setFld (.security l) Reg.SEC_STS.CMD_IGN 1 := by
  simp only [Dev.advanceCounter, hn, hv, h, hidle, Option.isNone_none, Bool.and_true, decide_eq_true_eq]

end

/-- Settles O45: ADVANCE_CTR and HINT_WRITE through SEC_CTL, the end of an advance by its outcome, a request by the step. -/
theorem securityCommandsComplete : Obligations.SecurityCommandsComplete := by
  unfold Obligations.SecurityCommandsComplete
  refine ⟨?advance, ?outcome, ?done, ?hint, ?spdm⟩
  case advance =>
    intro s t src ctr hl hacc b d
    rw [exec_advanceCtr, execAdvanceCtr, State.access_accepted hacc, Dev.secCtlWritten_advance]
  case outcome =>
    intro d l n v hn hv
    exact ⟨Dev.advanceCounter_of_running, Dev.advanceCounter_of_no_version hn,
      fun top hidle h => Dev.advanceCounter_of_version hn hv hidle h⟩
  case done =>
    intro s t l n v hl hlive hadv d
    have hadv' : ((s.dev.touch t).lodge l).advance = some (n, v) := hadv
    constructor
    · simp only [exec_advanceCtrDone, execAdvanceCtrDone, Nat.mod_eq_of_lt hl, State.run_of_live hlive, hadv', if_true, d]
    · simp only [exec_advanceCtrDone, execAdvanceCtrDone, Nat.mod_eq_of_lt hl, State.run_of_live hlive, hadv',
        Bool.false_eq_true, if_false, d]
  case hint =>
    intro s t src hl hacc l d
    have hexec : exec (.hintWrite t src) s = .next ⟨s.pending, d.writeHint l⟩ := by
      rw [exec_hintWrite, execHintWrite, State.access_accepted hacc, Dev.secCtlWritten_hint]
    rw [hexec]
    refine ⟨fun key hident hready => ?_, fun hnot => ?_⟩
    · rw [Dev.writeHint, if_pos (by rw [hident, hready]; rfl)]
    · rw [Dev.writeHint, if_neg]
      rcases hnot with h | h <;> simp [h]
  case spdm =>
    intro s t l bs hl hlive hvaux d
    have hvaux' : (s.dev.touch t).pwr.vaux = true := hvaux
    refine ⟨fun hstep => ?_, fun hstep hident => ?_, fun hstep hident => ?_⟩
    · simp only [exec_spdmRequest, execSpdmRequest, Nat.mod_eq_of_lt hl, State.run_of_live hlive, hvaux', Bool.not_true,
        Bool.false_eq_true, if_false, if_pos hstep, d]
    · simp only [exec_spdmRequest, execSpdmRequest, Nat.mod_eq_of_lt hl, State.run_of_live hlive, hvaux', Bool.not_true,
        Bool.false_eq_true, if_false, if_neg (Nat.not_lt.mpr hstep), if_pos hident, d]
    · simp only [exec_spdmRequest, execSpdmRequest, Nat.mod_eq_of_lt hl, State.run_of_live hlive, hvaux', Bool.not_true,
        Bool.false_eq_true, if_false, if_neg (Nat.not_lt.mpr hstep), if_neg (Bool.eq_false_iff.mp hident), d]

end Machine
end Sys2Proof
end

section
/-! PROOFS. The POWER commands (20 R443 to R445). -/
namespace Sys2Proof
namespace Machine

theorem exec_powerActive (t : Nat) (src : Source) (s : State) : exec (.powerActive t src) s = s.powerRow t src 1#32 := rfl
theorem exec_powerIdle (t : Nat) (src : Source) (s : State) : exec (.powerIdle t src) s = s.powerRow t src 2#32 := rfl
theorem exec_powerDormant (t : Nat) (src : Source) (s : State) : exec (.powerDormant t src) s = s.powerRow t src 3#32 := rfl

/-- An accepted command of POWER_CTL leaves its other fields and acts by its number. -/
theorem State.powerRow_accepted {s : State} {t : Nat} {src : Source} (h : s.accepts src .power 0x0) {cmd : Word} {n : Nat}
    (hn : bitsOf cmd.toNat 3 0 = n) : s.powerRow t src cmd = .next ⟨s.pending,
      ((s.written t src .power).setWord .power 0x0 ((s.written t src .power).word .power 0x0)).powerCommand n⟩ := by
  rw [State.powerRow, State.access_accepted h, Dev.powerCtlWritten, hn]

section
variable {d : Dev}

theorem Dev.powerCommand_idle (h : d.powerState = 0) :
    d.powerCommand 2 = if d.quiescent then d.setPower 1 else d.setFld .power Reg.POWER_STS.CMD_IGN 1 := by
  simp [Dev.powerCommand, h]

theorem Dev.powerCommand_dormant (h : d.powerState = 0 ∨ d.powerState = 1) :
    d.powerCommand 3 = if d.quiescent then d.enterDormant else d.setFld .power Reg.POWER_STS.CMD_IGN 1 := by
  simp [Dev.powerCommand, h]

/-- In DORMANT, on the way there or back, and in OFF, every command is ignored. -/
theorem Dev.powerCommand_ignored {n : Nat} (h : 2 ≤ d.powerState) (hn : n = 1 ∨ n = 2 ∨ n = 3) :
    d.powerCommand n = d.setFld .power Reg.POWER_STS.CMD_IGN 1 := by
  have h0 : d.powerState ≠ 0 := by omega
  have h1 : d.powerState ≠ 1 := by omega
  rcases hn with rfl | rfl | rfl <;> simp [Dev.powerCommand, h0, h1]

end

/-- Settles O46: each command by its number and the state that it finds. -/
theorem powerCommandsComplete : Obligations.PowerCommandsComplete := by
  unfold Obligations.PowerCommandsComplete
  intro s t src hacc d ignored
  have hactive : exec (.powerActive t src) s = .next ⟨s.pending, d.powerCommand 1⟩ :=
    State.powerRow_accepted hacc (by decide)
  have hidle : exec (.powerIdle t src) s = .next ⟨s.pending, d.powerCommand 2⟩ := State.powerRow_accepted hacc (by decide)
  have hdormant : exec (.powerDormant t src) s = .next ⟨s.pending, d.powerCommand 3⟩ :=
    State.powerRow_accepted hacc (by decide)
  refine ⟨fun h => ?_, fun h => ?_, fun h => ?_, fun h => ?_, fun h => ⟨?_, ?_, ?_⟩⟩
  · simp only [hactive, Dev.powerCommand, if_pos h]
  · simp only [hactive, Dev.powerCommand, h, zero_ne_one, if_false, if_true]
  · rw [hidle, Dev.powerCommand_idle h]
  · rw [hdormant, Dev.powerCommand_dormant h]
  · rw [hactive, Dev.powerCommand_ignored h (.inl rfl)]
  · rw [hidle, Dev.powerCommand_ignored h (.inr (.inl rfl))]
  · rw [hdormant, Dev.powerCommand_ignored h (.inr (.inr rfl))]

end Machine
end Sys2Proof
end

section
/-! PROOFS. Entry to dormancy, wakes and exit (20 R446 to R449). -/
namespace Sys2Proof
namespace Machine

theorem exec_dormantEntryDone (t : Nat) (s : State) : exec (.dormantEntryDone t) s = execDormantEntryDone t s := rfl
theorem exec_powerWake (t how : Nat) (s : State) : exec (.powerWake t how) s = execPowerWake t how s := rfl
theorem exec_wakeTimer (t : Nat) (s : State) : exec (.wakeTimer t) s = execWakeTimer t s := rfl
theorem exec_dormantExitDone (t : Nat) (refOk fwOk : Bool) (s : State) :
    exec (.dormantExitDone t refOk fwOk) s = execDormantExitDone t refOk fwOk s := rfl

/-- Settles O47: each event by the state of POWER_STS that it finds. -/
theorem dormancyComplete : Obligations.DormancyComplete := by
  unfold Obligations.DormancyComplete
  refine ⟨?entry, ?wake, ?timer, ?exit⟩
  case entry =>
    intro s t hlive hstate
    have hstate' : (s.dev.touch t).powerState = 3 := hstate
    rw [exec_dormantEntryDone, execDormantEntryDone, State.run_of_live hlive, if_pos hstate']
  case wake =>
    intro s t how hlive hhow hstate
    have hstate' : (s.dev.touch t).powerState = 2 ∨ (s.dev.touch t).powerState = 3 := hstate
    rw [exec_powerWake, execPowerWake, State.run_of_live hlive, if_pos hhow, Dev.wake, if_pos hstate']
  case timer =>
    intro s t hlive hstate hen hdue
    have hcond : (s.dev.touch t).powerState = 2 ∧ (s.dev.touch t).isSet .power Reg.POWER_WAKE.EN = true ∧
        (s.dev.touch t).pwr.entered + (s.dev.touch t).fld .power Reg.POWER_WAKE.TIMER_MS * 64000000 ≤ (s.dev.touch t).now :=
      ⟨hstate, hen, hdue⟩
    rw [exec_wakeTimer, execWakeTimer, State.run_of_live hlive, if_pos hcond, Dev.wake, if_pos (.inl hcond.1)]
  case exit =>
    intro s t refOk hlive hstate
    have hstate' : ¬(s.dev.touch t).powerState ≠ 4 := not_not.mpr hstate
    constructor
    · simp only [exec_dormantExitDone, execDormantExitDone, State.run_of_live hlive, if_neg hstate', Bool.not_true,
        Bool.false_eq_true, if_false]
    · simp only [exec_dormantExitDone, execDormantExitDone, State.run_of_live hlive, if_neg hstate', Bool.not_false, if_true]

end Machine
end Sys2Proof
end

section
/-! PROOFS. Held chimes and temperatures (20 R452 to R454). -/
namespace Sys2Proof
namespace Machine

theorem exec_thermalRead (t : Nat) (temps : List Nat) (s : State) : exec (.thermalRead t temps) s = execThermalRead t temps s := rfl

theorem Dev.heldChime_iff (d : Dev) (n : DWord) : d.heldChime n = true ↔
    n.toNat * d.fld .power Reg.POWER_STS.DUTY % 16 < d.fld .power Reg.POWER_STS.DUTY := by
  rw [Dev.heldChime, decide_eq_true_eq]

/-- Settles O48: the held chimes by R452's remainder, a reading by whether one exceeds 115 °C. -/
theorem powerEventsComplete : Obligations.PowerEventsComplete := by
  unfold Obligations.PowerEventsComplete
  refine ⟨Dev.heldChime_iff, ?three, ?zero, ?thermal⟩
  case three =>
    intro d hduty n
    have hmod : n.toNat * 3 % 16 = n.toNat % 16 * 3 % 16 := by omega
    have hall : ∀ r < 16, r * 3 % 16 < 3 ↔ (r = 0 ∨ r = 6 ∨ r = 11) := by decide
    rw [Dev.heldChime_iff, hduty, hmod]
    exact hall _ (Nat.mod_lt _ (by omega))
  case zero =>
    intro d n hduty
    rw [← Bool.not_eq_true, Dev.heldChime_iff, hduty]
    exact Nat.not_lt_zero _
  case thermal =>
    intro s t temps hlive hlen d
    have hexec : exec (.thermalRead t temps) s = .next ⟨s.pending,
        if (temps.take 36).any (fun x => decide (460 < x)) then d.emergencyStop 1 else d⟩ := by
      rw [exec_thermalRead, execThermalRead, State.run_of_live hlive, if_neg (Nat.not_lt.mpr hlen)]
    rw [hexec]
    refine ⟨fun hcool => ?_, fun hhot => ?_⟩
    · rw [if_neg]
      simpa using hcool
    · rw [if_pos]
      simpa using hhot

end Machine
end Sys2Proof
end

section
/-! PROOFS. Emergency stops and supplies (20 R454, R455, 21 R465 to R467). -/
namespace Sys2Proof
namespace Machine

theorem exec_emergencyStop (t c : Nat) (s : State) : exec (.emergencyStop t c) s = execEmergencyStop t c s := rfl
theorem exec_thermTripInput (t : Nat) (s : State) : exec (.thermTripInput t) s = execThermTripInput t s := rfl
theorem exec_vin48Fault (t mv : Nat) (s : State) : exec (.vin48Fault t mv) s = execVin48Fault t mv s := rfl
theorem exec_regulatorFault (t : Nat) (s : State) : exec (.regulatorFault t) s = execRegulatorFault t s := rfl
theorem exec_vauxLoss (t : Nat) (s : State) : exec (.vauxLoss t) s = execVauxLoss t s := rfl
theorem exec_pwrgdFall (t : Nat) (s : State) : exec (.pwrgdFall t) s = execPwrgdFall t s := rfl
theorem exec_vauxApply (t : Nat) (s : State) : exec (.vauxApply t) s = execVauxApply t s := rfl

/-! ### What outlives VIN48 (20 R454, 21 R466) -/

/-- The registers of SECURITY lie in the auxiliary domain. -/
theorem auxiliary_security {l k : Nat} (hl : l < 2) (hk : k < 0x4000) : auxiliary ((Blk.security l).base + k) = true := by
  obtain rfl | rfl : l = 0 ∨ l = 1 := by omega
  · have hwin : ((Blk.security 0).base + k) / 0x10000 = 7 := by simp only [Blk.base]; omega
    simp [auxiliary, Blk.ofAddr, Blk.ofBar0, hwin]
  · have hwin : ((Blk.security 1).base + k) / 0x10000 = 0x47 := by simp only [Blk.base]; omega
    simp [auxiliary, Blk.ofAddr, hwin]

theorem Dev.powerOff_word_security (d : Dev) {l k : Nat} (hl : l < 2) (hk : k < 0x4000) :
    d.powerOff.word (.security l) k = d.word (.security l) k := by
  have hstate : (Blk.security l).base + k ≠ Blk.power.base + Reg.POWER_STS.STATE.off := by
    simp only [Blk.base, Reg.POWER_STS.STATE]; omega
  unfold Dev.powerOff Dev.setPower Dev.setFld Dev.setFldI
  rw [Dev.word_setWord_ne (by simpa [Fld.offAt] using hstate)]
  unfold Dev.word
  rw [Tbl.get_filter, if_pos (auxiliary_security hl hk)]

theorem Dev.emergencyStop_of_powered {d : Dev} (hgood : d.pwr.pwrgd = true) (hon : d.powerState ≠ 5) (c : Nat) :
    d.emergencyStop c = { d.powerOff.setFld .power Reg.POWER_ESTOP.CAUSE c with
      pwr := { (d.powerOff.setFld .power Reg.POWER_ESTOP.CAUSE c).pwr with
        thermTrip := true, stopped := true, cause := some c } } := by
  rw [Dev.emergencyStop, if_neg (by simp [hgood, hon])]

/-- Settles O49: each event by the supplies that it finds. -/
theorem suppliesComplete : Obligations.SuppliesComplete := by
  unfold Obligations.SuppliesComplete
  refine ⟨?stops, ?fall, ?loss, ?apply, ?lost⟩
  case stops =>
    intro s t hgood hon stopped
    have hstop (c : Nat) : (s.dev.touch t).emergencyStop c = stopped c := 
      Dev.emergencyStop_of_powered (d := s.dev.touch t) hgood hon c
    have hup : ¬((s.dev.touch t).pwr.pwrgd = false ∨ (s.dev.touch t).powerState = 5) := by
      rw [not_or, Bool.not_eq_false]
      exact ⟨hgood, hon⟩
    refine ⟨fun c hlo hhi => ?_, ?_, ?_, fun mv hout => ?_, fun mv hlo hhi => ?_⟩
    · rw [exec_emergencyStop, execEmergencyStop, State.go_eq, if_pos ⟨hlo, hhi⟩, hstop]
    · rw [exec_thermTripInput, execThermTripInput, State.go_eq, hstop]
    · rw [exec_regulatorFault, execRegulatorFault, State.go_eq, hstop]
    · rw [exec_vin48Fault, execVin48Fault, State.go_eq, if_neg hup, if_pos hout, hstop]
    · rw [exec_vin48Fault, execVin48Fault, State.go_eq, if_neg hup, if_neg (by omega)]
      rfl
  case fall =>
    intro s t hgood
    have hgood' : (s.dev.touch t).pwr.pwrgd = true := hgood
    rw [exec_pwrgdFall, execPwrgdFall, State.go_eq, if_pos hgood']
  case loss =>
    intro s t
    rfl
  case apply =>
    intro s t hoff
    have hoff' : ¬(s.dev.touch t).pwr.vaux = true := Bool.eq_false_iff.mp hoff
    rw [exec_vauxApply, execVauxApply, State.go_eq, if_neg hoff']
  case lost =>
    intro d
    exact ⟨rfl, rfl, rfl, rfl, rfl, rfl, rfl, fun l k hl hk => d.powerOff_word_security hl hk⟩

end Machine
end Sys2Proof
end

section
/-! PROOFS. The power ward at every tick (20 R451). -/
namespace Sys2Proof
namespace Machine

theorem exec_wardTick (t w : Nat) (dies : List Nat) (s : State) : exec (.wardTick t w dies) s = execWardTick t w dies s := rfl

/-! ### What a tick shows before the ward acts -/

/-- What neither POWER_MEAS nor DIE_POWER holds is, after a tick is shown, as the tick's own record leaves it. -/
theorem Dev.showPower_keeps {β : Type} (g : Dev → β) (havg : ∀ e v, g (e.setFld .power Reg.POWER_MEAS.AVG_W v) = g e)
    (hpeak : ∀ e v, g (e.setFld .power Reg.POWER_MEAS.PEAK_W v) = g e)
    (hdie : ∀ e k v, g (e.setFld (.dieCtl k) Reg.DIE_POWER.WATTS v) = g e) (d : Dev) (w : Nat) (dies : List Nat) :
    g (d.showPower w dies) = g { d with pwr := { d.pwr with ticks := (w :: d.pwr.ticks).take 255 } } := by
  unfold Dev.showPower
  extract_lets pw d1 d2
  have h2 : g d2 = g d1 := (hpeak _ _).trans (havg _ _)
  split
  · exact h2
  · exact (foldl_keeps g (fun e k => hdie e k _) _ _).trans h2

theorem Dev.showPower_pwr (d : Dev) (w : Nat) (dies : List Nat) :
    (d.showPower w dies).pwr = { d.pwr with ticks := (w :: d.pwr.ticks).take 255 } :=
  Dev.showPower_keeps Dev.pwr (fun _ _ => Dev.setFld_pwr ..) (fun _ _ => Dev.setFld_pwr ..) (fun _ _ _ => Dev.setFld_pwr ..) d w dies

/-- Only POWER_MEAS of the POWER registers takes what a tick measures. -/
theorem Dev.showPower_fld (d : Dev) (w : Nat) (dies : List Nat) {f : Fld} (hmeas : f.off ≠ Reg.POWER_MEAS.AVG_W.off)
    (hf : f.off < 0x10000) : (d.showPower w dies).fld .power f = d.fld .power f := by
  refine Dev.showPower_keeps (fun e => e.fld .power f) (fun e v => ?_) (fun e v => ?_) (fun e k v => ?_) d w dies
  · exact Dev.fld_setFld_ne fun h => hmeas (Nat.add_left_cancel h)
  · exact Dev.fld_setFld_ne fun h => hmeas (Nat.add_left_cancel h)
  · exact Dev.fld_setFld_ne (by simp only [Blk.base]; omega)

/-! ### Over the cap, under it, and the rule -/

theorem Dev.isSet_capEn (d : Dev) : d.isSet .power Reg.POWER_CTL.CAP_EN = true ↔ d.fld .power Reg.POWER_CTL.CAP_EN = 1 := by
  have hbit : d.fld .power Reg.POWER_CTL.CAP_EN < 2 := bitsOf_lt
  rw [Dev.isSet, bne_iff_ne]
  omega

/-- The power that a tick averages: the sum of the last WINDOW ticks, of which one at least is there, and their number. -/
theorem Dev.wardSum_of_tick {d : Dev} {w : Nat} {ws : List Nat} (h : d.pwr.ticks = (w :: ws).take 255) {xs : List Nat}
    (hxs : d.pwr.ticks.take (max 1 (d.fld .power Reg.POWER_WINDOW.WINDOW)) = xs) : d.wardSum = (xs.sum, xs.length) := by
  have hsome : max 1 xs.length = xs.length := by
    rw [← hxs, h]
    simp only [List.length_take, List.length_cons]
    omega
  simp only [Dev.wardSum, hxs, hsome, List.sum_eq_foldl]

section
variable {d : Dev} {sum n : Nat} (hsum : d.wardSum = (sum, n))
include hsum

theorem Dev.overCap_iff : d.overCap = true ↔ (∃ x ∈ d.pwr.temps, d.throttleTemp < x) ∨
    d.fld .power Reg.POWER_CTL.CAP_EN = 1 ∧ d.fld .power Reg.POWER_CAP.CAP_W * n < sum := by
  simp only [Dev.overCap, Dev.tooHot, hsum, Bool.or_eq_true, Bool.and_eq_true, List.any_eq_true, decide_eq_true_eq,
    Dev.isSet_capEn]

theorem Dev.underCap_iff : d.underCap = true ↔
    (d.fld .power Reg.POWER_CTL.CAP_EN = 1 → (∀ x ∈ d.pwr.temps, x + 20 ≤ d.throttleTemp) ∧
      sum + d.fld .power Reg.POWER_CAP.HYST_W * n < d.fld .power Reg.POWER_CAP.CAP_W * n) ∧
    (¬d.fld .power Reg.POWER_CTL.CAP_EN = 1 → ¬∃ x ∈ d.pwr.temps, d.throttleTemp < x) := by
  rw [Dev.underCap, ← Dev.isSet_capEn]
  cases hcap : d.isSet .power Reg.POWER_CTL.CAP_EN
  · simp [Dev.tooHot]
  · simp [Dev.coolEnough, hsum]

end

/-- What the ward does to step and duty, by what its rule says. -/
theorem Dev.wardAct_of_rule {d : Dev} {st du a b : Nat} {above below moved : Bool} (habove : d.overCap = above)
    (hbelow : d.underCap = below) (hmoved : d.pwr.dutyMoved = moved) (hst : d.fld .power Reg.POWER_STS.STEP = st)
    (hdu : d.fld .power Reg.POWER_STS.DUTY = du)
    (hrule : wardRule (min 48 (d.fld .power Reg.POWER_CTL.STEP_MAX)) above below moved st du = (a, b)) :
    d.wardAct = { (d.setFld .power Reg.POWER_STS.STEP a).setFld .power Reg.POWER_STS.DUTY b with
      pwr := { d.pwr with dutyMoved := moved || b != du } } := by
  subst habove hbelow hmoved hst hdu
  simp only [Dev.wardAct, hrule]

/-- Settles O60: what the tick shows leaves all that the ward judges by, and the rule has the seven cases of R451. -/
theorem wardFollowsItsRule : Obligations.WardFollowsItsRule := by
  unfold Obligations.WardFollowsItsRule
  intro s t w dies hlive hgood hon p xs sum n throttle hot cool capped isOver isUnder stepMax st du moved base moves
  have hexec : exec (.wardTick t w dies) s = .next ⟨s.pending, base.wardAct⟩ := by
    rw [exec_wardTick, execWardTick, State.run_of_live hlive]
    exact congrArg _ (congrArg _ (if_pos ⟨hgood, hon⟩))
  have hpwr : base.pwr = { s.dev.pwr with ticks := (w :: s.dev.pwr.ticks).take 255 } := Dev.showPower_pwr _ _ _
  have hfld {f : Fld} (hmeas : f.off ≠ Reg.POWER_MEAS.AVG_W.off) (hf : f.off < 0x10000) : base.fld .power f = p f :=
    Dev.showPower_fld _ _ _ hmeas hf
  have htemps : base.pwr.temps = s.dev.pwr.temps := by rw [hpwr]
  have hmoved : base.pwr.dutyMoved = moved := by rw [hpwr]
  have hthrottle : base.throttleTemp = throttle := by rw [Dev.throttleTemp, hfld (by decide) (by decide)]
  have hsum : base.wardSum = (sum, n) := Dev.wardSum_of_tick (by rw [hpwr]) (by
    rw [hpwr, hfld (by decide) (by decide)])
  have hover : base.overCap = true ↔ isOver := by
    rw [Dev.overCap_iff hsum, htemps, hthrottle, hfld (by decide) (by decide), hfld (by decide) (by decide)]
  have hunder : base.underCap = true ↔ isUnder := by
    rw [Dev.underCap_iff hsum, htemps, hthrottle, hfld (by decide) (by decide), hfld (by decide) (by decide),
      hfld (by decide) (by decide)]
  have hacts {a b : Nat} (hrule : wardRule stepMax base.overCap base.underCap moved st du = (a, b)) :
      exec (.wardTick t w dies) s = .next ⟨s.pending, moves a b⟩ := by
    have hrule' : wardRule (min 48 (base.fld .power Reg.POWER_CTL.STEP_MAX)) base.overCap base.underCap moved st du = (a, b) := by
      rw [hfld (by decide) (by decide)]
      exact hrule
    exact hexec.trans (congrArg _ (congrArg _ (Dev.wardAct_of_rule rfl rfl hmoved (hfld (by decide) (by decide))
      (hfld (by decide) (by decide)) hrule')))
  refine ⟨fun ho hstep => hacts ?_, fun ho hstep hduty hm => hacts ?_, fun ho hstep hstay => hacts ?_,
    fun ho hu hduty hm => hacts ?_, fun ho hu hduty hstep => hacts ?_, fun ho hu hstay => hacts ?_, fun ho hu => hacts ?_⟩
  · simp only [wardRule, hover.mpr ho, if_true, if_pos hstep]
  · simp only [wardRule, hover.mpr ho, if_true, if_neg (Nat.not_lt.mpr hstep), if_pos (And.intro hduty hm)]
  · rw [wardRule, if_pos (hover.mpr ho), if_neg (Nat.not_lt.mpr hstep), if_neg]
    rintro ⟨hduty, hm⟩
    rcases hstay with hfull | hmove
    · exact absurd hduty (Nat.not_lt.mpr hfull)
    · exact absurd (hm.symm.trans hmove) Bool.false_ne_true
  · rw [wardRule, if_neg (hover.not.mpr ho), if_pos (hunder.mpr hu), if_pos ⟨hduty, hm⟩]
  · rw [wardRule, if_neg (hover.not.mpr ho), if_pos (hunder.mpr hu), if_neg (by omega), if_pos ⟨hduty, hstep⟩]
  · rw [wardRule, if_neg (hover.not.mpr ho), if_pos (hunder.mpr hu), if_neg, if_neg]
    · rintro ⟨hduty, hstep⟩
      omega
    · rintro ⟨hduty, hm⟩
      rcases hstay with ⟨-, hmove⟩ | ⟨hzero, -⟩
      · exact absurd (hm.symm.trans hmove) Bool.false_ne_true
      · omega
  · rw [wardRule, if_neg (hover.not.mpr ho), if_neg (hunder.not.mpr hu)]

end Machine
end Sys2Proof
end
